-- ==== Sys2Proof/Word.lean ====
section
/-! DEFINITION. The machine's word types (spec/01 R13, R14, R18; spec/02 Table 2.2). -/

namespace Sys2Proof

/-- A g-register (R13). -/
abbrev Word := BitVec 64
/-- One byte of memory (R8). -/
abbrev Byte := BitVec 8
/-- One vector lane (R14). -/
abbrev Lane := BitVec 32
/-- One v-register of one cluster, 128 lanes; lane l is bits [32l+31:32l] (R14). -/
abbrev VReg := BitVec 4096
/-- One lane mask of one cluster (R16). -/
abbrev Mask := BitVec 128
/-- One accumulator entry, binary128 (R18). -/
abbrev F128 := BitVec 128
/-- One on-chip beat, 64 bytes (R234). -/
abbrev Beat := BitVec 512
/-- A code or effective address (R145). -/
abbrev Addr := BitVec 40
/-- A five-bit g-register number. -/
abbrev GReg := BitVec 5
/-- A three-bit predicate number. -/
abbrev PReg := BitVec 3

end Sys2Proof
end

