-- ==== Sys2Proof/Syntax.lean ====
section
/-! DEFINITION. The instructions and events of the JQ880: one constructor of `Instr` per row of
spec/opcode_table.json. Slot operations carry the fields of their encoding (spec/03); rows without an encoding are
events, and carry what the event names. -/

namespace Sys2Proof

/-- Type codes (spec/02 Table 2.1). -/
inductive Ty where
  | f32 | bf16 | f16 | f8e4 | f8e5 | f4 | i32 | n32 | i16 | n16 | i8 | n8
  deriving DecidableEq, Repr

/-- Rounding codes (spec/02 Table 2.6); `dyn` is code 7. -/
inductive Rnd where
  | rne | rtz | rdn | rup | rna | rto | dyn
  deriving DecidableEq, Repr

/-- Conditions of cmp (spec/05 R130). -/
inductive CmpCc where
  | eq | ne | lt | ltn | le | len
  deriving DecidableEq, Repr

/-- Conditions of fcmp (spec/05 R136). -/
inductive FcmpCc where
  | eq | lt | le | un
  deriving DecidableEq, Repr

/-- Conversions of fcvt, named target then source (spec/05 Table 5.6). -/
inductive FcvtOp where
  | i32f32 | n32f32 | f32i32 | f32n32 | f16f32 | f32f16 | bf16f32 | f32bf16 | f32i64 | i64f32
  deriving DecidableEq, Repr

/-- Widths of sxt and zxt (spec/05 R125). -/
inductive ExtW where
  | w8 | w16 | w32
  deriving DecidableEq, Repr

/-- Widths of ld (spec/05 R139). -/
inductive LdW where
  | i8 | n8 | i16 | n16 | i32 | n32 | d64
  deriving DecidableEq, Repr

/-- Widths of st (spec/05 R140). -/
inductive StW where
  | i8 | i16 | i32 | d64
  deriving DecidableEq, Repr

/-- Operations of amo (spec/05 R142). -/
inductive AmoOp where
  | add | and | or | xor | min | max | minn | maxn | swap | cas
  deriving DecidableEq, Repr

/-- Operations of ramo (spec/11 R268). -/
inductive RamoOp where
  | add | min | max | swap | cas
  deriving DecidableEq, Repr

/-- Conditions of vcmp (spec/07 R186). -/
inductive VcmpCc where
  | eq | ne | lt | le | gt | ge | un
  deriving DecidableEq, Repr

/-- Patterns of vshuf (spec/08 Table 8.3). -/
inductive ShufPat where
  | zlo | zhi | uev | uod | rev | swp
  deriving DecidableEq, Repr

/-- Operations of vred (spec/08 Table 8.4). -/
inductive RedOp where
  | add | max | min | and | or
  deriving DecidableEq, Repr

/-- Operations of vscan (spec/08 R207). -/
inductive ScanOp where
  | add | max | min
  deriving DecidableEq, Repr

/-- Marker kinds (spec/10 R245). -/
inductive MarkKind where
  | cb | ce | user
  deriving DecidableEq, Repr

/-- Bat image forms (spec/09 Table 9.3). -/
inductive BatForm where
  | plain | t8 | t16
  deriving DecidableEq, Repr

/-- Guard of a C-slot operation (spec/03 R79). -/
structure Guard where
  pg  : PReg
  neg : Bool
  deriving DecidableEq, Repr

/-- Cluster mask, lane mask and indirect bit of a V-slot operation (spec/03 R81). -/
structure VHead where
  cl  : BitVec 4
  m   : BitVec 4
  ind : Bool
  deriving DecidableEq, Repr

/-- MX source selectors (spec/03 Table 3.7). -/
inductive ASel where
  | v (n : BitVec 7)
  | iq (n : BitVec 4)
  | sp (n : BitVec 2)
  | slice (j : BitVec 4)
  deriving DecidableEq, Repr

/-- MX destination selectors (spec/03 Table 3.7). -/
inductive DSel where
  | v (n : BitVec 7)
  | oq (n : BitVec 4)
  | slice (j : BitVec 4)
  deriving DecidableEq, Repr

/-- Kinds of a queue entry (spec/10 R234; the token of spec/18 R405). -/
inductive EntryKind where
  | tile | marker | token
  deriving DecidableEq, Repr

/-- An entry of a port: its beats, the head beat first (spec/10 R234, R236). -/
structure Entry where
  kind  : EntryKind
  beats : List Beat
  deriving DecidableEq, Repr

/-- A flit (spec/17 Table 17.1). -/
structure Flit where
  payload : Beat
  auth    : BitVec 64
  crc     : BitVec 32
  ctrl    : BitVec 32
  deriving DecidableEq, Repr

/-- A memory packet: the fields of its header flit and its data bytes (spec/17 Table 17.8); `badTag` is the first of its flits
whose tag fails at this endpoint (R388), `rest` bytes 32..63 of the header. -/
structure Packet where
  badTag : Option Nat
  op   : Byte
  code : Byte
  len  : Byte
  sub  : Byte
  rtag : BitVec 32
  da   : Word
  opnd : Word
  cmp  : Word
  rest : BitVec 256
  data : List Byte
  deriving DecidableEq, Repr

/-- A CONTROL message (spec/19 R426); `badTag` is the first of its flits whose tag fails (spec/17 R388). -/
structure CtlMsg where
  badTag : Option Nat
  src  : Byte
  dst  : Byte
  arg  : Word
  data : List Byte
  deriving DecidableEq, Repr

/-- An identity record, with the sender's ephemeral key and nonce (spec/19 Table 19.3). -/
structure IdRecord where
  serial : BitVec 128
  encl   : BitVec 64
  link   : Byte
  fwdig  : BitVec 512
  devkey : BitVec 456
  cert   : BitVec 912
  xpub   : BitVec 448
  nonce  : BitVec 128
  attest : BitVec 912
  /-- the sender's own checks of this package's record passed (R417) -/
  accepts : Bool
  deriving DecidableEq, Repr

/-- A circuit flit at a transit relay: what it passes unchanged (spec/17 R385). -/
structure RelayFlit where
  ty      : BitVec 4
  sb      : BitVec 3
  payload : Beat
  auth    : BitVec 64
  deriving DecidableEq, Repr

/-- Scope of a forced reset (spec/18 R409). -/
inductive ResetScope where
  | quarter (q : BitVec 2)
  | region (x y w h : Nat)
  deriving DecidableEq, Repr

/-- The actions of dbg.ctl (spec/12 Table 12.7). -/
inductive DbgAct where
  | halt | haltq | run | step | resume | skip | abort
  deriving DecidableEq, Repr

/-- A flit as a link receives it, none where FEC decoding fails (spec/17 R371 to R373). -/
structure FlitIn where
  link : Nat
  flit : Option Flit
  deriving DecidableEq, Repr

/-- Where a message that brings an image comes in: the management port of the root, or a link, with the message's KIND (spec/19 R425,
R426). -/
inductive ImgSource where
  | port
  | link (l : Nat) (kind : Byte)
  deriving DecidableEq, Repr

/-- What a write over I3C carries: the cap of PCAP, or a command code that no row of Table 20.2 gives (spec/20 R434). -/
inductive I3cWrite where
  | cap (w : BitVec 16)
  | other (code : Byte)
  deriving DecidableEq, Repr

/-- What starts a package reset (spec/20 R437); the debug port, once unlocked, also acts as dbg.ctl does on a core selector
(R432). -/
inductive ResetCause where
  | powerOn | i3c | debug
  | debugCtl (sel : Word) (act : DbgAct)
  deriving DecidableEq, Repr

/-- What the security block takes: an identity record (spec/19 R416), a read of its status by hub software (spec/01 R36), the
raise of the rollback counter that M-level firmware asks for (R415), the unlock of the debug port (spec/20 R432). -/
inductive SecInput where
  | record (r : IdRecord)
  | status
  | rollback (version : BitVec 32)
  | unlock
  deriving DecidableEq, Repr

/-- One constructor per row of spec/opcode_table.json. -/
inductive Instr where
  -- S slot: alu group (R122)
  | add (d a b : GReg) | sub (d a b : GReg) | and (d a b : GReg) | or (d a b : GReg) | xor (d a b : GReg)
  | shl (d a b : GReg) | shr (d a b : GReg) | sar (d a b : GReg) | rotl (d a b : GReg)
  | slt (d a b : GReg) | sltn (d a b : GReg) | seq (d a b : GReg)
  | min (d a b : GReg) | max (d a b : GReg) | minn (d a b : GReg) | maxn (d a b : GReg)
  -- mul group (R124)
  | mul (d a b : GReg) | mulh (d a b : GReg) | mulhn (d a b : GReg) | div (d a b : GReg)
  | divn (d a b : GReg) | rem (d a b : GReg) | remn (d a b : GReg)
  -- bit group (R125 to R127)
  | clz (d a : GReg) | ctz (d a : GReg) | popc (d a : GReg) | bswap (d a : GReg)
  | sxt (d a : GReg) (w : ExtW) | zxt (d a : GReg) (w : ExtW)
  | fshl (d a b : GReg) | fshr (d a b : GReg)
  | bext (d a : GReg) (pos len1 : BitVec 6) | bins (d a : GReg) (pos len1 : BitVec 6)
  -- immediates (R128, R129)
  | addi (d a : GReg) (imm : BitVec 16) | andi (d a : GReg) (imm : BitVec 16)
  | ori (d a : GReg) (imm : BitVec 16) | xori (d a : GReg) (imm : BitVec 16)
  | shli (d a : GReg) (n : BitVec 6) | shri (d a : GReg) (n : BitVec 6)
  | sari (d a : GReg) (n : BitVec 6) | rotli (d a : GReg) (n : BitVec 6)
  | lih (d a : GReg) (imm : BitVec 16) | limm (d : GReg) (imm : BitVec 53)
  -- predicates (R130, R131)
  | cmp (cc : CmpCc) (pd : PReg) (a b : GReg)
  | pand (pd pa pb : PReg) | por (pd pa pb : PReg) | pxor (pd pa pb : PReg) | pnot (pd pa : PReg)
  | pget (d : GReg) | sel (d a b : GReg) (q : PReg)
  -- scalar floating point (R132 to R137)
  | fadd (d a b : GReg) (r : Rnd) | fsub (d a b : GReg) (r : Rnd) | fmul (d a b : GReg) (r : Rnd)
  | fdiv (d a b : GReg) (r : Rnd) | fsqrt (d a : GReg) (r : Rnd)
  | fmin (d a b : GReg) | fmax (d a b : GReg) | fclass (d a : GReg)
  | ffma (d a b c : GReg) (r : Rnd)
  | fcmp (cc : FcmpCc) (pd : PReg) (a b : GReg) | fcvt (op : FcvtOp) (d a : GReg) (r : Rnd)
  -- local memory (R138 to R142)
  | ld (w : LdW) (d a : GReg) (imm : BitVec 13) | st (w : StW) (d a : GReg) (imm : BitVec 13)
  | lda (s : BitVec 2) (d a : GReg) (imm : BitVec 13) | amo (op : AmoOp) (wide : Bool) (d a b : GReg)
  -- C slot (spec/06)
  | br (g : Guard) (disp : BitVec 22) | brr (g : Guard) (t : GReg)
  | call (g : Guard) (disp : BitVec 22) | callr (g : Guard) (t : GReg) | ret (g : Guard)
  | loop (g : Guard) (c : GReg) (len : BitVec 12)
  | halt (g : Guard) | trap (g : Guard) (code : BitVec 8) | eret (g : Guard) | idle (g : Guard)
  | brk (g : Guard) (code : BitVec 16)
  | fireEnd (g : Guard) | fireNext (g : Guard) | split (g : Guard) (s : GReg) | join (g : Guard)
  | barGrp (g : Guard)
  | cfArmReg (g : Guard) (cf : BitVec 6) (t : GReg) | cfArmImm (g : Guard) (cf : BitVec 6) (imm : BitVec 15)
  | cfWaitAny (g : Guard) (d m : GReg) | cfWaitAll (g : Guard) (d m : GReg)
  | cfFfr (g : Guard) (d m : GReg) | cfStat (g : Guard) (cf : BitVec 6) (d : GReg)
  | sysr (g : Guard) (d : GReg) (num : BitVec 12) | sysw (g : Guard) (s : GReg) (num : BitVec 12)
  -- the system-register rows: sysr and sysw with the register's own number
  | cfErrWrite (g : Guard) (s : GReg) | coreRmodeWrite (g : Guard) (s : GReg)
  | coreSatRead (g : Guard) (d : GReg)
  | loopCntWrite (g : Guard) (s : GReg) (j : BitVec 2) | loopStartWrite (g : Guard) (s : GReg) (j : BitVec 2)
  | cycCmpWrite (g : Guard) (s : GReg) | hubStatusWrite (g : Guard) (s : GReg)
  -- Q slot (spec/10)
  | qpop (d : GReg) (iq : BitVec 4) (stall t : Bool) | qpush (s : GReg) (oq : BitVec 4) (stall t : Bool)
  | qpeek (d : GReg) (iq : BitVec 4) (stall : Bool) (beat : BitVec 6) (w : BitVec 3)
  | qhead (d : GReg) (iq : BitVec 4) (stall : Bool) (w : BitVec 3)
  | qskip (iq : BitVec 4) (stall : Bool)
  | qmark (s : GReg) (oq : BitVec 4) (stall : Bool) (k : MarkKind)
  | qfree (d : GReg) (oq : BitVec 4) | qavail (d : GReg) (iq : BitVec 4)
  | epop (d : GReg) (e : BitVec 5) (stall : Bool)
  | mov (d a : GReg) | movp (pd pa : PReg) (neg : Bool)
  | qstat (d : GReg) (port : BitVec 5) | qcopy (iq oq : BitVec 4) (stall : Bool)
  -- V slot: arithmetic (spec/07)
  | vadd (h : VHead) (t : Ty) (r : Rnd) (vd va vb : BitVec 8)
  | vsub (h : VHead) (t : Ty) (r : Rnd) (vd va vb : BitVec 8)
  | vmul (h : VHead) (t : Ty) (r : Rnd) (vd va vb : BitVec 8)
  | vfma (h : VHead) (t : Ty) (r : Rnd) (vd va vb vc : BitVec 8)
  | vfms (h : VHead) (t : Ty) (r : Rnd) (vd va vb vc : BitVec 8)
  | vfnma (h : VHead) (t : Ty) (r : Rnd) (vd va vb vc : BitVec 8)
  | vmin (h : VHead) (t : Ty) (vd va vb : BitVec 8) | vmax (h : VHead) (t : Ty) (vd va vb : BitVec 8)
  | vabs (h : VHead) (t : Ty) (vd va : BitVec 8) | vneg (h : VHead) (t : Ty) (vd va : BitVec 8)
  | vcopysign (h : VHead) (t : Ty) (vd va vb : BitVec 8)
  | vdiv (h : VHead) (t : Ty) (r : Rnd) (vd va vb : BitVec 8)
  | vsqrt (h : VHead) (t : Ty) (r : Rnd) (vd va : BitVec 8)
  | vrcp (h : VHead) (t : Ty) (r : Rnd) (vd va : BitVec 8) | vrsq (h : VHead) (t : Ty) (r : Rnd) (vd va : BitVec 8)
  | vexp2 (h : VHead) (t : Ty) (r : Rnd) (vd va : BitVec 8) | vlog2 (h : VHead) (t : Ty) (r : Rnd) (vd va : BitVec 8)
  | vsin (h : VHead) (t : Ty) (r : Rnd) (vd va : BitVec 8) | vcos (h : VHead) (t : Ty) (r : Rnd) (vd va : BitVec 8)
  | vtanh (h : VHead) (t : Ty) (r : Rnd) (vd va : BitVec 8)
  | viadd (h : VHead) (t : Ty) (sat : Bool) (vd va vb : BitVec 8)
  | visub (h : VHead) (t : Ty) (sat : Bool) (vd va vb : BitVec 8)
  | vimul (h : VHead) (t : Ty) (vd va vb : BitVec 8) | vimulh (h : VHead) (t : Ty) (vd va vb : BitVec 8)
  | vimin (h : VHead) (t : Ty) (vd va vb : BitVec 8) | vimax (h : VHead) (t : Ty) (vd va vb : BitVec 8)
  | vand (h : VHead) (t : Ty) (vd va vb : BitVec 8) | vor (h : VHead) (t : Ty) (vd va vb : BitVec 8)
  | vxor (h : VHead) (t : Ty) (vd va vb : BitVec 8) | vnot (h : VHead) (t : Ty) (vd va : BitVec 8)
  | vshlImm (h : VHead) (t : Ty) (vd va n : BitVec 8) | vshlVb (h : VHead) (t : Ty) (vd va vb : BitVec 8)
  | vshrImm (h : VHead) (t : Ty) (vd va n : BitVec 8) | vshrVb (h : VHead) (t : Ty) (vd va vb : BitVec 8)
  | vsarImm (h : VHead) (t : Ty) (vd va n : BitVec 8) | vsarVb (h : VHead) (t : Ty) (vd va vb : BitVec 8)
  | vbext (h : VHead) (t : Ty) (vd va : BitVec 8) (pos : BitVec 5) (len1 : BitVec 3)
  | vfsh (h : VHead) (t : Ty) (vd va vb n : BitVec 8)
  | vpopc (h : VHead) (t : Ty) (vd va : BitVec 8) | vclz (h : VHead) (t : Ty) (vd va : BitVec 8)
  | vsatn (h : VHead) (t u : Ty) (vd va : BitVec 8)
  | vcmp (cc : VcmpCc) (h : VHead) (t : Ty) (md : BitVec 4) (va vb : BitVec 8)
  | vsel (h : VHead) (vd va vb : BitVec 8) (mc : BitVec 4)
  -- masks (R209); no lane mask, no type
  | mand (cl : BitVec 4) (md ma mb : BitVec 4) | mor (cl : BitVec 4) (md ma mb : BitVec 4)
  | mxor (cl : BitVec 4) (md ma mb : BitVec 4) | mnot (cl : BitVec 4) (md ma : BitVec 4)
  | mpopc (cl : BitVec 4) (md ma : BitVec 4) | mfirst (cl : BitVec 4) (md ma : BitVec 4)
  | mset (cl : BitVec 4) (md : BitVec 4) (code : BitVec 8)
  -- conversion and quantisation (R188 to R194)
  | vcvt (h : VHead) (t u : Ty) (r : Rnd) (vd va : BitVec 8)
  | vpack (h : VHead) (t : Ty) (vd va vb : BitVec 8)
  | vunpack (h : VHead) (t : Ty) (hi : Bool) (vd va : BitVec 8)
  | vscale (h : VHead) (t q : Ty) (vd va : BitVec 8)
  | vquant (h : VHead) (t q : Ty) (r : Rnd) (vd va vb : BitVec 8)
  | vdeq (h : VHead) (t q : Ty) (r : Rnd) (vd va vb : BitVec 8)
  -- V slot: data movement (spec/08)
  | vld (h : VHead) (vd : BitVec 8) (ga : GReg) (off : BitVec 8)
  | vst (h : VHead) (vd : BitVec 8) (ga : GReg) (off : BitVec 8)
  | vlds (h : VHead) (vd : BitVec 8) (ga gb : GReg) | vsts (h : VHead) (vd : BitVec 8) (ga gb : GReg)
  | vgather (h : VHead) (vd : BitVec 8) (ga : GReg) (vb : BitVec 8)
  | vscatter (h : VHead) (vd : BitVec 8) (ga : GReg) (vb : BitVec 8)
  | vldb (h : VHead) (vd : BitVec 8) (ga : GReg)
  | vrget (h : VHead) (vd va vb : BitVec 8) | vrput (h : VHead) (vd va vb : BitVec 8)
  | vcmprSt (h : VHead) (t : Ty) (nf : Bool) (vd : BitVec 8) (ga gb : GReg)
  | vexpdLd (h : VHead) (t : Ty) (vd : BitVec 8) (ga : GReg)
  | vqpop (h : VHead) (vd : BitVec 8) (ga : GReg)
  | vqpush (h : VHead) (t : Ty) (close : Bool) (vd : BitVec 8) (ga gb : GReg)
  | vperm (h : VHead) (vd va vb : BitVec 8)
  | vshuf (h : VHead) (p : ShufPat) (vd va vb : BitVec 8)
  | vrotl (h : VHead) (vd va : BitVec 8) (n : BitVec 7)
  | vxcl (h : VHead) (vd va : BitVec 8) (gb : GReg)
  | vred (h : VHead) (op : RedOp) (t : Ty) (r : Rnd) (vd va : BitVec 8)
  | vargmax (h : VHead) (t : Ty) (vd va : BitVec 8)
  | vscan (h : VHead) (op : ScanOp) (t : Ty) (r : Rnd) (vd va : BitVec 8)
  | viota (h : VHead) (vd : BitVec 8)
  | vmovs (h : VHead) (vd : BitVec 8) (gb : GReg) | vbcast (h : VHead) (vd va : BitVec 8) (gb : GReg)
  | vzero (h : VHead) (vd : BitVec 8)
  | kset (cl : BitVec 4) (kd : BitVec 3) (gb : GReg) (e : BitVec 8)
  -- X slot, MX (spec/09)
  | mbatLd (pg : PReg) (bat : Bool) (src : ASel) (t : Ty) (form : BatForm)
  | mbatSel (pg : PReg) (bat : Bool)
  | mma (pg : PReg) (ac : BitVec 4) (bat : Bool) (src : ASel) (rows : BitVec 8) (ta tb : Ty) (set : Bool)
  | macClr (pg : PReg) (ac : BitVec 4)
  | macRd (pg : PReg) (ac : BitVec 4) (dst : DSel) (rows : BitVec 8) (t : Ty) (r : Rnd)
  | macRdq (pg : PReg) (ac : BitVec 4) (dst : DSel) (rows : BitVec 8) (q : Ty) (r : Rnd) (sc : Bool)
  | mrows (pg : PReg) (ac : BitVec 4) (mask : BitVec 16)
  | mscale (pg : PReg) (bat : Bool) (src : ASel)
  | mstat (pg : PReg) (ac : BitVec 4) (vd : BitVec 7)
  | mwait (pg : PReg) (ac : BitVec 4)
  -- X slot, EN: engines (spec/11)
  | dxCopy (pg : PReg) (cf : BitVec 6) (ga gb gc : GReg) | dxPat (pg : PReg) (cf : BitVec 6) (ga gb gc : GReg)
  | dxGat (pg : PReg) (cf : BitVec 6) (ga gb gc : GReg) (fsh : BitVec 5) (n : BitVec 9)
  | dxSct (pg : PReg) (cf : BitVec 6) (ga gb gc : GReg) (fsh : BitVec 5) (n : BitVec 9)
  | dxStream (pg : PReg) (cf : BitVec 6) (ga gb : GReg) (sp : BitVec 2) (bg8 : Bool)
  | dxDrain (pg : PReg)
  | rst (pg : PReg) (cf : BitVec 6) (ga gb gc : GReg) | rld (pg : PReg) (cf : BitVec 6) (ga gb gc : GReg)
  | rldIq (pg : PReg) (cf : BitVec 6) (ga gb gc : GReg)
  | ramo (pg : PReg) (cf : BitVec 6) (ga gb gc : GReg) (op : RamoOp) (wide : Bool)
  | rcfAdd (pg : PReg) (cf : BitVec 6) (ga gb : GReg)
  | cfAdd (pg : PReg) (cf : BitVec 6) (imm : BitVec 32)
  | fenceCore (pg : PReg) | fencePkg (pg : PReg) | fenceDom (pg : PReg)
  | fenceF (pg : PReg) (cf : BitVec 6) (ga gb : GReg)
  -- X slot, EN: Kiln, configuration, privileged (spec/12)
  | kilnAdmit (pg : PReg) (ga : GReg)
  | kilnStep (pg : PReg) (iq : BitVec 4) (inst : BitVec 3)
  | kilnRet (pg : PReg) (cf : BitVec 6) (ga gb : GReg) (inst : BitVec 3)
  | kilnRd (pg : PReg) (ga gb : GReg) | kilnCancel (pg : PReg) (ga : GReg) | kilnEvict (pg : PReg) (ga : GReg)
  | kilnAbort (pg : PReg) (ga : GReg) (fail all : Bool)
  | cfgLoad (pg : PReg) (ga gb gc : GReg) | cfgCommit (pg : PReg) (ga : GReg) (start : Bool)
  | cfgAbort (pg : PReg) (ga : GReg) | cfgTok (pg : PReg) (ga : GReg)
  | segSet (pg : PReg) (n : BitVec 4) (ga gb : GReg)
  | winSet (pg : PReg) (w : BitVec 8) (ga gb gc : GReg) | winRevoke (pg : PReg) (w : BitVec 8)
  | circBind (pg : PReg) (ga : GReg) | circBindRel (pg : PReg) (ga : GReg)
  | eventPop (pg : PReg) (ga : GReg) | logRd (pg : PReg) (ga gb : GReg)
  | dbgCtlHalt (pg : PReg) (ga : GReg) | dbgCtlHaltq (pg : PReg) (ga : GReg) | dbgCtlRun (pg : PReg) (ga : GReg)
  | dbgCtlStep (pg : PReg) (ga : GReg) | dbgCtlResume (pg : PReg) (ga : GReg) | dbgCtlSkip (pg : PReg) (ga : GReg)
  | dbgCtlAbort (pg : PReg) (ga : GReg)
  -- events of the matrix array, the engines, the Kiln, the configuration unit and the debugger (spec/06, 09, 11, 12, 18)
  | idleWake (h : Nat)
  | batFillComplete (c i : Nat) | mmaPassComplete (c i : Nat) | accReadComplete (c i : Nat)
  | dxDrainSatisfied (c i : Nat)
  | rldReplyTile (c i : Nat)
  | engineCommandComplete (c i : Nat)
  | kilnFormCharge | chargeDelivery (inst : BitVec 3) | kilnReturn | chargeAbortSettle
  | tokenPass (c s : Nat) | coreCommit (c : Nat)
  | windowRevokeComplete (w : Nat)
  | haltedStageResumes (c : Nat)
  -- queue, firing and trap events (spec/10, 15, 18)
  | entryArrives (c iq : Nat) (ext : Option (Entry × Option Nat)) | freeSlotNotice (c oq n : Nat) (ext : Option Bool)
  | firingGrant (c : Nat) | passThrough (c : Nat) | firingWatchdog (c : Nat)
  | discardRemoval (c s : Nat) | abortCe (c s : Nat)
  | interrupt (h : Nat) | cyclesCompare
  | configSpaceWrite (h : Nat) (pa : Addr) (v : Word) | cfgStatusRead (h c : Nat) (d : GReg) | scrub (word : Nat)
  -- memory packets at their target and responses at their requester (spec/11 R265, 17 R384)
  | write (circ : Nat) (p : Packet) | read (circ : Nat) (p : Packet) | atomic (circ : Nat) (p : Packet)
  | flag (circ : Nat) (p : Packet) | fence (circ : Nat) (p : Packet) | kret (circ : Nat) (p : Packet)
  | probe (circ : Nat) (p : Packet)
  | resp (circ : Nat) (p : Packet) | data (circ : Nat) (p : Packet) | probeAns (circ : Nat) (p : Packet)
  -- link layer (spec/17)
  | ack (link lseq : Nat) | nak (link lseq : Nat)
  | retrain (link : Nat) | retrainSuccess (link : Nat) | retrainTimeout (link : Nat)
  | identityRecord (link : Nat) (r : SecInput)
  | relayForward (circ : Nat) (f : RelayFlit)
  -- CONTROL messages (spec/19 Table 19.10)
  | img (src : ImgSource) (m : CtlMsg) | imgack (link : Nat) (m : CtlMsg) | imgnak (link : Nat) (m : CtlMsg)
  | keyx (link : Nat) (m : CtlMsg) | fail (link : Nat) (m : CtlMsg) | close (link : Nat) (m : CtlMsg)
  | abort (link : Nat) (m : CtlMsg) | pkgdown (link : Nat) (m : CtlMsg)
  -- package (spec/18 R409, spec/20)
  | forcedReset (scope : ResetScope) | packageReset (cause : ResetCause)
  | managementFrame (bytes : Option (List Byte))
  | status | temp | power | pcap (x : I3cWrite) | idleen (q : BitVec 4) | i3cReset | off
  | quarterIdle (q : BitVec 2) | quarterWake (q : BitVec 2)
  | thermalTrip (q : BitVec 3) (t : BitVec 12) | telemetryRewrite
  | flitSlot (link : Nat) | crcFailure (x : FlitIn) | throttling (q : BitVec 2) (on : Bool)
  deriving DecidableEq, Repr

end Sys2Proof
end

