-- ==== Sys2Proof/Machine/State.lean ====
section
/-! DEFINITION. The state of one JQ880 package as plain data (spec/01 and the chapters each field cites), the reasons
a step can stop, and the state after package reset. -/

namespace Sys2Proof.Machine

/-- Sparse data by key: strictly rising keys, no entry equal to what an unlisted key reads as. -/
abbrev Store (α : Type) := List (Nat × α)

/-- One hardware loop level (R32, Table 1.9). -/
structure Loop where
  len   : BitVec 12
  count : BitVec 32
  start : Addr
  deriving DecidableEq, Repr

/-- One of the four streams of a split stage (R44, R162): its banks and its own place in the code. `since` is the step at which
the bundle at `pc` became the stream's next (R161). -/
structure Stream where
  g      : Store Word
  p      : Store Bool
  loops  : Store Loop
  pc     : Addr
  since  : Nat
  joined : Bool
  deriving DecidableEq, Repr

/-- A stage's scalar context, or a hub core's one set (R39). Keys of `k` are 8 x cluster + j. -/
structure Ctx where
  g         : Store Word
  p         : Store Bool
  k         : Store (BitVec 9)
  loops     : Store Loop
  rmode     : BitVec 3
  sat       : Bool
  fireDesc  : Word
  fireLimit : BitVec 32
  fireCnt   : BitVec 32
  /-- the four streams while the stage is in split mode (R44) -/
  split     : Option (Store Stream)
  deriving DecidableEq, Repr

/-- Stage states (Table 15.1). -/
inductive StageState where
  | none | resident | eligible | firing | halted
  deriving DecidableEq, Repr

/-- A rectangle of cores (R276). -/
structure Region where
  x : Nat
  y : Nat
  w : Nat
  h : Nat
  deriving DecidableEq, Repr

/-- What a stage's image declares and how far its firings have come (R40, R337, R343, R344, Table 19.7). -/
structure Stage where
  state      : StageState
  prio       : BitVec 3
  entry      : BitVec 12
  marker     : Option (BitVec 12)
  cbase      : Nat
  nbun       : Nat
  vlo        : BitVec 8
  vhi        : BitVec 8
  masks      : BitVec 16
  accs       : BitVec 16
  bats       : BitVec 2
  keep       : BitVec 8
  inRate     : Store Nat
  outRate    : Store Nat
  inst       : Option (BitVec 3)
  instPkg    : Byte
  group      : Region
  /-- resume point of fire.next, a bundle index (R159) -/
  resume     : Option (BitVec 12)
  /-- charge of the previous firing; none after a load (R43) -/
  prevCharge : Option (BitVec 16)
  /-- iq at whose head the marker of a running marker firing stands (R240) -/
  markerPort : Option (BitVec 4)
  /-- watchdog count (R161, R346) -/
  watch      : Nat
  /-- grants to other stages while ready (R344) -/
  aging      : Nat
  /-- charges in discard (R400) -/
  discard    : List (BitVec 16)
  /-- cause and resume point of the halt (R392, R398) -/
  haltCause  : BitVec 8
  haltPc     : Addr
  haltStream : Nat
  /-- bar.grp of this copy since the load: arrivals, barriers at which every core of the group has arrived, and barriers passed
  (R165, R347) -/
  barArrived : Nat
  barFree    : Nat
  barDone    : Nat
  /-- an error among the commands issued since the last dx.drain (R262) -/
  drainErr   : Bool
  /-- the reconfiguration token has been passed (R406) -/
  passed     : Bool
  deriving DecidableEq, Repr

/-- A stage image in the shadow configuration of a core (R284, Table 19.7). -/
structure Shadow where
  stage   : Stage
  limit   : BitVec 32
  bundles : List (BitVec 256)
  data    : List Byte
  dataOff : Nat
  bssLen  : Nat
  owner   : BitVec 4
  world   : Bool
  segs    : List (Nat × Word)
  caps    : Store Nat
  routes  : List (BitVec 32)
  /-- the rectangle of the STAGE section that gave it, none after a cfg.load (R347) -/
  group   : Option Region
  deriving DecidableEq, Repr

/-- What an inbound port is bound to (R21, R267, R359, R376). -/
inductive InBind where
  | unbound
  | route (core oq : Nat)
  | circ (id : Nat)
  | kiln (inst : Nat)
  | reply (core : Nat)
  deriving DecidableEq, Repr

/-- What an outbound port is bound to (R21, R376). -/
inductive OutBind where
  | unbound
  | route (core iq : Nat)
  | circ (id : Nat)
  deriving DecidableEq, Repr

/-- An inbound port (Table 1.2). `coming` holds entries pushed and not yet present (R236); `held` those that reached
a boundary port behind its token (R407). A charge whose CB has come and whose CE has not is open at the port; a token
may be due there, and one may stand there (R405). `owed` counts the tokens of a circuit's port that have taken their slot, and whose
credit the next free-slot notice pays (R405). -/
structure IqPort where
  bind   : InBind
  cap    : Nat
  owner  : Option Nat
  q      : List Entry
  beat   : Nat
  word   : Nat
  popped : Nat
  failed : Bool
  coming : List Entry
  held   : List Entry
  openCh : Bool
  tokenDue : Bool
  behind : Bool
  owed   : Nat
  /-- charges whose CE has been removed here, no other entry of theirs since (R400) -/
  ceSeen : List (BitVec 16)
  deriving DecidableEq, Repr

/-- A tile being assembled at an outbound port (R237, R244, R214): its head without ROWS, and the words written. -/
structure OpenTile where
  byV   : Bool
  head  : Beat
  words : List Word
  deriving DecidableEq, Repr

/-- An outbound port (Table 1.2). `notices` counts free-slot notices on their way (R338). -/
structure OqPort where
  bind    : OutBind
  credits : Nat
  owner   : Option Nat
  cur     : Option OpenTile
  pushed  : Nat
  failed  : Bool
  notices : Nat
  /-- tiles of pending accumulator reads (none) and the entries closed after them, in program order (R230) -/
  outq    : List (Option Entry)
  deriving DecidableEq, Repr

/-- A stream port (Table 1.2, R261): the stream's bytes lie at `base` in the plain form, or striped over eight bank
groups; the dx.stream that opened it, whose number among the core's commands is `order` (R262). `old` holds the bytes of the
source range as they stood at its commit (R261). -/
structure StreamPort where
  isOpen  : Bool
  base    : Nat
  striped : Bool
  len     : Nat
  left    : Nat
  flag    : Nat
  stage   : Nat
  pc      : Addr
  charge  : BitVec 16
  order   : Nat
  old     : Store Byte
  deriving DecidableEq, Repr

/-- A counting flag (R22). -/
structure Flag where
  value     : BitVec 32
  threshold : BitVec 31
  err       : Bool
  owner     : Option Nat
  deriving DecidableEq, Repr

/-- An entry of an engine result queue (R24, R249). -/
structure REntry where
  id    : Nat
  stage : Nat
  val   : Option Word
  deriving DecidableEq, Repr

/-- Where a result goes: core, engine, entry (R274). -/
structure RqRef where
  core : Nat
  eng  : Nat
  id   : Nat
  deriving DecidableEq, Repr

/-- A weight bank (R19, R220). The plain image holds weight (k, n) where Table 9.3 puts it; scale q is bits
[12q+11:12q]. -/
structure Bat where
  w    : BitVec 98304
  sc   : BitVec 9216
  fmt  : BitVec 4
  werr : Bool
  serr : Bool
  deriving DecidableEq, Repr

/-- Where an accumulator read delivers (R229). -/
inductive AccDst where
  | vreg (n : Nat)
  | oq (n : Nat)
  | mem (pa : Nat)
  deriving DecidableEq, Repr

/-- An operation that has entered the matrix array and has not completed (R99, R230). `groups` are the bank groups that
its slice stream covers, as physical address ÷ 8 MiB (R225). -/
inductive ArrOp where
  /-- weight bytes, read at issue (R224, R331), with their uncorrectable-error flag -/
  | fillW (bat : Nat) (form : BatForm) (bytes : List Byte) (err : Bool) (groups : List Nat)
  /-- scale bytes, read at issue, with their uncorrectable-error flag -/
  | fillS (bat : Nat) (blocks : Nat) (bytes : List Byte) (err : Bool)
  /-- rows captured at issue, their scales and source poison -/
  | pass (tile bat m : Nat) (set : Bool) (ta tb : Ty) (rows : List (BitVec 1024)) (scales : List (BitVec 12))
      (poison : BitVec 16) (groups : List Nat)
  | read (tile : Nat) (dst : AccDst) (m : Nat) (t : Ty) (mode : BitVec 3) (quant sc : Bool) (stage : Nat)
      (charge : BitVec 16)
  deriving DecidableEq, Repr

/-- A packet of a remote command that awaits its response (R255, R384). -/
structure OutPkt where
  tag : BitVec 32
  off : Nat
  len : Nat
  deriving DecidableEq, Repr

/-- Kinds of remote command (Table 11.1; kiln.ret to another package, R279). -/
inductive RemKind where
  | rst | rld | rldIq | ramo | rcfAdd | fenceF | kret
  deriving DecidableEq, Repr

/-- A remote command and how far its packets have come (R264 to R270). -/
structure Remote where
  kind    : RemKind
  pkg     : Byte
  da      : Word
  len     : Nat
  pa      : Nat
  iqCore  : Nat
  iqPort  : Nat
  op      : RamoOp
  wide    : Bool
  opnd    : Word
  cmp     : Word
  cf      : Nat
  inst    : Nat
  sent    : Nat
  out     : List OutPkt
  /-- lowest failing offset and its answer code (R270) -/
  bad     : Option (Nat × Byte)
  /-- offsets of refused or errored packets of rld.iq, and the bytes that arrived (R267) -/
  badOffs : List (Nat × Nat)
  reply   : Store Byte
  given   : Nat
  deriving DecidableEq, Repr

/-- What an engine command does (spec/11, spec/12). -/
inductive EngOp where
  | copy (dst src len : Nat)
  | pat (dst src : Int) (elem : Nat) (dims : List (Nat × Int × Int))
  | frames (moves : List (Nat × Nat)) (size : Nat)
  | count (n : Nat)
  | addFlag (n : BitVec 32)
  | drain (rq : RqRef)
  | remote (r : Remote)
  | kret (inst : Nat) (total left : Nat)
  deriving DecidableEq, Repr

/-- A committed engine command that has not completed (R255). -/
structure EngCmd where
  id     : Nat
  eng    : Nat
  stage  : Nat
  pc     : Addr
  charge : BitVec 16
  flag   : Option Nat
  err    : Bool
  op     : EngOp
  deriving DecidableEq, Repr

/-- Privilege levels of a hub core (Table 1.12). -/
inductive Priv where
  | u | s | m
  deriving DecidableEq, Repr

/-- One bank of trap registers (R35). -/
structure TrapBank where
  cause : Word
  pc    : Addr
  vec   : Addr
  pie   : Bool
  ppriv : Priv
  deriving DecidableEq, Repr

/-- What only a hub core holds (R35 to R37, R152, R156). -/
structure Hub where
  priv    : Priv
  ie      : Bool
  bankS   : TrapBank
  bankM   : TrapBank
  irqEn   : BitVec 4
  idle    : Bool
  stopped : Bool
  inReset : Bool
  deriving DecidableEq, Repr

/-- A core, compute or hub (Table 1.1). Keys: `v` 256c + r, `m` 16c + j, `acc` 1536t + 96i + n. -/
structure Core where
  ctxs      : Store Ctx
  stages    : Store Stage
  /-- the stage FIRING, if any; a hub core's system stage is always stage 0 -/
  firing    : Option Nat
  pc        : Addr
  v         : Store VReg
  m         : Store Mask
  acc       : Store F128
  /-- bits that the debugger has stored into an accumulator entry, which no entry may hold until its other half is stored too (R57,
  R309) -/
  accRaw    : Store F128
  poison    : Store (BitVec 16)
  bats      : Store Bat
  activeBat : Bool
  arr       : List ArrOp
  iq        : Store IqPort
  oq        : Store OqPort
  sp        : Store StreamPort
  cf        : Store Flag
  rq        : Store (List REntry)
  eng       : List EngCmd
  nextId    : Nat
  seg       : Store Word
  ctxOwner  : BitVec 4
  ctxWorld  : Bool
  trapCause : Word
  trapPc    : Addr
  istore    : Store (BitVec 256)
  shadow    : Store Shadow
  lastGrant : Nat
  /-- sequencer halted by dbg.ctl; one more bundle allowed by .step; entries of .haltq to fill -/
  halted    : Bool
  stepOne   : Option RqRef
  haltq     : List RqRef
  cfgRefused : Bool
  failed    : Bool
  /-- the .resume and .skip actions that wait for another firing to close (R398): stage, skip, entry -/
  resuming  : List (Nat × Bool × RqRef)
  hub       : Hub
  deriving DecidableEq, Repr

/-- Record states of the Kiln (Table 16.3). -/
inductive RecState where
  | free | pending | active | inflight | done | evicted | failed
  deriving DecidableEq, Repr

/-- A request record (Table 16.2). -/
structure Rec where
  state    : RecState
  owner    : BitVec 4
  world    : Bool
  dprio    : Nat
  eprio    : Nat
  cnmark   : Bool
  evmark   : Bool
  evd      : Bool
  inst     : Nat
  pfdone   : Bool
  wait     : Nat
  hostid   : BitVec 32
  slot     : Option Nat
  stopt    : Nat
  position : Nat
  reason   : Nat
  fault    : Nat
  inrows   : Nat
  plen     : Nat
  pcons    : Nat
  /-- the charge in flight; the record shows its low 16 bits -/
  infchg   : BitVec 32
  maxnew   : Nat
  gen      : Nat
  evcnt    : Nat
  pages    : List Nat
  prompt   : Nat
  sink     : Nat
  seq      : BitVec 32
  deriving DecidableEq, Repr

/-- A charge in flight (R350, R362). -/
structure Charge where
  num  : BitVec 32
  left : Nat
  deriving DecidableEq, Repr

/-- A model instance: parameters of Table 16.1 and what the Kiln keeps for it (R353). -/
structure Inst where
  rmax     : Nat
  d        : Nat
  chunk    : Nat
  slots    : Nat
  pool     : Nat
  pmax     : Nat
  maxpos   : Nat
  evlim    : Nat
  plbase   : Nat
  stop     : List (List (BitVec 32))
  /-- KPORT: whether an image gives one, its core and iq -/
  placed   : Bool
  kcore    : Nat
  kiq      : Nat
  next     : BitVec 32
  charges  : List Charge
  lastslot : Int
  seq      : BitVec 32
  credits  : Nat
  out      : List Entry
  deriving DecidableEq, Repr

/-- Commands that have reached the Kiln and wait their turn (R283). -/
inductive KilnCmd where
  | step (inst : Nat) (rq : RqRef)
  | ret (inst : Nat) (entry : Word) (src : Nat × Nat)
  | retPkt (inst : Nat) (entries : List Word) (circ : Nat) (tag : BitVec 32) (bad : Bool)
  deriving DecidableEq, Repr

/-- The Kiln (spec/16). `aborts`: instance, charge (low 16 bits; none for every charge in flight), FAIL mode. -/
structure Kiln where
  insts  : Store Inst
  recs   : Store Rec
  queue  : List KilnCmd
  aborts : List (Nat × Option (BitVec 16) × Bool)
  deriving DecidableEq, Repr

/-- Window states (Table 13.7). -/
inductive WinState where
  | free | isOpen | revoking
  deriving DecidableEq, Repr

/-- A window (Table 13.7) and the revoke in progress (R316). -/
structure Window where
  state  : WinState
  base   : BitVec 24
  size   : BitVec 24
  owner  : BitVec 4
  world  : Bool
  rd     : Bool
  wr     : Bool
  at_    : Bool
  queued : BitVec 32
  probes : List Nat
  rq     : Option RqRef
  deriving DecidableEq, Repr

/-- Circuit states (R380). -/
inductive CircState where
  | free | isOpen | failed
  deriving DecidableEq, Repr

/-- A circuit at this package, keyed LINK x 16 + INDEX (Table 17.5, R380). A relay is two of these, the second the mirror
image on its outgoing link. -/
structure Circ where
  state   : CircState
  mirror  : Bool
  w0      : Word
  w1      : Word
  w2      : Word
  reason  : Nat
  sentCnt : Nat
  recvCnt : Nat
  /-- entries to send, and the number of the flit that carries the first beat of the oldest (R383) -/
  txq     : List Entry
  txBase  : Nat
  credOut : Nat
  /-- numbered flits accepted here, unsealed, whose entry or packet is not complete (R373, R383) -/
  rxBuf   : List (Nat × RelayFlit)
  mrsp    : List Packet
  mrspData : Bool
  /-- flits that the relay holds for this side's link (R385) -/
  relay   : List RelayFlit
  probes  : List (BitVec 32)
  reqData : Option Packet
  deriving DecidableEq, Repr

/-- Link states (Table 17.4). -/
inductive LinkState where
  | down | training | up | retrain
  deriving DecidableEq, Repr

/-- A Pleak link (R370 to R375, R416 to R418). -/
structure Link where
  state   : LinkState
  txSeq   : BitVec 16
  rxSeq   : BitVec 16
  replay  : List Flit
  /-- flits of the replay buffer still to be sent again after a NAK or a retrain -/
  resend  : Nat
  ackDue  : Bool
  nakDue  : Bool
  nakOut  : Bool
  nakSeq  : BitVec 16
  nakName : BitVec 16
  nakCnt  : Nat
  ctlq    : List (Byte × CtlMsg)
  ctlPos  : Nat
  slot    : Nat
  rrNext  : Nat
  wire    : Option Flit
  peer    : Option (BitVec 128 × BitVec 64 × BitVec 512)
  /-- package number of the peer, from the PACKAGES section of the accepted image (R425) -/
  peerPkg : Option Byte
  k0      : Nat
  xpriv   : Nat
  nonce   : BitVec 128
  /-- the peer's NONCE, once the head of its record has come (R416) -/
  peerNonce : Option (BitVec 128)
  /-- flits of CONTROL circuit 0 sent and received (R387, R418) -/
  ctlSent : Nat
  ctlRecv : Nat
  /-- payloads of CTL flits accepted whose message is not complete (R373) -/
  ctlBuf  : List Beat
  deriving DecidableEq, Repr

/-- A notice (Table 18.4). -/
structure Notice where
  w0 : Word
  w1 : Word
  w2 : Word
  w3 : Word
  deriving DecidableEq, Repr

/-- A reconfiguration token at work on a region (R405, R406): the replaced stages (core, stage), the cores that have yet to
commit, the cores that had a stage beyond RESIDENT when it was placed, and the routes that committed cores have asked for. -/
structure Token where
  region  : Region
  rq      : RqRef
  stages  : List (Nat × Nat)
  todo    : List Nat
  started : List Nat
  routes  : List (Nat × BitVec 32)
  deriving DecidableEq, Repr

/-- A command of the configuration unit that waits its turn (R288), with the bytes it read at its commit; `world`: its caller
acts on secure resources (R273); `group`: the rectangle of the STAGE section of a domain image. `take` is the commit of an image's
region (R425, R430). -/
inductive CfgCmd where
  | load (core stage : Nat) (bytes : List Byte) (world : Bool) (group : Option Region) (rq : RqRef)
  | commit (region : Region) (start world : Bool) (rq : RqRef)
  | drop (region : Region) (world : Bool) (rq : RqRef)
  | tok (region : Region) (world : Bool) (rq : RqRef)
  | take (region : Region)
  deriving DecidableEq, Repr

/-- An answer over I3C (R434). -/
inductive I3cAnswer where
  | none | ack | nack
  | word (w : Word)
  deriving DecidableEq, Repr

/-- Power state of the package and its quarters, and what I3C reports and sets (R434 to R440). -/
structure Power where
  off       : Bool
  idle      : BitVec 4
  throt     : BitVec 4
  thermtrip : Bool
  bootfail  : Bool
  temps     : Store (BitVec 12)
  watts     : BitVec 16
  pcap      : BitVec 16
  idleen    : BitVec 4
  /-- consecutive quiet clk of each quarter that IDLEEN permits (R435) -/
  quiet     : Store Nat
  telSeq    : BitVec 32
  rxdrop    : BitVec 32
  /-- a quarter has been throttled since the last rewrite of the telemetry page (R440) -/
  throttled : Bool
  /-- words of the telemetry page that a rewrite has still to store: offset and value (R440) -/
  telLeft   : List (Nat × Word)
  i3cOut    : I3cAnswer
  deriving DecidableEq, Repr

/-- The security block, the flash it boots from and the domain image state (spec/19). -/
structure Boot where
  flashA   : List Byte
  flashB   : List Byte
  rollback : BitVec 32
  fwdig    : BitVec 512
  rootKey  : BitVec 456
  domKeys  : Store (BitVec 456)
  domain   : Option (BitVec 32)
  epoch    : Option (BitVec 32)
  /-- the images being received, by the link that brings them (96: the management port), and the last one accepted (R425) -/
  rx       : Store (List Byte)
  image    : List Byte
  /-- packages whose KEYX the application of the image waits for; the binds and loads are still to do (R425) -/
  awaits   : List Nat
  applying : Bool
  root     : Nat
  parent   : Nat
  /-- packages next down the tree that have not acknowledged the image (R425) -/
  waiting  : List Nat
  keySlots : Store Nat
  keyLoaded : Store Bool
  slotEpoch : Store Nat
  /-- own X448 private keys by peer package, and KEYX messages received: package, epoch, public key (R419) -/
  kexPriv  : Store Nat
  kexIn    : List (Nat × Nat × Nat)
  secPend  : Bool
  /-- the debug port is unlocked (R432) -/
  debugOpen : Bool
  /-- PKGDOWN reports: the package, the reporter; quarters of this package that have been reset; the packages declared failed
  (R429); the INSTANCE_LOST reports sent on the management port: DOMAIN, instance, package (R431) -/
  down     : List (Nat × Nat)
  quarters : BitVec 4
  failed   : List Nat
  lost     : List (BitVec 32 × Nat × Nat)
  draws    : Nat
  deriving DecidableEq, Repr

/-- Who moves next: an event or arrival, or a bundle of one core (and stream). -/
inductive Move where
  | event (i : Instr)
  | run (core stream : Nat)
  deriving DecidableEq, Repr

/-- The machine. Cores are keyed 0..287 (compute) and 512 + h (hub); memory is keyed by physical address and an
unlisted byte reads 0 (R45, R305). [DESIGN CHOICE, log 1] -/
structure State where
  cores   : Store Core
  mem     : List Host.Cell
  /-- bytes that an uncorrectable error of their check word holds, and the words that the scrubber has reported (R140, R305 to
  R307) -/
  eccBad  : List Nat
  eccSeen : List Nat
  cycles  : Word
  cycCmp  : Word
  cmpHit  : Bool
  pkgNo   : Byte
  logSeq  : BitVec 32
  notices : List Notice
  wins    : Store Window
  circs   : Store Circ
  links   : Store Link
  kiln    : Kiln
  tokens  : List Token
  cfgWait : List CfgCmd
  /-- the receive queue of the management port, and the count of frames it has taken (R433) -/
  mgmtRx  : List (List Byte)
  mgmtCnt : Nat
  power   : Power
  boot    : Boot
  nextTag : BitVec 32
  /-- the model's own: which core (and stream) runs the next bundle, what moves before it, the step count -/
  focus   : Nat
  stream  : Nat
  agenda  : List Move
  ticks   : Nat
  deriving DecidableEq, Repr

/-- Why the machine stops. [DEDUCED, log 49] -/
inductive Fault where
  /-- step: the package is OFF and nothing on the agenda restores it (R436). Safe: no agent runs. -/
  | poweredOff
  deriving DecidableEq, Repr

/-- Why a step has no meaning. -/
inductive Refusal where
  /-- exec: an arm that has no meaning yet. Safe. -/
  | notModelled (mnemonic : String)
  deriving DecidableEq, Repr

/-! ## Reset values (Table 1.13 and the tables named) -/

def Loop.reset : Loop := { len := 0, count := 0, start := 0 }

def Ctx.reset : Ctx :=
  { g := [], p := [], k := [], loops := [], rmode := 0, sat := false, fireDesc := 0, fireLimit := 0, fireCnt := 0,
    split := none }

def Stream.reset : Stream := { g := [], p := [], loops := [], pc := 0, since := 0, joined := false }

def Stage.reset : Stage :=
  { state := .none, prio := 0, entry := 0, marker := none, cbase := 0, nbun := 0, vlo := 255, vhi := 0,
    masks := 0, accs := 0, bats := 0, keep := 0, inRate := [], outRate := [], inst := none, instPkg := 0,
    group := { x := 0, y := 0, w := 0, h := 0 }, resume := none, prevCharge := none, markerPort := none,
    watch := 0, aging := 0, discard := [], haltCause := 0, haltPc := 0, haltStream := 0,
    barArrived := 0, barFree := 0, barDone := 0, drainErr := false, passed := false }

def IqPort.reset : IqPort :=
  { bind := .unbound, cap := 0, owner := none, q := [], beat := 0, word := 0, popped := 0, failed := false,
    coming := [], held := [], openCh := false, tokenDue := false, behind := false,
    owed := 0, ceSeen := [] }

def OqPort.reset : OqPort :=
  { bind := .unbound, credits := 0, owner := none, cur := none, pushed := 0, failed := false, notices := 0,
    outq := [] }

def StreamPort.reset : StreamPort :=
  { isOpen := false, base := 0, striped := false, len := 0, left := 0, flag := 0, stage := 0, pc := 0,
    charge := 0, order := 0, old := [] }

def Flag.reset : Flag := { value := 0, threshold := 0, err := false, owner := none }

def Bat.reset : Bat := { w := 0, sc := 0, fmt := 0, werr := false, serr := false }

/-- Boot entry of the hub cores with the flash ENTRY taken as 0 (R415 step 3; log 4). [DESIGN CHOICE, log 4] -/
def bootEntry : Addr := 0xF870100000#40

def TrapBank.reset : TrapBank := { cause := 0, pc := 0, vec := bootEntry, pie := false, ppriv := .u }

/-- [DESIGN CHOICE, log 5] -/
def Hub.reset : Hub :=
  { priv := .m, ie := false, bankS := TrapBank.reset, bankM := TrapBank.reset, irqEn := 0, idle := false,
    stopped := false, inReset := false }

/-- A core after package reset (Table 1.13); CORE.CTX is owner 0, secure; a hub core's PC is the boot entry.
[DESIGN CHOICE, log 5] -/
def Core.reset : Core :=
  { ctxs := [], stages := [], firing := none, pc := bootEntry, v := [], m := [], acc := [], accRaw := [],
    poison := [], bats := [], activeBat := false, arr := [], iq := [], oq := [], sp := [], cf := [], rq := [],
    eng := [], nextId := 0, seg := [], ctxOwner := 0, ctxWorld := true, trapCause := 0, trapPc := 0,
    istore := [], shadow := [], lastGrant := 0, halted := false, stepOne := none, haltq := [],
    cfgRefused := false, failed := false, resuming := [], hub := Hub.reset }

def Rec.reset : Rec :=
  { state := .free, owner := 0, world := false, dprio := 0, eprio := 0, cnmark := false, evmark := false,
    evd := false, inst := 0, pfdone := false, wait := 0, hostid := 0, slot := none, stopt := 0, position := 0,
    reason := 0, fault := 0, inrows := 0, plen := 0, pcons := 0, infchg := 0, maxnew := 0, gen := 0, evcnt := 0,
    pages := [], prompt := 0, sink := 0, seq := 0 }

/-- [DESIGN CHOICE, log 5] -/
def Inst.reset : Inst :=
  { rmax := 0, d := 0, chunk := 0, slots := 0, pool := 0, pmax := 0, maxpos := 0, evlim := 0, plbase := 0,
    stop := [], placed := false, kcore := 0, kiq := 0, next := 0, charges := [], lastslot := -1, seq := 0,
    credits := 0, out := [] }

def Window.reset : Window :=
  { state := .free, base := 0, size := 0, owner := 0, world := false, rd := false, wr := false, at_ := false,
    queued := 0, probes := [], rq := none }

def Circ.reset : Circ :=
  { state := .free, mirror := false, w0 := 0, w1 := 0, w2 := 0, reason := 0, sentCnt := 0, recvCnt := 0, txq := [], txBase := 0,
    credOut := 0, rxBuf := [], mrsp := [], mrspData := false, relay := [], probes := [], reqData := none }

/-- [DESIGN CHOICE, log 5] -/
def Link.reset : Link :=
  { state := .down, txSeq := 0, rxSeq := 0, replay := [], resend := 0, ackDue := false,
    nakDue := false, nakOut := false, nakSeq := 0, nakName := 0, nakCnt := 0, ctlq := [], ctlPos := 0, slot := 0, rrNext := 0,
    wire := none, peer := none, peerPkg := none, k0 := 0, xpriv := 0, nonce := 0, peerNonce := none,
    ctlSent := 0, ctlRecv := 0, ctlBuf := [] }

/-- [DESIGN CHOICE, log 5] -/
def Power.reset : Power :=
  { off := false, idle := 0, throt := 0, thermtrip := false, bootfail := false, temps := [], watts := 0,
    pcap := 0, idleen := 0, quiet := [], telSeq := 0, rxdrop := 0, throttled := false,
    telLeft := [], i3cOut := .none }

/-- [DESIGN CHOICE, log 5] -/
def Boot.reset : Boot :=
  { flashA := [], flashB := [], rollback := 0, fwdig := 0, rootKey := 0, domKeys := [], domain := none,
    epoch := none, rx := [], image := [], awaits := [], applying := false, root := 0, parent := 0, waiting := [],
    keySlots := [], keyLoaded := [], slotEpoch := [], kexPriv := [], kexIn := [],
    secPend := false, debugOpen := false, down := [], quarters := 0, failed := [], lost := [], draws := 0 }

/-- Hub core after package reset: its system stage, stage 0, is ELIGIBLE from boot (R349). -/
def Core.hubReset : Core := { Core.reset with stages := [(0, { Stage.reset with state := .eligible })] }

/-- The package right after reset, at step 3 of Table 19.2: hub cores 0..7 at the boot entry at level M with IE
clear, every compute core without a stage, memory zero. The focus is hub core 0.
[DESIGN CHOICE, log 4; DESIGN CHOICE, log 5] -/
def State.reset : State :=
  { cores := [(512, Core.hubReset), (513, Core.hubReset), (514, Core.hubReset), (515, Core.hubReset), (516, Core.hubReset),
      (517, Core.hubReset), (518, Core.hubReset), (519, Core.hubReset)]
    mem := [], eccBad := [], eccSeen := [], cycles := 0, cycCmp := 0, cmpHit := true, pkgNo := 0,
    logSeq := 0, notices := [], wins := [], circs := [], links := [],
    kiln := { insts := [], recs := [], queue := [], aborts := [] }, tokens := [], cfgWait := [], mgmtRx := [], mgmtCnt := 0,
    power := Power.reset, boot := Boot.reset, nextTag := 0, focus := 512, stream := 0, agenda := [], ticks := 0 }

end Sys2Proof.Machine
end

