-- ==== Sys2Proof/Machine/Store.lean ====
section
/-! DEFINITION. Sparse maps in one canonical form, byte strings, and the cutting of wide values into elements. -/

namespace Sys2Proof.Machine

/-! ## Sparse maps -/

/-- What key `k` reads as; `d` where nothing is listed. -/
def sget {α : Type} (d : α) : Store α → Nat → α
  | [], _ => d
  | (a, v) :: t, k => if a = k then v else sget d t k

/-- List a value at its place. -/
def sput {α : Type} (k : Nat) (v : α) : Store α → Store α
  | [] => [(k, v)]
  | (a, w) :: t => if k < a then (k, v) :: (a, w) :: t else if a = k then (k, v) :: t else (a, w) :: sput k v t

/-- Remove every entry of a key. -/
def sdel {α : Type} (k : Nat) : Store α → Store α
  | [] => []
  | (a, w) :: t => if a = k then sdel k t else (a, w) :: sdel k t

/-- Write; an entry equal to the default is not listed. -/
def sset {α : Type} [DecidableEq α] (d : α) (m : Store α) (k : Nat) (v : α) : Store α :=
  if v = d then sdel k m else sput k v m

/-- Change the value of a key. -/
def smod {α : Type} [DecidableEq α] (d : α) (m : Store α) (k : Nat) (f : α → α) : Store α := sset d m k (f (sget d m k))

/-- The keys rise strictly. -/
def srising {α : Type} : Store α → Bool
  | [] => true
  | [_] => true
  | (a, _) :: (b, w) :: t => decide (a < b) && srising ((b, w) :: t)

/-- The canonical form: keys strictly rising, no entry equal to the default. -/
def swf {α : Type} [DecidableEq α] (d : α) (m : Store α) : Bool := srising m && m.all fun e => decide (e.2 ≠ d)

/-! ## Elements of wide values -/

/-- Element i, of w bits, of a value (R14). -/
def elem (w i : Nat) {n : Nat} (x : BitVec n) : BitVec w := x.extractLsb' (w * i) w

/-- The value of N bits whose first n elements of w bits are `f 0`, `f 1`, ...; as a number. -/
def packNat (w : Nat) (f : Nat → BitVec w) : Nat → Nat
  | 0 => 0
  | n + 1 => packNat w f n + (f n).toNat <<< (w * n)

/-- The value of N bits with `f i` at element i for i < n, zero above. -/
def packN (N w n : Nat) (f : Nat → BitVec w) : BitVec N := BitVec.ofNat N (packNat w f n)

/-- Replace element i, of w bits, of a value. -/
def setElem {n : Nat} (w i : Nat) (x : BitVec n) (y : BitVec w) : BitVec n :=
  packN n w (n / w) fun j => if j = i then y else elem w j x

/-- A list of elements, lowest first. -/
def packList (N w : Nat) : List (BitVec w) → BitVec N
  | [] => 0
  | x :: t => (packList N w t <<< w) ||| x.setWidth N

/-- A field of a number: n bits from bit lo. -/
def fld (x lo n : Nat) : Nat := x >>> lo % 2 ^ n

/-- The bytes of a value, lowest first. -/
def bytesOf (n : Nat) {w : Nat} (x : BitVec w) : List Byte := (List.range n).map fun i => elem 8 i x

/-- The number that a list of bytes holds, lowest byte first. -/
def leNat : List Byte → Nat
  | [] => 0
  | b :: t => b.toNat + 256 * leNat t

/-- The first n bytes of a list from an offset, as a number. -/
def leAt (bs : List Byte) (off n : Nat) : Nat := leNat ((bs.drop off).take n)

/-- Take n items, filling with a value. -/
def takeFill {α : Type} (n : Nat) (d : α) (l : List α) : List α := (l ++ List.replicate (n - l.length) d).take n

/-- Upward division. -/
def ceilDiv (a b : Nat) : Nat := (a + b - 1) / b

/-- Replace the element at an index of a list. -/
def listSet {α : Type} (l : List α) (i : Nat) (a : α) : List α := l.set i a

/-- Sign of a number of w bits, as an integer. -/
def sInt {w : Nat} (x : BitVec w) : Int := x.toInt

end Sys2Proof.Machine
end

