-- ==== Sys2Proof/Machine/Types.lean ====
section
/-! DEFINITION. The codes of types, rounding modes and sub-operations (spec/02 Tables 2.1 and 2.6, spec/03 Tables 3.8 to
3.13), and which types each operation accepts. -/

namespace Sys2Proof

/-- Type code (Table 2.1). -/
def Ty.code : Ty → BitVec 4
  | .f32 => 0 | .bf16 => 1 | .f16 => 2 | .f8e4 => 3 | .f8e5 => 4 | .f4 => 5
  | .i32 => 6 | .n32 => 7 | .i16 => 8 | .n16 => 9 | .i8 => 10 | .n8 => 11

/-- The type of a code; 12..15 are reserved (R49). -/
def Ty.ofCode (c : BitVec 4) : Option Ty :=
  [Ty.f32, .bf16, .f16, .f8e4, .f8e5, .f4, .i32, .n32, .i16, .n16, .i8, .n8][c.toNat]?

/-- Element width in bits (Table 2.1). -/
def Ty.width : Ty → Nat
  | .f32 | .i32 | .n32 => 32
  | .bf16 | .f16 | .i16 | .n16 => 16
  | .f8e4 | .f8e5 | .i8 | .n8 => 8
  | .f4 => 4

/-- The integer types (R180). -/
def Ty.isInt : Ty → Bool
  | .i32 | .n32 | .i16 | .n16 | .i8 | .n8 => true
  | _ => false

/-- The signed integer types. -/
def Ty.signed : Ty → Bool
  | .i32 | .i16 | .i8 => true
  | _ => false

/-- f32, bf16 and f16: the types of vector floating-point arithmetic (R176). -/
def Ty.isVf : Ty → Bool
  | .f32 | .bf16 | .f16 => true
  | _ => false

/-- The quantised types (spec/07 R192). -/
def Ty.isQuant : Ty → Bool
  | .f8e4 | .f8e5 | .f4 | .i8 | .n8 => true
  | _ => false

/-- Whether a conversion from `u` into the floating-point format `t` is exact (Table 2.9). -/
def Ty.exactInto (u t : Ty) : Bool :=
  match u, t with
  | .f4, .f32 | .f4, .bf16 | .f4, .f16 | .f4, .f8e4 | .f4, .f8e5 => true
  | .f8e4, .f16 | .f8e4, .bf16 | .f8e4, .f32 => true
  | .f8e5, .f16 | .f8e5, .bf16 | .f8e5, .f32 => true
  | .f16, .f32 | .bf16, .f32 => true
  | .i8, .f32 | .n8, .f32 | .i16, .f32 | .n16, .f32 | .i8, .f16 | .n8, .f16 => true
  | _, _ => false

/-- vcvt of `u` into `t` performs no rounding, so its rounding field must be 0 (R189). -/
def Ty.cvtExact (t u : Ty) : Bool := u.exactInto t || (t.isInt && u.isInt) || t == u

/-- Rounding code (Table 2.6). -/
def Rnd.code : Rnd → BitVec 3
  | .rne => 0 | .rtz => 1 | .rdn => 2 | .rup => 3 | .rna => 4 | .rto => 5 | .dyn => 7

/-- The mode of a rounding code; 6 is reserved (R59). -/
def Rnd.ofCode (c : BitVec 3) : Option Rnd :=
  if c == 0 then some .rne else if c == 1 then some .rtz else if c == 2 then some .rdn
  else if c == 3 then some .rup else if c == 4 then some .rna else if c == 5 then some .rto
  else if c == 7 then some .dyn else none

/-- fn of cmp (Table 3.8). -/
def CmpCc.code : CmpCc → BitVec 11
  | .eq => 0 | .ne => 1 | .lt => 2 | .ltn => 3 | .le => 4 | .len => 5

def CmpCc.ofCode (c : BitVec 11) : Option CmpCc :=
  [CmpCc.eq, .ne, .lt, .ltn, .le, .len][c.toNat]?

/-- fn of fcmp (Table 3.8). -/
def FcmpCc.code : FcmpCc → BitVec 11
  | .eq => 0 | .lt => 1 | .le => 2 | .un => 3

def FcmpCc.ofCode (c : BitVec 11) : Option FcmpCc := [FcmpCc.eq, .lt, .le, .un][c.toNat]?

/-- fn[3:0] of fcvt (Table 3.8). -/
def FcvtOp.code : FcvtOp → BitVec 4
  | .i32f32 => 0 | .n32f32 => 1 | .f32i32 => 2 | .f32n32 => 3 | .f16f32 => 4 | .f32f16 => 5
  | .bf16f32 => 6 | .f32bf16 => 7 | .f32i64 => 8 | .i64f32 => 9

def FcvtOp.ofCode (c : BitVec 4) : Option FcvtOp :=
  [FcvtOp.i32f32, .n32f32, .f32i32, .f32n32, .f16f32, .f32f16, .bf16f32, .f32bf16, .f32i64, .i64f32][c.toNat]?

/-- The two exact conversions f16 to f32 and bf16 to f32 (Table 3.8, codes 5 and 7). -/
def FcvtOp.exact : FcvtOp → Bool
  | .f32f16 | .f32bf16 => true
  | _ => false

/-- fn[6:4] of sxt and zxt. -/
def ExtW.code : ExtW → BitVec 3
  | .w8 => 0 | .w16 => 1 | .w32 => 2

def ExtW.ofCode (c : BitVec 3) : Option ExtW := [ExtW.w8, .w16, .w32][c.toNat]?

/-- Width field of ld (Table 3.8). -/
def LdW.code : LdW → BitVec 3
  | .i8 => 0 | .n8 => 1 | .i16 => 2 | .n16 => 3 | .i32 => 4 | .n32 => 5 | .d64 => 6

def LdW.ofCode (c : BitVec 3) : Option LdW := [LdW.i8, .n8, .i16, .n16, .i32, .n32, .d64][c.toNat]?

/-- Width field of st (Table 3.8). -/
def StW.code : StW → BitVec 3
  | .i8 => 0 | .i16 => 2 | .i32 => 4 | .d64 => 6

def StW.ofCode (c : BitVec 3) : Option StW :=
  if c == 0 then some .i8 else if c == 2 then some .i16 else if c == 4 then some .i32
  else if c == 6 then some .d64 else none

/-- fn[3:0] of amo (Table 3.8). -/
def AmoOp.code : AmoOp → BitVec 4
  | .add => 0 | .and => 1 | .or => 2 | .xor => 3 | .min => 4 | .max => 5 | .minn => 6 | .maxn => 7
  | .swap => 8 | .cas => 9

def AmoOp.ofCode (c : BitVec 4) : Option AmoOp :=
  [AmoOp.add, .and, .or, .xor, .min, .max, .minn, .maxn, .swap, .cas][c.toNat]?

/-- imm32[3:0] of ramo (Table 3.13). -/
def RamoOp.code : RamoOp → BitVec 4
  | .add => 0 | .min => 1 | .max => 2 | .swap => 3 | .cas => 4

def RamoOp.ofCode (c : BitVec 4) : Option RamoOp := [RamoOp.add, .min, .max, .swap, .cas][c.toNat]?

/-- imm8 of vcmp (Table 3.11). -/
def VcmpCc.code : VcmpCc → BitVec 8
  | .eq => 0 | .ne => 1 | .lt => 2 | .le => 3 | .gt => 4 | .ge => 5 | .un => 6

def VcmpCc.ofCode (c : BitVec 8) : Option VcmpCc :=
  [VcmpCc.eq, .ne, .lt, .le, .gt, .ge, .un][c.toNat]?

/-- imm8 of vshuf (Table 8.3). -/
def ShufPat.code : ShufPat → BitVec 8
  | .zlo => 0 | .zhi => 1 | .uev => 2 | .uod => 3 | .rev => 4 | .swp => 5

def ShufPat.ofCode (c : BitVec 8) : Option ShufPat :=
  [ShufPat.zlo, .zhi, .uev, .uod, .rev, .swp][c.toNat]?

/-- The patterns whose vb must be zero (R203). -/
def ShufPat.oneSource : ShufPat → Bool
  | .rev | .swp => true
  | _ => false

/-- imm8 of vred (Table 8.4). -/
def RedOp.code : RedOp → BitVec 8
  | .add => 0 | .max => 1 | .min => 2 | .and => 3 | .or => 4

def RedOp.ofCode (c : BitVec 8) : Option RedOp := [RedOp.add, .max, .min, .and, .or][c.toNat]?

/-- The types an operation of vred accepts (Table 8.4, R205); a vscan accepts the same, so no f4. [DESIGN CHOICE, log 68] -/
def RedOp.accepts (op : RedOp) (t : Ty) : Bool :=
  match op with
  | .add => t.isVf || t.isInt
  | .max | .min => t != .f4
  | .and | .or => t.isInt

/-- imm8 of vscan (R207). -/
def ScanOp.code : ScanOp → BitVec 8
  | .add => 0 | .max => 1 | .min => 2

def ScanOp.ofCode (c : BitVec 8) : Option ScanOp := [ScanOp.add, .max, .min][c.toNat]?

/-- The vred operation a scan applies (R207 refers to Table 8.4). -/
def ScanOp.red : ScanOp → RedOp
  | .add => .add | .max => .max | .min => .min

/-- Kind field of qmark (Table 3.10). -/
def MarkKind.code : MarkKind → BitVec 2
  | .cb => 1 | .ce => 2 | .user => 3

def MarkKind.ofCode (c : BitVec 2) : Option MarkKind :=
  if c == 1 then some .cb else if c == 2 then some .ce else if c == 3 then some .user else none

/-- flags[1:0] of mbat.ld (Table 9.3). -/
def BatForm.code : BatForm → BitVec 2
  | .plain => 0 | .t8 => 1 | .t16 => 2

def BatForm.ofCode (c : BitVec 2) : Option BatForm := [BatForm.plain, .t8, .t16][c.toNat]?

/-- The weight formats a form of mbat.ld accepts (Table 9.3). -/
def BatForm.accepts (f : BatForm) (t : Ty) : Bool :=
  match f with
  | .plain => t.isQuant || t == .bf16
  | .t8 => t.isQuant && t != .f4
  | .t16 => t == .bf16

/-- MX source selector (Table 3.7). -/
def ASel.code : ASel → BitVec 8
  | .v n => 0#1 ++ n
  | .iq n => 8#4 ++ n
  | .sp n => 40#6 ++ n
  | .slice j => 11#4 ++ j

/-- The source a selector code names, if it names one. -/
def ASel.ofCode (c : BitVec 8) : Option ASel :=
  if c.extractLsb' 7 1 == 0 then some (.v (c.extractLsb' 0 7))
  else if c.extractLsb' 4 4 == 8 then some (.iq (c.extractLsb' 0 4))
  else if c.extractLsb' 2 6 == 40 then some (.sp (c.extractLsb' 0 2))
  else if c.extractLsb' 4 4 == 11 then some (.slice (c.extractLsb' 0 4))
  else none

/-- MX destination selector (Table 3.7). -/
def DSel.code : DSel → BitVec 8
  | .v n => 0#1 ++ n
  | .oq n => 9#4 ++ n
  | .slice j => 11#4 ++ j

/-- The destination a selector code names, if it names one. -/
def DSel.ofCode (c : BitVec 8) : Option DSel :=
  if c.extractLsb' 7 1 == 0 then some (.v (c.extractLsb' 0 7))
  else if c.extractLsb' 4 4 == 9 then some (.oq (c.extractLsb' 0 4))
  else if c.extractLsb' 4 4 == 11 then some (.slice (c.extractLsb' 0 4))
  else none

/-- The sources mbat.ld accepts (Table 9.1). -/
def ASel.forBat : ASel → Bool
  | .sp _ | .slice _ => true
  | _ => false

/-- The sources mscale accepts (Table 9.1). -/
def ASel.forScale : ASel → Bool
  | .iq _ => false
  | _ => true

/-- System register numbers whose write (or read) has a row of its own in the opcode table. -/
def sysReadOwnRow (n : BitVec 12) : Bool := n == 0x003

def sysWriteOwnRow (n : BitVec 12) : Bool :=
  n == 0x015 || n == 0x002 || n.extractLsb' 2 10 == 6 || n.extractLsb' 2 10 == 7 || n == 0x033 || n == 0x030

end Sys2Proof
end

