-- ==== Sys2Proof/Machine/Num.lean ====
section
/-! DEFINITION. Number formats and rounding (spec/02): exact values, RoundTo, conversions, and the exact operations the
arithmetic instructions round. -/

namespace Sys2Proof.Machine

/-- An exact value: not a number, an infinity, or a finite magnitude with its sign (the sign of a zero counts). -/
inductive Num where
  | nan
  | inf (neg : Bool)
  | fin (neg : Bool) (mag : Rat)
  deriving DecidableEq, Repr

/-- A floating-point format (Table 2.2): exponent and fraction widths, bias, special encodings, largest magnitude,
canonical NaN. `sc` marks SC12, which has no sign and no subnormals (R54). -/
structure Fmt where
  e      : Nat
  f      : Nat
  bias   : Nat
  hasInf : Bool
  hasNan : Bool
  maxFin : Rat
  cnan   : Nat
  sc     : Bool
  deriving DecidableEq, Repr

/-- 2^k for an integer k. -/
def pow2 (k : Int) : Rat := if 0 ≤ k then ((2 ^ k.toNat : Nat) : Rat) else mkRat 1 (2 ^ (-k).toNat)

def Fmt.b32 : Fmt := ⟨8, 23, 127, true, true, (2 - pow2 (-23)) * pow2 127, 0x7FC00000, false⟩
def Fmt.b16 : Fmt := ⟨5, 10, 15, true, true, 65504, 0x7E00, false⟩
def Fmt.bf : Fmt := ⟨8, 7, 127, true, true, (2 - pow2 (-7)) * pow2 127, 0x7FC0, false⟩
def Fmt.e4m3 : Fmt := ⟨4, 3, 7, false, true, 448, 0x7F, false⟩
def Fmt.e5m2 : Fmt := ⟨5, 2, 15, true, true, 57344, 0x7E, false⟩
def Fmt.e2m1 : Fmt := ⟨2, 1, 1, false, false, 6, 0, false⟩
def Fmt.b128 : Fmt :=
  ⟨15, 112, 16383, true, true, (2 - pow2 (-112)) * pow2 16383, 0x7FFF8000000000000000000000000000, false⟩
def Fmt.sc12 : Fmt := ⟨8, 4, 127, false, true, (15 : Rat) / 8 * pow2 128, 0xFFF, true⟩

/-- The format of a floating-point type code. -/
def tyFmt : Ty → Fmt
  | .f32 => .b32 | .bf16 => .bf | .f16 => .b16 | .f8e4 => .e4m3 | .f8e5 => .e5m2 | .f4 => .e2m1
  | _ => .b32

/-- The exponent of the smallest normal magnitude. -/
def Fmt.emin (m : Fmt) : Int := 1 - (m.bias : Int)

/-- The largest integer k with 2^k at most a positive magnitude. -/
def ilog2 (q : Rat) : Int :=
  let k : Int := (q.num.toNat.log2 : Int) - (q.den.log2 : Int)
  if pow2 k ≤ q then k else k - 1

/-! ## Reading an encoding (R50, R54) -/

/-- The exact value of an encoding. -/
def Fmt.value (m : Fmt) (x : Nat) : Num :=
  let f := x % 2 ^ m.f
  let e := x >>> m.f % 2 ^ m.e
  let neg := !m.sc && (x >>> (m.f + m.e)) % 2 == 1
  let top := 2 ^ m.e - 1
  if m.hasInf && e == top then (if f == 0 then .inf neg else .nan)
  else if m.hasNan && e == top && f == 2 ^ m.f - 1 then .nan
  else if e == 0 then .fin neg (if m.sc then 0 else (f : Rat) * pow2 (m.emin - m.f))
  else .fin neg ((2 ^ m.f + f : Nat) * pow2 ((e : Int) - m.bias - m.f))

/-- The signed or unsigned number of an integer type. -/
def intValue (t : Ty) (x : BitVec 32) : Int :=
  let y := x.toNat % 2 ^ t.width
  if t.signed && 2 ^ (t.width - 1) ≤ y then (y : Int) - (2 ^ t.width : Nat) else y

/-- An integer as an exact value. -/
def Num.ofInt (i : Int) : Num := .fin (decide (i < 0)) (i.natAbs : Rat)

/-- The exact value of an element of a type. -/
def tyValue (t : Ty) (x : BitVec 32) : Num :=
  if t.isInt then .ofInt (intValue t x) else (tyFmt t).value (x.toNat % 2 ^ t.width)

/-- The value of an SC12 scale: `none` is the NaN 0xFFF (Table 2.4). -/
def scValue (x : BitVec 12) : Option Rat :=
  match Fmt.sc12.value x.toNat with
  | .fin _ q => some q
  | _ => none

/-! ## Rounding (R59 to R61) -/

/-- Whether the upper of the two neighbours n and n + 1 (in units) is taken, for a magnitude between them. -/
def roundUp (r : Rnd) (neg : Bool) (n : Nat) (frac : Rat) : Bool :=
  match r with
  | .rtz => false
  | .rdn => neg
  | .rup => !neg
  | .rto => n % 2 == 0
  | .rna => decide ((1 : Rat) / 2 ≤ frac)
  | .rne | .dyn => decide ((1 : Rat) / 2 < frac) || (frac == 1 / 2 && n % 2 == 1)

/-- The spacing exponent of a format at a magnitude: subnormals share the smallest, SC12 has no subnormals. -/
def Fmt.unit (m : Fmt) (q : Rat) : Int :=
  let k := ilog2 q
  if m.sc && k < m.emin then m.emin else max k m.emin - m.f

/-- The neighbour of a positive magnitude, as a count of units and the unit's exponent. -/
def Fmt.neighbour (m : Fmt) (r : Rnd) (neg : Bool) (q : Rat) : Nat × Int :=
  let u := m.unit q
  let x := q / pow2 u
  let n := x.floor.toNat
  let frac := x - n
  (if frac == 0 then n else if roundUp r neg n frac then n + 1 else n, u)

/-- The encoding of a magnitude that the format holds. -/
def Fmt.encMag (m : Fmt) (q : Rat) : Nat :=
  if q == 0 then 0
  else
    let k := ilog2 q
    if k < m.emin then (q / pow2 (m.emin - m.f)).floor.toNat
    else ((k + m.bias).toNat <<< m.f) + ((q / pow2 (k - m.f)).floor.toNat - 2 ^ m.f)

/-- Put the sign in front of a magnitude's encoding. -/
def Fmt.sign (m : Fmt) (neg : Bool) (x : Nat) : Nat := if neg && !m.sc then x + 2 ^ (m.e + m.f) else x

/-- The encoding of an infinity, with CORE.SAT where the format has none (R63); -inf into SC12 is a negative value there.
[DEDUCED, log 27] -/
def Fmt.infinite (m : Fmt) (neg : Bool) : Nat × Bool :=
  if m.hasInf then (m.sign neg ((2 ^ m.e - 1) <<< m.f), false)
  else if m.sc && neg then (m.cnan, true)
  else (m.sign neg (m.encMag m.maxFin), true)

/-- Table 2.7. -/
def Fmt.overflow (m : Fmt) (r : Rnd) (neg : Bool) : Nat × Bool :=
  let toInf := match r with
    | .rne | .rna | .dyn => true
    | .rtz | .rto => false
    | .rdn => neg
    | .rup => !neg
  if m.hasInf then (if toInf then m.infinite neg else (m.sign neg (m.encMag m.maxFin), false))
  else (m.sign neg (m.encMag m.maxFin), true)

/-- A NaN in a format: the canonical one, or +0 with CORE.SAT where the format has none (R63). -/
def Fmt.nan (m : Fmt) : Nat × Bool := if m.hasNan then (m.cnan, false) else (0, true)

/-- RoundTo(fmt, mode, x): the encoding and whether CORE.SAT is set (R60, R61, R63). -/
def Fmt.round (m : Fmt) (r : Rnd) (x : Num) : Nat × Bool :=
  match x with
  | .nan => m.nan
  | .inf neg => m.infinite neg
  | .fin neg q =>
    if q == 0 then (m.sign neg 0, false)
    else if m.sc && neg then (m.cnan, true)
    else
      let nu := m.neighbour r neg q
      let y := (nu.1 : Rat) * pow2 nu.2
      if m.maxFin < y then m.overflow r neg else (m.sign neg (m.encMag y), false)

/-! ## Integers (R58, R64) -/

/-- Minimum and maximum of an integer type (Table 2.5). -/
def tyMin (t : Ty) : Int := if t.signed then -((2 ^ (t.width - 1) : Nat) : Int) else 0
def tyMax (t : Ty) : Int := if t.signed then ((2 ^ (t.width - 1) : Nat) : Int) - 1 else ((2 ^ t.width : Nat) : Int) - 1

/-- Clamp into a range; true when it clamped. -/
def clampInt (lo hi i : Int) : Int × Bool := if i < lo then (lo, true) else if hi < i then (hi, true) else (i, false)

/-- A finite value rounded to an integer (R64). -/
def roundInt (r : Rnd) (neg : Bool) (q : Rat) : Int :=
  let n := q.floor.toNat
  let frac := q - n
  let k := if frac == 0 then n else if roundUp r neg n frac then n + 1 else n
  if neg then -(k : Int) else k

/-- Rounded and clamped into a range; NaN gives 0, infinities the ends; each of these sets CORE.SAT (R63, R64). -/
def roundClamp (lo hi : Int) (r : Rnd) (x : Num) : Int × Bool :=
  match x with
  | .nan => (0, true)
  | .inf neg => (if neg then lo else hi, true)
  | .fin neg q => clampInt lo hi (roundInt r neg q)

/-- The bits of an integer in w bits, two's complement. -/
def intBits (w : Nat) (i : Int) : Nat := (i % (2 ^ w : Nat)).toNat

/-- RoundTo for any type code: the element's bits and CORE.SAT (R60, R64). -/
def tyRound (t : Ty) (r : Rnd) (x : Num) : BitVec 32 × Bool :=
  if t.isInt then
    let c := roundClamp (tyMin t) (tyMax t) r x
    (BitVec.ofNat 32 (intBits t.width c.1), c.2)
  else
    let c := (tyFmt t).round r x
    (BitVec.ofNat 32 c.1, c.2)

/-! ## Exact operations (R133, R135, R176, R177) -/

/-- The signed number of a finite value. -/
def signed (neg : Bool) (q : Rat) : Rat := if neg then -q else q

/-- A finite exact value; a zero takes the sign given. -/
def Num.ofRat (zeroNeg : Bool) (q : Rat) : Num := if q == 0 then .fin zeroNeg 0 else .fin (decide (q < 0)) (if q < 0 then -q else q)

def Num.neg : Num → Num
  | .nan => .nan
  | .inf n => .inf !n
  | .fin n q => .fin (!n) q

def Num.abs : Num → Num
  | .nan => .nan
  | .inf _ => .inf false
  | .fin _ q => .fin false q

def Num.isNan : Num → Bool
  | .nan => true
  | _ => false

/-- a + b, with the sign of an exact zero by R133. -/
def Num.add (r : Rnd) (a b : Num) : Num :=
  match a, b with
  | .nan, _ | _, .nan => .nan
  | .inf m, .inf n => if m == n then .inf m else .nan
  | .inf m, .fin .. => .inf m
  | .fin .., .inf n => .inf n
  | .fin m p, .fin n q =>
    if p == 0 && q == 0 && m == n then .fin m 0
    else .ofRat (r == .rdn) (signed m p + signed n q)

/-- a × b. -/
def Num.mul (a b : Num) : Num :=
  match a, b with
  | .nan, _ | _, .nan => .nan
  | .inf m, .inf n => .inf (m != n)
  | .inf m, .fin n q => if q == 0 then .nan else .inf (m != n)
  | .fin m p, .inf n => if p == 0 then .nan else .inf (m != n)
  | .fin m p, .fin n q => .fin (m != n) (p * q)

/-- a ÷ b. -/
def Num.div (a b : Num) : Num :=
  match a, b with
  | .nan, _ | _, .nan => .nan
  | .inf _, .inf _ => .nan
  | .inf m, .fin n _ => .inf (m != n)
  | .fin m _, .inf n => .fin (m != n) 0
  | .fin m p, .fin n q =>
    if q == 0 then (if p == 0 then .nan else .inf (m != n)) else .fin (m != n) (p / q)

/-- a × b + c. -/
def Num.fma (r : Rnd) (a b c : Num) : Num := (a.mul b).add r c

/-- Order by value; both zeros are equal; false with a NaN. -/
def Num.lt (a b : Num) : Bool :=
  match a, b with
  | .nan, _ | _, .nan => false
  | .inf m, .inf n => m && !n
  | .inf m, .fin .. => m
  | .fin .., .inf n => !n
  | .fin m p, .fin n q => decide (signed m p < signed n q)

def Num.eqv (a b : Num) : Bool :=
  match a, b with
  | .nan, _ | _, .nan => false
  | .inf m, .inf n => m == n
  | .fin m p, .fin n q => decide (signed m p = signed n q)
  | _, _ => false

/-- The smaller operand, -0 below +0; one NaN gives the other operand (R134). -/
def Num.min (a b : Num) : Num :=
  match a, b with
  | .nan, x => x
  | x, .nan => x
  | .fin m p, .fin n q =>
    if p == 0 && q == 0 then .fin (m || n) 0 else if Num.lt (.fin n q) (.fin m p) then .fin n q else .fin m p
  | x, y => if Num.lt y x then y else x

/-- The larger operand (R134). -/
def Num.max (a b : Num) : Num :=
  match a, b with
  | .nan, x => x
  | x, .nan => x
  | .fin m p, .fin n q =>
    if p == 0 && q == 0 then .fin (m && n) 0 else if Num.lt (.fin m p) (.fin n q) then .fin n q else .fin m p
  | x, y => if Num.lt x y then y else x

/-! ## Square roots and elementary functions (R71, R179)

An irrational result is given as a rational that lies strictly between the same two points of a grid much finer than
the rounding boundaries (square roots), or as an interval that is narrowed until both ends round alike (log 9). -/

/-- A rational that rounds as the square root of a positive rational does: exact where the root is on the grid, else
the middle of the grid cell that holds the root. -/
def sqrtRat (q : Rat) : Rat :=
  let k : Nat := 160 + q.den.log2
  let n := (q * (4 ^ k : Nat)).floor.toNat
  let s := n.sqrt
  if ((s * s : Nat) : Rat) == q * (4 ^ k : Nat) then mkRat s (2 ^ k) else mkRat (2 * s + 1) (2 ^ (k + 1))

/-- [DEDUCED, log 9] -/
def Num.sqrt : Num → Num
  | .nan => .nan
  | .inf n => if n then .nan else .inf false
  | .fin n q => if q == 0 then .fin n 0 else if n then .nan else .fin false (sqrtRat q)

/-- Truncate a rational to a multiple of 2^-n. -/
def trunc (n : Nat) (q : Rat) : Rat := mkRat (q * (2 ^ n : Nat)).floor (2 ^ n)

/-- Sum of a power series in fixed point: `term k t` is the next term's factor. -/
def series (n : Nat) (step : Nat → Rat → Rat) : Nat → Nat → Rat → Rat → Rat
  | 0, _, _, acc => acc
  | fuel + 1, k, t, acc =>
    let t' := trunc n (step k t)
    if t' == 0 then acc else series n step fuel (k + 1) t' (acc + t')

/-- e^y for 0 ≤ y ≤ 1, to within 2^(10-n). -/
def expFix (n : Nat) (y : Rat) : Rat := series n (fun k t => t * y / (k + 1 : Nat)) n 0 1 1

/-- atanh z = z + z^3/3 + ... for 0 ≤ z ≤ 1/3, to within 2^(10-n). -/
def atanhFix (n : Nat) (z : Rat) : Rat :=
  let zz := z * z
  let rec go : Nat → Nat → Rat → Rat → Rat
    | 0, _, _, acc => acc
    | fuel + 1, k, p, acc =>
      let p' := trunc n (p * zz)
      if p' == 0 then acc else go fuel (k + 2) p' (acc + trunc n (p' / k))
  go n 3 (trunc n z) (trunc n z)

/-- atan z = z - z^3/3 + ... for 0 ≤ z ≤ 1/2. -/
def atanFix (n : Nat) (z : Rat) : Rat :=
  let zz := z * z
  let rec go : Nat → Nat → Bool → Rat → Rat → Rat
    | 0, _, _, _, acc => acc
    | fuel + 1, k, sub, p, acc =>
      let p' := trunc n (p * zz)
      if p' == 0 then acc
      else go fuel (k + 2) (!sub) p' (if sub then acc - trunc n (p' / k) else acc + trunc n (p' / k))
  go n 3 true (trunc n z) (trunc n z)

/-- ln 2 = 2 atanh(1/3). -/
def ln2Fix (n : Nat) : Rat := 2 * atanhFix n (1 / 3)
/-- pi by Machin's formula. -/
def piFix (n : Nat) : Rat := 16 * atanFix n (1 / 5) - 4 * atanFix n (1 / 239)

/-- sin y for 0 ≤ y ≤ 2. -/
def sinFix (n : Nat) (y : Rat) : Rat :=
  series n (fun k t => -(t * y * y) / ((2 * k + 2) * (2 * k + 3) : Nat)) n 0 y y

/-- cos y for 0 ≤ y ≤ 2. -/
def cosFix (n : Nat) (y : Rat) : Rat :=
  series n (fun k t => -(t * y * y) / ((2 * k + 1) * (2 * k + 2) : Nat)) n 0 1 1

/-- 2^x for a fraction 0 ≤ x < 1. -/
def exp2Fix (n : Nat) (x : Rat) : Rat := expFix n (trunc n (x * ln2Fix n))

/-- log2 of 1 ≤ m < 2. -/
def log2Fix (n : Nat) (m : Rat) : Rat := trunc n (2 * atanhFix n ((m - 1) / (m + 1)) / ln2Fix n)

/-- e^y for y ≥ 0 by halving the argument. -/
def expBig (n : Nat) (y : Rat) : Rat :=
  let k := y.ceil.toNat.log2 + 1
  let rec sq : Nat → Rat → Rat
    | 0, x => x
    | j + 1, x => sq j (trunc n (x * x))
  sq k (expFix n (y / (2 ^ k : Nat)))

/-- Round a real that `f n` gives to within 2^(-n): more bits until both ends of the interval round alike.
[DEDUCED, log 9] -/
def ziv (m : Fmt) (r : Rnd) (f : Nat → Rat) : Nat → Nat → Nat
  | 0, n => (m.round r (.ofRat false (f n))).1
  | fuel + 1, n =>
    let y := f n
    let eps := pow2 (-(n : Int))
    let a := (m.round r (.ofRat true (y - eps))).1
    let b := (m.round r (.ofRat false (y + eps))).1
    if a == b then a else ziv m r f fuel (2 * n)

/-- The schedule: 128 bits, doubled up to 2,048. [DEDUCED, log 9] -/
def zivRound (m : Fmt) (r : Rnd) (f : Nat → Rat) : Nat := ziv m r f 4 128

/-- The elementary functions of Table 7.3 besides vrcp and vrsq. -/
inductive Elem where
  | exp2 | log2 | sin | cos | tanh
  deriving DecidableEq, Repr

/-- 2^a: exact for integers; a far argument rounds as 2^400 or 2^-400 does. -/
def roundExp2 (m : Fmt) (r : Rnd) (x : Rat) : Nat :=
  let k := x.floor
  if 400 ≤ k then (m.round r (.ofRat false (pow2 400))).1
  else if k < -400 then (m.round r (.ofRat false (pow2 (-400)))).1
  else if x == k then (m.round r (.ofRat false (pow2 k))).1
  else zivRound m r fun n => pow2 k * exp2Fix (n + 512) (x - k)

/-- log2 a for a > 0: exact for powers of two. -/
def roundLog2 (m : Fmt) (r : Rnd) (x : Rat) : Nat :=
  let k := ilog2 x
  if x == pow2 k then (m.round r (.ofRat false (k : Rat))).1
  else zivRound m r fun n => (k : Rat) + log2Fix (n + 64) (x / pow2 k)

/-- sin of 2 pi t for 0 ≤ t ≤ 1/4. -/
def sinTurn (n : Nat) (t : Rat) : Rat := sinFix (n + 64) (trunc (n + 64) (2 * piFix (n + 64) * t))
def cosTurn (n : Nat) (t : Rat) : Rat := cosFix (n + 64) (trunc (n + 64) (2 * piFix (n + 64) * t))

/-- sin of 2 pi x for x ≥ 0; an exact zero has the sign given. -/
def roundSin (m : Fmt) (r : Rnd) (neg : Bool) (x : Rat) : Nat :=
  let t := x - x.floor
  let q := (4 * t).floor.toNat
  let u := t - (q : Rat) / 4
  let out (b : Bool) (f : Nat → Rat) : Nat :=
    if b != neg then zivRound m r (fun n => -(f n)) else zivRound m r f
  if u == 0 then
    (if q % 2 == 0 then (m.round r (.fin neg 0)).1 else (m.round r (.fin ((q == 3) != neg) 1)).1)
  else if q == 0 then out false (sinTurn · u)
  else if q == 1 then out false (cosTurn · u)
  else if q == 2 then out true (sinTurn · u)
  else out true (cosTurn · u)

/-- cos of 2 pi x; an exact zero is +0. -/
def roundCos (m : Fmt) (r : Rnd) (x : Rat) : Nat :=
  let t := x - x.floor
  let q := (4 * t).floor.toNat
  let u := t - (q : Rat) / 4
  if u == 0 then
    (if q % 2 == 1 then (m.round r (.fin false 0)).1 else (m.round r (.fin (q == 2) 1)).1)
  else if q == 0 then zivRound m r (cosTurn · u)
  else if q == 1 then zivRound m r (fun n => -(sinTurn n u))
  else if q == 2 then zivRound m r (fun n => -(cosTurn n u))
  else zivRound m r (sinTurn · u)

/-- tanh of a magnitude; a far argument rounds as 1 - 2^-100 does. -/
def tanhFix (n : Nat) (x : Rat) : Rat :=
  let w := expBig (n + 512) (2 * x)
  trunc (n + 8) ((w - 1) / (w + 1))

def roundTanh (m : Fmt) (r : Rnd) (neg : Bool) (x : Rat) : Nat :=
  if x == 0 then (m.round r (.fin neg 0)).1
  else if 64 ≤ x then (m.round r (.fin neg (1 - pow2 (-100)))).1
  else if neg then zivRound m r (fun n => -(tanhFix n x)) else zivRound m r (tanhFix · x)

/-- RoundTo(type, mode, f(a)) with the special values of Table 7.3. [DEDUCED, log 9] -/
def roundElem (m : Fmt) (r : Rnd) (g : Elem) (a : Num) : Nat :=
  match g, a with
  | _, .nan => (m.nan).1
  | .exp2, .inf neg => if neg then 0 else (m.infinite false).1
  | .exp2, .fin neg q => roundExp2 m r (signed neg q)
  | .log2, .inf neg => if neg then (m.nan).1 else (m.infinite false).1
  | .log2, .fin neg q => if q == 0 then (m.infinite true).1 else if neg then (m.nan).1 else roundLog2 m r q
  | .sin, .inf _ | .cos, .inf _ => (m.nan).1
  | .sin, .fin neg q => roundSin m r neg q
  | .cos, .fin _ q => roundCos m r q
  | .tanh, .inf neg => (m.round r (.fin neg 1)).1
  | .tanh, .fin neg q => roundTanh m r neg q

/-- 1 ÷ a. -/
def Num.rcp (a : Num) : Num := Num.div (.fin false 1) a

/-- 1 ÷ √a: -0 gives -inf, a negative value NaN (Table 7.3). -/
def Num.rsq : Num → Num
  | .nan => .nan
  | .inf n => if n then .nan else .fin false 0
  | .fin n q => if q == 0 then .inf n else if n then .nan else .fin false (sqrtRat (1 / q))

end Sys2Proof.Machine
end

