-- ==== Sys2Proof/Config.lean ====
section
/-! DEFINITION. What an implementation fixes and the free values: constants without a body, so that no proof can
see which value they hold. -/

namespace Sys2Proof.Config

/-- Extra clk that the n-th step takes beyond one: the spec fixes no cycle count (free value, log 3).
[DESIGN CHOICE, log 3] -/
opaque freeClk : Nat → Nat
/-- SHAKE256 of a byte string, with that many output bits (an outside standard, log 12). [PRESUMED, log 12] -/
opaque shake256 : Nat → List Byte → Nat
/-- Ed448 verification of (public key, message, signature) (RFC 8032; an outside standard, log 12). [PRESUMED, log 12] -/
opaque ed448Verify : Nat → List Byte → Nat → Bool
/-- X448 of a private key and a public value (an outside standard, log 12). [PRESUMED, log 12] -/
opaque x448 : Nat → Nat → Nat
/-- The n-th random draw of the security block (fresh keys and nonces, R416, R419). [DESIGN CHOICE, log 13] -/
opaque freeRandom : Nat → Nat
/-- Truncated tag of a circuit flit: sealed (AES-GCM) or not (AES-GMAC), key, nonce, additional data, payload (R386, R387).
[PRESUMED, log 12] -/
opaque flitTag : Bool → Nat → Nat → Nat → Beat → BitVec 64
/-- Payload as sent on a SEALED circuit: key, nonce, payload (R386). [PRESUMED, log 12] -/
opaque sealPayload : Nat → Nat → Beat → Beat
/-- Payload of a received flit of a SEALED circuit: key, nonce, payload on the wire (R386). [PRESUMED, log 12] -/
opaque openPayload : Nat → Nat → Beat → Beat
/-- Whether the NAK that is outstanding at the n-th step has been answered by a resend, so that a flit that fails draws another
(R373, R374, log 8). [DESIGN CHOICE, log 8] -/
opaque nakAnswered : Nat → Bool
/-- Choices of order that the spec leaves open, by a running count (log 8). [DESIGN CHOICE, log 8] -/
opaque freeChoice : Nat → Nat
/-- Whether a stream byte that has been overwritten since its dx.stream is delivered with its old value, by step and
64-byte beat (R261, log 8). [DESIGN CHOICE, log 8] -/
opaque freeOld : Nat → Nat → Bool
/-- What a weight or scale fill writes for a byte of a beat with an uncorrectable error, by step and offset: no rule states it
(R220, log 56). [DESIGN CHOICE, log 56] -/
opaque freeFill : Nat → Nat → Byte
/-- The stage to which the placer assigns counting flag f of core c in an epoch (R41): no section of an image says it (log 15).
[DESIGN CHOICE, log 15] -/
opaque flagStage : Nat → Nat → Nat → BitVec 3
/-- What the logbook entry of a flag overflow gives as stage, charge and PC when the add came in a packet, by the entry's
SEQ: the spec states none (free value, log 14). [DESIGN CHOICE, log 14] -/
opaque foreignLog : Nat → Nat
/-- Capacity of the inbound port at the far end of a circuit, by the circuit's tag: no rule gives an oq its far end's capacity
(free value, log 14). [DESIGN CHOICE, log 14] -/
opaque farCap : Nat → Nat
/-- Where in hub SRAM the receive queue of the management port keeps its n-th frame: the spec gives no address (R433, log 48).
[DESIGN CHOICE, log 48] -/
opaque mgmtSlot : Nat → Nat
/-- What the power meter and the stall counter read at the n-th reading: physical inputs (free value, log 13).
[DESIGN CHOICE, log 13] -/
opaque freeSensor : Nat → Nat
/-- A memory word that a forced reset leaves partly written (R409): true when the new value stands. [DESIGN CHOICE, log 8] -/
opaque freeLanded : Nat → Bool
/-- Whether the built-in check of a core passes after the n-th forced reset (R410). [DESIGN CHOICE, log 13] -/
opaque builtInCheck : Nat → Nat → Bool
/-- Contents of the one-time fuses (R413): hash of the root public key. [DESIGN CHOICE, log 13] -/
opaque fuseRootHash : Nat
/-- The package serial, 16 bytes (R413). -/
opaque fuseSerial : BitVec 128
/-- The enclosure identifier, 8 bytes (R413). -/
opaque fuseEncl : BitVec 64
/-- The device public key (R413). -/
opaque fuseDevKey : BitVec 456
/-- The root-key signature over serial, enclosure and device key (Table 19.3). -/
opaque fuseCert : BitVec 912
/-- A device-key signature by the security block over a byte string (R413, Table 19.3). [PRESUMED, log 12] -/
opaque deviceSign : List Byte → BitVec 912

end Sys2Proof.Config
end

