-- ==== Sys2Proof/WellFormed.lean ====
section
/-! DEFINITION. The instructions that an encoding of spec/03 can hold: the constraints between fields that `Instr` does not
put into its types. A term without an encoding (an event) is well formed. -/

namespace Sys2Proof

/-- pos + len of bext and bins does not pass 64 (Table 3.8). -/
def bitFieldOk (pos len1 : BitVec 6) : Bool := pos.toNat + len1.toNat + 1 ≤ 64

/-- A shift amount below the element width (R182, R184). -/
def amountOk (t : Ty) (n : BitVec 8) : Bool := t.isInt && n.toNat < t.width

/-- A form that rounds only for floating-point addition carries 0 otherwise (R205, R207). -/
def redOk (op : RedOp) (t : Ty) (r : Rnd) : Bool := op.accepts t && ((op == .add && t.isVf) || r == .rne)

/-- Row counts 1..16 (R83). -/
def rowsOk (m : BitVec 8) : Bool := 1 ≤ m.toNat && m.toNat ≤ 16

/-- The instruction has an encoding (spec/03). -/
def Instr.wf : Instr → Bool
  | .bext _ _ pos len1 | .bins _ _ pos len1 => bitFieldOk pos len1
  | .fcvt op _ _ r => !op.exact || r == .rne
  | .loop _ _ len => len != 0
  | .sysr _ _ n => !sysReadOwnRow n
  | .sysw _ _ n => !sysWriteOwnRow n
  | .qpeek _ _ _ b _ => b.toNat ≤ 34
  | .epop _ e _ => e.toNat ≤ 2
  | .vadd _ t .. | .vsub _ t .. | .vmul _ t .. | .vfma _ t .. | .vfms _ t .. | .vfnma _ t .. => t.isVf
  | .vmin _ t .. | .vmax _ t .. | .vabs _ t .. | .vneg _ t .. | .vcopysign _ t .. | .vdiv _ t .. => t.isVf
  | .vsqrt _ t .. | .vrcp _ t .. | .vrsq _ t .. | .vexp2 _ t .. | .vlog2 _ t .. | .vsin _ t .. => t.isVf
  | .vcos _ t .. | .vtanh _ t .. => t.isVf
  | .viadd _ t .. | .visub _ t .. | .vimul _ t .. | .vimulh _ t .. | .vimin _ t .. | .vimax _ t .. => t.isInt
  | .vand _ t .. | .vor _ t .. | .vxor _ t .. | .vnot _ t .. | .vpopc _ t .. | .vclz _ t .. => t.isInt
  | .vshlVb _ t .. | .vshrVb _ t .. | .vsarVb _ t .. => t.isInt
  | .vshlImm _ t _ _ n | .vshrImm _ t _ _ n | .vsarImm _ t _ _ n => amountOk t n
  | .vfsh _ t _ _ _ n => amountOk t n
  | .vbext _ t _ _ pos len1 => t.isInt && pos.toNat + len1.toNat + 1 ≤ t.width
  | .vsatn _ t u _ _ => t.isInt && u.isInt && u.width ≤ t.width && u != t
  | .vcmp cc h t .. => !h.ind && (t.isVf || (t.isInt && cc != .un))
  | .mset _ _ code => code.toNat ≤ 0x82
  | .vcvt _ t u r .. => !t.cvtExact u || r == .rne
  | .vpack _ t .. | .vunpack _ t .. => t.width != 32
  | .vscale _ t q .. => t.isVf && q.isQuant
  | .vquant _ t q .. | .vdeq _ t q .. => t.isVf && q.isQuant
  | .vcmprSt _ t .. | .vexpdLd _ t .. => t != .f4
  | .vqpop h .. | .vqpush h .. => h.m == 0
  | .vshuf _ p _ _ vb => !p.oneSource || vb == 0
  | .vred _ op t r .. => redOk op t r
  | .vargmax _ t .. => t != .f4
  | .vscan _ op t r .. => redOk op.red t r
  | .mbatLd _ _ src t form => src.forBat && form.accepts t
  | .mma _ _ _ _ rows .. => rowsOk rows
  | .macRd _ _ _ rows .. | .macRdq _ _ _ rows .. => rowsOk rows
  | .mscale _ _ src => src.forScale
  | _ => true

end Sys2Proof
end

