-- ==== Sys2Proof/Decode.lean ====
section
/-! DEFINITION. Decoding a bundle and its slots (spec/03), total on any bits and refusing by name; the encoder written from
the same tables; and the numbering of the opcode table's words. -/

namespace Sys2Proof

/-- Why a slot is not an instruction; each name is a value of DETAIL[7:0] (spec/18 Table 18.2). -/
inductive DecErr where
  /-- reserved opcode, sub-op or field value; a type or rounding code the form does not accept -/
  | reserved
  /-- a field that the form does not use is not zero -/
  | unused
  /-- zero opcode with other bits set; an all-zero or all-one bundle -/
  | zeroOp
  /-- an operation not permitted in this slot (limm in S1) -/
  | notHere
  /-- a selector or port value illegal for its field -/
  | selector
  deriving DecidableEq, Repr

/-- DETAIL[7:0] of a decode error (Table 18.2). -/
def DecErr.detail : DecErr → Nat
  | .reserved => 1 | .unused => 2 | .zeroOp => 3 | .notHere => 4 | .selector => 6

/-- What a slot decodes to. -/
abbrev Dec := Except DecErr Instr

/-- Continue when a condition holds. -/
def chk (ok : Bool) (e : DecErr) (r : Dec) : Dec := if ok then r else .error e

/-- Continue with the value of a code; a code without a value is reserved. -/
def withCode {α : Type} (x : Option α) (k : α → Dec) : Dec :=
  match x with
  | some a => k a
  | none => .error .reserved

/-- Continue with the operand a selector names (Table 3.7). -/
def withSel {α : Type} (x : Option α) (k : α → Dec) : Dec :=
  match x with
  | some a => k a
  | none => .error .selector

/-! ## S slot (R78, R86, R87) -/

/-- Register form of Table 3.2. -/
def encS (op : BitVec 6) (d a b : BitVec 5) (fn : BitVec 11) : BitVec 32 := op ++ d ++ a ++ b ++ fn
/-- Immediate form. -/
def encSImm (op : BitVec 6) (d a : BitVec 5) (imm : BitVec 16) : BitVec 32 := op ++ d ++ a ++ imm
/-- Memory form. -/
def encSMem (op : BitVec 6) (d a : BitVec 5) (w : BitVec 3) (imm : BitVec 13) : BitVec 32 := op ++ d ++ a ++ w ++ imm
/-- limm form: the S0 word. -/
def encSLimm (d : BitVec 5) (imm : BitVec 21) : BitVec 32 := 0x11#6 ++ d ++ imm

/-- The opcode field of an S, C or Q slot. -/
def opOf (w : BitVec 32) : BitVec 6 := w.extractLsb' 26 6
/-- Bits 25:21 of an S or Q slot. -/
def fD (w : BitVec 32) : BitVec 5 := w.extractLsb' 21 5
/-- Bits 20:16 of an S or Q slot. -/
def fA (w : BitVec 32) : BitVec 5 := w.extractLsb' 16 5
/-- Bits 15:11 of an S slot. -/
def fB (w : BitVec 32) : BitVec 5 := w.extractLsb' 11 5
/-- Bits 10:0 of an S slot. -/
def fFn (w : BitVec 32) : BitVec 11 := w.extractLsb' 0 11
def fImm16 (w : BitVec 32) : BitVec 16 := w.extractLsb' 0 16
def fImm13 (w : BitVec 32) : BitVec 13 := w.extractLsb' 0 13
def fWidth (w : BitVec 32) : BitVec 3 := w.extractLsb' 13 3

/-- A five-bit field that names a predicate in its low three bits. -/
def predField (p : PReg) : BitVec 5 := 0#2 ++ p
/-- Its upper two bits must be zero. -/
def predHi (x : BitVec 5) : Bool := x.extractLsb' 3 2 == 0
def predOf (x : BitVec 5) : PReg := x.extractLsb' 0 3

/-- The operations of the alu group by fn (Table 3.8). -/
def decAlu (fn : BitVec 11) (d a b : GReg) : Dec :=
  match fn with
  | 0x000#11 => .ok (.add d a b) | 0x001#11 => .ok (.sub d a b) | 0x002#11 => .ok (.and d a b)
  | 0x003#11 => .ok (.or d a b) | 0x004#11 => .ok (.xor d a b) | 0x005#11 => .ok (.shl d a b)
  | 0x006#11 => .ok (.shr d a b) | 0x007#11 => .ok (.sar d a b) | 0x008#11 => .ok (.rotl d a b)
  | 0x009#11 => .ok (.slt d a b) | 0x00A#11 => .ok (.sltn d a b) | 0x00B#11 => .ok (.seq d a b)
  | 0x00C#11 => .ok (.min d a b) | 0x00D#11 => .ok (.max d a b) | 0x00E#11 => .ok (.minn d a b)
  | 0x00F#11 => .ok (.maxn d a b) | _ => .error .reserved

/-- The mul group. -/
def decMul (fn : BitVec 11) (d a b : GReg) : Dec :=
  match fn with
  | 0x000#11 => .ok (.mul d a b) | 0x001#11 => .ok (.mulh d a b) | 0x002#11 => .ok (.mulhn d a b)
  | 0x003#11 => .ok (.div d a b) | 0x004#11 => .ok (.divn d a b) | 0x005#11 => .ok (.rem d a b)
  | 0x006#11 => .ok (.remn d a b) | _ => .error .reserved

/-- The bit group: fn[3:0] the operation, fn[6:4] the width of sxt and zxt. -/
def decBit (fn : BitVec 11) (d a b : GReg) : Dec :=
  let wd := fn.extractLsb' 4 3
  chk (fn.extractLsb' 7 4 == 0) .unused <|
  match fn.extractLsb' 0 4 with
  | 0#4 => chk (b == 0 && wd == 0) .unused (.ok (.clz d a))
  | 1#4 => chk (b == 0 && wd == 0) .unused (.ok (.ctz d a))
  | 2#4 => chk (b == 0 && wd == 0) .unused (.ok (.popc d a))
  | 3#4 => chk (b == 0 && wd == 0) .unused (.ok (.bswap d a))
  | 4#4 => chk (b == 0) .unused (withCode (ExtW.ofCode wd) fun w => .ok (.sxt d a w))
  | 5#4 => chk (b == 0) .unused (withCode (ExtW.ofCode wd) fun w => .ok (.zxt d a w))
  | 6#4 => chk (wd == 0) .unused (.ok (.fshl d a b))
  | 7#4 => chk (wd == 0) .unused (.ok (.fshr d a b))
  | _ => .error .reserved

/-- bext and bins: imm16 holds pos, len - 1 and four zero bits. -/
def decField (k : BitVec 6 → BitVec 6 → Instr) (imm : BitVec 16) : Dec :=
  let pos : BitVec 6 := imm.extractLsb' 10 6
  let len1 : BitVec 6 := imm.extractLsb' 4 6
  chk (imm.extractLsb' 0 4 == 0) .unused <| chk (bitFieldOk pos len1) .reserved (.ok (k pos len1))

/-- Shifts by an immediate: imm16[15:6] zero. -/
def decShi (k : BitVec 6 → Instr) (imm : BitVec 16) : Dec :=
  chk (imm.extractLsb' 6 10 == 0) .unused (.ok (k (imm.extractLsb' 0 6)))

/-- The plog group on predicate fields. -/
def decPlog (fn : BitVec 11) (d a b : GReg) : Dec :=
  chk (predHi d && predHi a && predHi b) .unused <|
  match fn with
  | 0#11 => .ok (.pand (predOf d) (predOf a) (predOf b))
  | 1#11 => .ok (.por (predOf d) (predOf a) (predOf b))
  | 2#11 => .ok (.pxor (predOf d) (predOf a) (predOf b))
  | 3#11 => chk (b == 0) .unused (.ok (.pnot (predOf d) (predOf a)))
  | _ => .error .reserved

/-- The fpu group: fn[3:0] the operation, fn[6:4] the rounding code. -/
def decFpu (fn : BitVec 11) (d a b : GReg) : Dec :=
  let rc := fn.extractLsb' 4 3
  chk (fn.extractLsb' 7 4 == 0) .unused <|
  match fn.extractLsb' 0 4 with
  | 0#4 => withCode (Rnd.ofCode rc) fun r => .ok (.fadd d a b r)
  | 1#4 => withCode (Rnd.ofCode rc) fun r => .ok (.fsub d a b r)
  | 2#4 => withCode (Rnd.ofCode rc) fun r => .ok (.fmul d a b r)
  | 3#4 => withCode (Rnd.ofCode rc) fun r => .ok (.fdiv d a b r)
  | 4#4 => chk (b == 0) .unused (withCode (Rnd.ofCode rc) fun r => .ok (.fsqrt d a r))
  | 5#4 => chk (rc == 0) .unused (.ok (.fmin d a b))
  | 6#4 => chk (rc == 0) .unused (.ok (.fmax d a b))
  | 7#4 => chk (rc == 0 && b == 0) .unused (.ok (.fclass d a))
  | _ => .error .reserved

/-- fcvt: fn[3:0] the conversion, fn[6:4] the rounding code, b zero. [DEDUCED, log 55] -/
def decFcvt (fn : BitVec 11) (d a b : GReg) : Dec :=
  let rc := fn.extractLsb' 4 3
  chk (fn.extractLsb' 7 4 == 0 && b == 0) .unused <|
  withCode (FcvtOp.ofCode (fn.extractLsb' 0 4)) fun op =>
  withCode (Rnd.ofCode rc) fun r => chk (!op.exact || r == .rne) .unused (.ok (.fcvt op d a r))

/-- amo: fn[3:0] the operation, fn[4] the size. -/
def decAmo (fn : BitVec 11) (d a b : GReg) : Dec :=
  chk (fn.extractLsb' 5 6 == 0) .unused <|
  withCode (AmoOp.ofCode (fn.extractLsb' 0 4)) fun op => .ok (.amo op (fn.extractLsb' 4 1 == 1) d a b)

/-- An S slot that does not hold limm (R76, R86). -/
def decodeS (w : BitVec 32) : Dec :=
  let d := fD w
  let a := fA w
  let b := fB w
  let fn := fFn w
  let imm := fImm16 w
  match opOf w with
  | 0x00#6 => .error .zeroOp
  | 0x01#6 => decAlu fn d a b
  | 0x02#6 => decMul fn d a b
  | 0x03#6 => decBit fn d a b
  | 0x04#6 => decField (.bext d a) imm
  | 0x05#6 => decField (.bins d a) imm
  | 0x08#6 => .ok (.addi d a imm)
  | 0x09#6 => .ok (.andi d a imm)
  | 0x0A#6 => .ok (.ori d a imm)
  | 0x0B#6 => .ok (.xori d a imm)
  | 0x0C#6 => decShi (.shli d a) imm
  | 0x0D#6 => decShi (.shri d a) imm
  | 0x0E#6 => decShi (.sari d a) imm
  | 0x0F#6 => decShi (.rotli d a) imm
  | 0x10#6 => .ok (.lih d a imm)
  | 0x11#6 => .error .notHere
  | 0x14#6 => chk (predHi d) .unused (withCode (CmpCc.ofCode fn) fun cc => .ok (.cmp cc (predOf d) a b))
  | 0x15#6 => decPlog fn d a b
  | 0x16#6 => chk (a == 0 && b == 0 && fn == 0) .unused (.ok (.pget d))
  | 0x17#6 => chk (fn.extractLsb' 3 8 == 0) .unused (.ok (.sel d a b (fn.extractLsb' 0 3)))
  | 0x18#6 => decFpu fn d a b
  | 0x19#6 => chk (fn.extractLsb' 0 3 == 0) .unused
      (withCode (Rnd.ofCode (fn.extractLsb' 3 3)) fun r => .ok (.ffma d a b (fn.extractLsb' 6 5) r))
  | 0x1A#6 => chk (predHi d) .unused (withCode (FcmpCc.ofCode fn) fun cc => .ok (.fcmp cc (predOf d) a b))
  | 0x1B#6 => decFcvt fn d a b
  | 0x20#6 => withCode (LdW.ofCode (fWidth w)) fun x => .ok (.ld x d a (fImm13 w))
  | 0x21#6 => withCode (StW.ofCode (fWidth w)) fun x => .ok (.st x d a (fImm13 w))
  | 0x22#6 => chk ((fWidth w).extractLsb' 2 1 == 0) .reserved
      (.ok (.lda ((fWidth w).extractLsb' 0 2) d a (fImm13 w)))
  | 0x23#6 => decAmo fn d a b
  | _ => .error .reserved

/-- limm takes both S slots (R76, R87). -/
def decodeLimm (s0 s1 : BitVec 32) : Dec := .ok (.limm (fD s0) (s1 ++ s0.extractLsb' 0 21))

/-! ## C slot (R79, R88) -/

/-- Table 3.3. -/
def encC (op : BitVec 6) (g : Guard) (f : BitVec 22) : BitVec 32 := op ++ g.pg ++ BitVec.ofBool g.neg ++ f

def fGuard (w : BitVec 32) : Guard := { pg := w.extractLsb' 23 3, neg := w.extractLsb' 22 1 == 1 }
/-- The operand field, bits 21:0. -/
def fOpnd (w : BitVec 32) : BitVec 22 := w.extractLsb' 0 22

/-- A register in [21:17], the rest zero. -/
def decCReg (k : GReg → Instr) (f : BitVec 22) : Dec :=
  chk (f.extractLsb' 0 17 == 0) .unused (.ok (k (f.extractLsb' 17 5)))

/-- No operand. -/
def decCNone (i : Instr) (f : BitVec 22) : Dec := chk (f == 0) .unused (.ok i)

/-- cf.arm: [21:16] the flag, [15] the form. -/
def decArm (g : Guard) (f : BitVec 22) : Dec :=
  let cf : BitVec 6 := f.extractLsb' 16 6
  if f.extractLsb' 15 1 == 1 then .ok (.cfArmImm g cf (f.extractLsb' 0 15))
  else chk (f.extractLsb' 0 10 == 0) .unused (.ok (.cfArmReg g cf (f.extractLsb' 10 5)))

/-- cf.wait: [21] all, [20:16] the destination, [15:11] the mask. -/
def decWait (g : Guard) (f : BitVec 22) : Dec :=
  chk (f.extractLsb' 0 11 == 0) .unused <|
  if f.extractLsb' 21 1 == 1 then .ok (.cfWaitAll g (f.extractLsb' 16 5) (f.extractLsb' 11 5))
  else .ok (.cfWaitAny g (f.extractLsb' 16 5) (f.extractLsb' 11 5))

/-- sysr: the read of CORE.SAT has a row of its own. -/
def decSysr (g : Guard) (f : BitVec 22) : Dec :=
  let r : GReg := f.extractLsb' 17 5
  let n : BitVec 12 := f.extractLsb' 5 12
  chk (f.extractLsb' 0 5 == 0) .unused <|
  if sysReadOwnRow n then .ok (.coreSatRead g r) else .ok (.sysr g r n)

/-- sysw: the writes with rows of their own (Table 1.4). -/
def decSysw (g : Guard) (f : BitVec 22) : Dec :=
  let r : GReg := f.extractLsb' 17 5
  let n : BitVec 12 := f.extractLsb' 5 12
  chk (f.extractLsb' 0 5 == 0) .unused <|
  if n == 0x015 then .ok (.cfErrWrite g r)
  else if n == 0x002 then .ok (.coreRmodeWrite g r)
  else if n.extractLsb' 2 10 == 6 then .ok (.loopCntWrite g r (n.extractLsb' 0 2))
  else if n.extractLsb' 2 10 == 7 then .ok (.loopStartWrite g r (n.extractLsb' 0 2))
  else if n == 0x033 then .ok (.cycCmpWrite g r)
  else if n == 0x030 then .ok (.hubStatusWrite g r)
  else .ok (.sysw g r n)

/-- A C slot (Table 3.9). -/
def decodeC (w : BitVec 32) : Dec :=
  let g := fGuard w
  let f := fOpnd w
  match opOf w with
  | 0x00#6 => .error .zeroOp
  | 0x01#6 => .ok (.br g f)
  | 0x02#6 => decCReg (.brr g) f
  | 0x03#6 => .ok (.call g f)
  | 0x04#6 => decCReg (.callr g) f
  | 0x05#6 => decCNone (.ret g) f
  | 0x06#6 => chk (f.extractLsb' 0 5 == 0) .unused
      (chk (f.extractLsb' 5 12 != 0) .reserved (.ok (.loop g (f.extractLsb' 17 5) (f.extractLsb' 5 12))))
  | 0x07#6 => decCNone (.halt g) f
  | 0x08#6 => chk (f.extractLsb' 8 14 == 0) .unused (.ok (.trap g (f.extractLsb' 0 8)))
  | 0x09#6 => decCNone (.eret g) f
  | 0x0A#6 => decCNone (.idle g) f
  | 0x0B#6 => chk (f.extractLsb' 16 6 == 0) .unused (.ok (.brk g (f.extractLsb' 0 16)))
  | 0x10#6 => decCNone (.fireEnd g) f
  | 0x11#6 => decCNone (.fireNext g) f
  | 0x12#6 => decCReg (.split g) f
  | 0x13#6 => decCNone (.join g) f
  | 0x14#6 => decCNone (.barGrp g) f
  | 0x18#6 => decArm g f
  | 0x19#6 => decWait g f
  | 0x1A#6 => chk (f.extractLsb' 21 1 == 0 && f.extractLsb' 0 11 == 0) .unused
      (.ok (.cfFfr g (f.extractLsb' 16 5) (f.extractLsb' 11 5)))
  | 0x1B#6 => chk (f.extractLsb' 0 11 == 0) .unused
      (.ok (.cfStat g (f.extractLsb' 16 6) (f.extractLsb' 11 5)))
  | 0x20#6 => decSysr g f
  | 0x21#6 => decSysw g f
  | _ => .error .reserved

/-! ## Q slot (R80, R89) -/

/-- Table 3.4. -/
def encQ (op : BitVec 6) (g port : BitVec 5) (stall : Bool) (f : BitVec 15) : BitVec 32 :=
  op ++ g ++ port ++ BitVec.ofBool stall ++ f

def fStall (w : BitVec 32) : Bool := w.extractLsb' 15 1 == 1
/-- Fields [14:0]. -/
def fQ (w : BitVec 32) : BitVec 15 := w.extractLsb' 0 15

/-- Port field values of iq0..15 and oq0..15. -/
def iqField (n : BitVec 4) : BitVec 5 := 0#1 ++ n
def oqField (n : BitVec 4) : BitVec 5 := 1#1 ++ n
def isIq (x : BitVec 5) : Bool := x.extractLsb' 4 1 == 0
def portOf (x : BitVec 5) : BitVec 4 := x.extractLsb' 0 4

/-- A Q slot (Table 3.10). -/
def decodeQ (w : BitVec 32) : Dec :=
  let g := fD w
  let p := fA w
  let st := fStall w
  let f := fQ w
  match opOf w with
  | 0x00#6 => .error .zeroOp
  | 0x01#6 => chk (isIq p) .selector (chk (f.extractLsb' 0 14 == 0) .unused
      (.ok (.qpop g (portOf p) st (f.extractLsb' 14 1 == 1))))
  | 0x02#6 => chk (!isIq p) .selector (chk (f.extractLsb' 0 14 == 0) .unused
      (.ok (.qpush g (portOf p) st (f.extractLsb' 14 1 == 1))))
  | 0x03#6 => chk (isIq p) .selector (chk (f.extractLsb' 0 6 == 0) .unused
      (chk ((f.extractLsb' 9 6).toNat ≤ 34) .reserved
        (.ok (.qpeek g (portOf p) st (f.extractLsb' 9 6) (f.extractLsb' 6 3)))))
  | 0x04#6 => chk (isIq p) .selector (chk (f.extractLsb' 0 12 == 0) .unused
      (.ok (.qhead g (portOf p) st (f.extractLsb' 12 3))))
  | 0x05#6 => chk (isIq p) .selector (chk (g == 0 && f == 0) .unused (.ok (.qskip (portOf p) st)))
  | 0x06#6 => chk (!isIq p) .selector (chk (f.extractLsb' 0 13 == 0) .unused
      (withCode (MarkKind.ofCode (f.extractLsb' 13 2)) fun k => .ok (.qmark g (portOf p) st k)))
  | 0x07#6 => chk (!isIq p) .selector (chk (!st) .reserved (chk (f == 0) .unused (.ok (.qfree g (portOf p)))))
  | 0x08#6 => chk (isIq p) .selector (chk (!st) .reserved (chk (f == 0) .unused (.ok (.qavail g (portOf p)))))
  | 0x09#6 => chk (p.toNat ≤ 2) .reserved (chk (f == 0) .unused (.ok (.epop g p st)))
  | 0x0A#6 => chk (!st && f == 0) .unused (.ok (.mov g p))
  | 0x0B#6 => chk (predHi p && predHi g && !st && f.extractLsb' 0 14 == 0) .unused
      (.ok (.movp (predOf g) (predOf p) (f.extractLsb' 14 1 == 1)))
  | 0x0C#6 => chk (!st) .reserved (chk (f == 0) .unused (.ok (.qstat g p)))
  | 0x0D#6 => chk (isIq p) .selector (chk (g == 0 && f.extractLsb' 0 10 == 0) .unused
      (chk (f.extractLsb' 14 1 == 0) .reserved (.ok (.qcopy (portOf p) (f.extractLsb' 10 4) st))))
  | _ => .error .reserved

/-! ## V slot (R81, R82, R90, R172) -/

/-- The fields of Table 3.5. -/
structure VFields where
  h   : VHead
  op  : BitVec 8
  vd  : BitVec 8
  va  : BitVec 8
  vb  : BitVec 8
  vc  : BitVec 8
  ty  : BitVec 4
  rnd : BitVec 3
  imm : BitVec 8
  deriving DecidableEq, Repr

/-- Table 3.5. -/
def encV (f : VFields) : BitVec 64 :=
  f.h.cl ++ f.op ++ f.h.m ++ f.vd ++ f.va ++ f.vb ++ f.vc ++ f.ty ++ BitVec.ofBool f.h.ind ++ f.rnd ++ f.imm

def vFields (w : BitVec 64) : VFields :=
  { h := { cl := w.extractLsb' 60 4, m := w.extractLsb' 48 4, ind := w.extractLsb' 11 1 == 1 }
    op := w.extractLsb' 52 8, vd := w.extractLsb' 40 8, va := w.extractLsb' 32 8, vb := w.extractLsb' 24 8
    vc := w.extractLsb' 16 8, ty := w.extractLsb' 12 4, rnd := w.extractLsb' 8 3, imm := w.extractLsb' 0 8 }

/-- A v-field that names a g-register (R82). -/
def gField (g : GReg) : BitVec 8 := 0#3 ++ g
def gHi (x : BitVec 8) : Bool := x.extractLsb' 5 3 == 0
def gOf (x : BitVec 8) : GReg := x.extractLsb' 0 5
/-- A v-field that holds a mask number or a type code in [3:0]. -/
def nibField (m : BitVec 4) : BitVec 8 := 0#4 ++ m
def nibHi (x : BitVec 8) : Bool := x.extractLsb' 4 4 == 0
def nibOf (x : BitVec 8) : BitVec 4 := x.extractLsb' 0 4

/-- Class B with rounding, a type accepted by `ok`. [DEDUCED, log 55] -/
def decVB (f : VFields) (ok : Ty → Bool) (k : VHead → Ty → Rnd → BitVec 8 → BitVec 8 → BitVec 8 → Instr) : Dec :=
  withCode (Ty.ofCode f.ty) fun t => withCode (Rnd.ofCode f.rnd) fun r =>
  chk (ok t && f.imm == 0) .reserved <| chk (f.vc == 0) .unused (.ok (k f.h t r f.vd f.va f.vb))

/-- Class T with rounding. -/
def decVT (f : VFields) (k : VHead → Ty → Rnd → BitVec 8 → BitVec 8 → BitVec 8 → BitVec 8 → Instr) : Dec :=
  withCode (Ty.ofCode f.ty) fun t => withCode (Rnd.ofCode f.rnd) fun r =>
  chk (t.isVf && f.imm == 0) .reserved (.ok (k f.h t r f.vd f.va f.vb f.vc))

/-- Class U with rounding. -/
def decVU (f : VFields) (k : VHead → Ty → Rnd → BitVec 8 → BitVec 8 → Instr) : Dec :=
  withCode (Ty.ofCode f.ty) fun t => withCode (Rnd.ofCode f.rnd) fun r =>
  chk (t.isVf && f.imm == 0) .reserved <| chk (f.vb == 0 && f.vc == 0) .unused (.ok (k f.h t r f.vd f.va))

/-- Class B without rounding. -/
def decVB0 (f : VFields) (ok : Ty → Bool) (k : VHead → Ty → BitVec 8 → BitVec 8 → BitVec 8 → Instr) : Dec :=
  withCode (Ty.ofCode f.ty) fun t =>
  chk (ok t && f.imm == 0) .reserved <| chk (f.vc == 0 && f.rnd == 0) .unused (.ok (k f.h t f.vd f.va f.vb))

/-- Class U without rounding. -/
def decVU0 (f : VFields) (ok : Ty → Bool) (k : VHead → Ty → BitVec 8 → BitVec 8 → Instr) : Dec :=
  withCode (Ty.ofCode f.ty) fun t =>
  chk (ok t && f.imm == 0) .reserved <|
  chk (f.vb == 0 && f.vc == 0 && f.rnd == 0) .unused (.ok (k f.h t f.vd f.va))

/-- viadd and visub: imm8 1 saturates (R181). -/
def decVSat (f : VFields) (k : VHead → Ty → Bool → BitVec 8 → BitVec 8 → BitVec 8 → Instr) : Dec :=
  withCode (Ty.ofCode f.ty) fun t =>
  chk (t.isInt && (f.imm == 0 || f.imm == 1)) .reserved <|
  chk (f.vc == 0 && f.rnd == 0) .unused (.ok (k f.h t (f.imm == 1) f.vd f.va f.vb))

/-- Shifts: an immediate amount below the width, or 0xFF for an amount from vb (R182). -/
def decVShift (f : VFields) (ki : VHead → Ty → BitVec 8 → BitVec 8 → BitVec 8 → Instr)
    (kb : VHead → Ty → BitVec 8 → BitVec 8 → BitVec 8 → Instr) : Dec :=
  withCode (Ty.ofCode f.ty) fun t =>
  chk (f.vc == 0 && f.rnd == 0) .unused <|
  if f.imm == 0xFF then chk t.isInt .reserved (.ok (kb f.h t f.vd f.va f.vb))
  else chk (amountOk t f.imm) .reserved (chk (f.vb == 0) .unused (.ok (ki f.h t f.vd f.va f.imm)))

/-- Class K: the second type in vc[3:0]; `rz` says when the rounding field must be 0. -/
def decVK (f : VFields) (ok : Ty → Ty → Bool) (rz : Ty → Ty → Bool) (vb0 : Bool)
    (k : VHead → Ty → Ty → Rnd → BitVec 8 → BitVec 8 → BitVec 8 → Instr) : Dec :=
  withCode (Ty.ofCode f.ty) fun t => withCode (Rnd.ofCode f.rnd) fun r =>
  chk (nibHi f.vc && (!vb0 || f.vb == 0)) .unused <|
  withCode (Ty.ofCode (nibOf f.vc)) fun u =>
  chk (ok t u && f.imm == 0) .reserved <| chk (!rz t u || r == .rne) .unused (.ok (k f.h t u r f.vd f.va f.vb))

/-- No type and no rounding. -/
def noTy (f : VFields) (r : Dec) : Dec := chk (f.ty == 0 && f.rnd == 0) .unused r

/-- Mask operations: no lane mask, type, rounding or indirection; mask numbers in [3:0] (R209). -/
def decMask (f : VFields) (r : Dec) : Dec :=
  noTy f <| chk (f.h.m == 0 && !f.h.ind && f.vc == 0 && nibHi f.vd && nibHi f.va && nibHi f.vb) .unused r

/-- Memory forms: va names a g-register (R82). -/
def decMem (f : VFields) (r : Dec) : Dec := chk (gHi f.va && f.vc == 0) .unused (noTy f r)

/-- The floating-point part of Table 3.11, ops 0x01..0x26. -/
def decodeVF (f : VFields) : Dec :=
  match f.op with
  | 0x01#8 => decVB f Ty.isVf .vadd
  | 0x02#8 => decVB f Ty.isVf .vsub
  | 0x03#8 => decVB f Ty.isVf .vmul
  | 0x04#8 => decVT f .vfma
  | 0x05#8 => decVT f .vfms
  | 0x06#8 => decVT f .vfnma
  | 0x07#8 => decVB0 f Ty.isVf .vmin
  | 0x08#8 => decVB0 f Ty.isVf .vmax
  | 0x09#8 => decVU0 f Ty.isVf .vabs
  | 0x0A#8 => decVU0 f Ty.isVf .vneg
  | 0x0B#8 => decVB0 f Ty.isVf .vcopysign
  | 0x0C#8 => decVB f Ty.isVf .vdiv
  | 0x0D#8 => decVU f .vsqrt
  | 0x20#8 => decVU f .vrcp
  | 0x21#8 => decVU f .vrsq
  | 0x22#8 => decVU f .vexp2
  | 0x23#8 => decVU f .vlog2
  | 0x24#8 => decVU f .vsin
  | 0x25#8 => decVU f .vcos
  | 0x26#8 => decVU f .vtanh
  | _ => .error .reserved

/-- The integer part, ops 0x30..0x41. -/
def decodeVI (f : VFields) : Dec :=
  match f.op with
  | 0x30#8 => decVSat f .viadd
  | 0x31#8 => decVSat f .visub
  | 0x32#8 => decVB0 f Ty.isInt .vimul
  | 0x33#8 => decVB0 f Ty.isInt .vimulh
  | 0x34#8 => decVB0 f Ty.isInt .vimin
  | 0x35#8 => decVB0 f Ty.isInt .vimax
  | 0x36#8 => decVB0 f Ty.isInt .vand
  | 0x37#8 => decVB0 f Ty.isInt .vor
  | 0x38#8 => decVB0 f Ty.isInt .vxor
  | 0x39#8 => decVU0 f Ty.isInt .vnot
  | 0x3A#8 => decVShift f .vshlImm .vshlVb
  | 0x3B#8 => decVShift f .vshrImm .vshrVb
  | 0x3C#8 => decVShift f .vsarImm .vsarVb
  | 0x3D#8 => withCode (Ty.ofCode f.ty) fun t =>
      let pos : BitVec 5 := f.imm.extractLsb' 0 5
      let len1 : BitVec 3 := f.imm.extractLsb' 5 3
      chk (t.isInt && pos.toNat + len1.toNat + 1 ≤ t.width) .reserved <|
      chk (f.vb == 0 && f.vc == 0 && f.rnd == 0) .unused (.ok (.vbext f.h t f.vd f.va pos len1))
  | 0x3E#8 => withCode (Ty.ofCode f.ty) fun t =>
      chk (amountOk t f.imm) .reserved <|
      chk (f.vc == 0 && f.rnd == 0) .unused (.ok (.vfsh f.h t f.vd f.va f.vb f.imm))
  | 0x3F#8 => decVU0 f Ty.isInt .vpopc
  | 0x40#8 => decVU0 f Ty.isInt .vclz
  | 0x41#8 => withCode (Ty.ofCode f.ty) fun t =>
      chk (nibHi f.imm) .reserved <|
      withCode (Ty.ofCode (nibOf f.imm)) fun u =>
      chk (t.isInt && u.isInt && u.width ≤ t.width && u != t) .reserved <|
      chk (f.vb == 0 && f.vc == 0 && f.rnd == 0) .unused (.ok (.vsatn f.h t u f.vd f.va))
  | _ => .error .reserved

/-- Compare, select, masks and conversions, ops 0x50..0x65. -/
def decodeVC (f : VFields) : Dec :=
  match f.op with
  | 0x50#8 => withCode (Ty.ofCode f.ty) fun t =>
      withCode (VcmpCc.ofCode f.imm) fun cc =>
      chk (t.isVf || (t.isInt && cc != .un)) .reserved <|
      chk (nibHi f.vd && !f.h.ind && f.vc == 0 && f.rnd == 0) .unused
        (.ok (.vcmp cc f.h t (nibOf f.vd) f.va f.vb))
  | 0x51#8 => noTy f <| chk (f.imm == 0) .reserved <| chk (nibHi f.vc) .unused
      (.ok (.vsel f.h f.vd f.va f.vb (nibOf f.vc)))
  | 0x58#8 => decMask f <| chk (f.imm == 0) .reserved (.ok (.mand f.h.cl (nibOf f.vd) (nibOf f.va) (nibOf f.vb)))
  | 0x59#8 => decMask f <| chk (f.imm == 0) .reserved (.ok (.mor f.h.cl (nibOf f.vd) (nibOf f.va) (nibOf f.vb)))
  | 0x5A#8 => decMask f <| chk (f.imm == 0) .reserved (.ok (.mxor f.h.cl (nibOf f.vd) (nibOf f.va) (nibOf f.vb)))
  | 0x5B#8 => decMask f <| chk (f.imm == 0) .reserved <| chk (f.vb == 0) .unused
      (.ok (.mnot f.h.cl (nibOf f.vd) (nibOf f.va)))
  | 0x5C#8 => decMask f <| chk (f.imm == 0) .reserved <| chk (f.vb == 0) .unused
      (.ok (.mpopc f.h.cl (nibOf f.vd) (nibOf f.va)))
  | 0x5D#8 => decMask f <| chk (f.imm == 0) .reserved <| chk (f.vb == 0) .unused
      (.ok (.mfirst f.h.cl (nibOf f.vd) (nibOf f.va)))
  | 0x5E#8 => decMask f <| chk (f.imm.toNat ≤ 0x82) .reserved <| chk (f.va == 0 && f.vb == 0) .unused
      (.ok (.mset f.h.cl (nibOf f.vd) f.imm))
  | 0x60#8 => decVK f (fun _ _ => true) Ty.cvtExact true (fun h t u r vd va _ => .vcvt h t u r vd va)
  | 0x61#8 => decVB0 f (fun t => t.width != 32) .vpack
  | 0x62#8 => withCode (Ty.ofCode f.ty) fun t =>
      chk (t.width != 32 && (f.imm == 0 || f.imm == 1)) .reserved <|
      chk (f.vb == 0 && f.vc == 0 && f.rnd == 0) .unused (.ok (.vunpack f.h t (f.imm == 1) f.vd f.va))
  | 0x63#8 => decVK f (fun t q => t.isVf && q.isQuant) (fun _ _ => true) true
      (fun h t q _ vd va _ => .vscale h t q vd va)
  | 0x64#8 => decVK f (fun t q => t.isVf && q.isQuant) (fun _ _ => false) false .vquant
  | 0x65#8 => decVK f (fun t q => t.isVf && q.isQuant) (fun _ _ => false) false .vdeq
  | _ => .error .reserved

/-- Memory and queue forms, ops 0x70..0x7C. -/
def decodeVM (f : VFields) : Dec :=
  match f.op with
  | 0x70#8 => decMem f <| chk (f.vb == 0) .unused (.ok (.vld f.h f.vd (gOf f.va) f.imm))
  | 0x71#8 => decMem f <| chk (f.vb == 0) .unused (.ok (.vst f.h f.vd (gOf f.va) f.imm))
  | 0x72#8 => decMem f <| chk (f.imm == 0) .reserved <| chk (gHi f.vb) .unused
      (.ok (.vlds f.h f.vd (gOf f.va) (gOf f.vb)))
  | 0x73#8 => decMem f <| chk (f.imm == 0) .reserved <| chk (gHi f.vb) .unused
      (.ok (.vsts f.h f.vd (gOf f.va) (gOf f.vb)))
  | 0x74#8 => decMem f <| chk (f.imm == 0) .reserved (.ok (.vgather f.h f.vd (gOf f.va) f.vb))
  | 0x75#8 => decMem f <| chk (f.imm == 0) .reserved (.ok (.vscatter f.h f.vd (gOf f.va) f.vb))
  | 0x76#8 => decMem f <| chk (f.imm == 0) .reserved <| chk (f.vb == 0) .unused (.ok (.vldb f.h f.vd (gOf f.va)))
  | 0x77#8 => noTy f <| chk (f.imm == 0) .reserved <| chk (f.vc == 0) .unused (.ok (.vrget f.h f.vd f.va f.vb))
  | 0x78#8 => noTy f <| chk (f.imm == 0) .reserved <| chk (f.vc == 0) .unused (.ok (.vrput f.h f.vd f.va f.vb))
  | 0x79#8 => withCode (Ty.ofCode f.ty) fun t =>
      chk (t != .f4 && (f.imm == 0 || f.imm == 1)) .reserved <|
      chk (gHi f.va && gHi f.vb && f.vc == 0 && f.rnd == 0) .unused
        (.ok (.vcmprSt f.h t (f.imm == 1) f.vd (gOf f.va) (gOf f.vb)))
  | 0x7A#8 => withCode (Ty.ofCode f.ty) fun t =>
      chk (t != .f4 && f.imm == 0) .reserved <|
      chk (gHi f.va && f.vb == 0 && f.vc == 0 && f.rnd == 0) .unused (.ok (.vexpdLd f.h t f.vd (gOf f.va)))
  | 0x7B#8 => decMem f <| chk (f.imm == 0) .reserved <| chk (f.vb == 0 && f.h.m == 0) .unused
      (.ok (.vqpop f.h f.vd (gOf f.va)))
  | 0x7C#8 => withCode (Ty.ofCode f.ty) fun t =>
      chk (f.imm == 0 || f.imm == 1) .reserved <|
      chk (gHi f.va && gHi f.vb && f.vc == 0 && f.rnd == 0 && f.h.m == 0) .unused
        (.ok (.vqpush f.h t (f.imm == 1) f.vd (gOf f.va) (gOf f.vb)))
  | _ => .error .reserved

/-- Permutes, reductions and register moves, ops 0x90..0x9B. -/
def decodeVP (f : VFields) : Dec :=
  match f.op with
  | 0x90#8 => noTy f <| chk (f.imm == 0) .reserved <| chk (f.vc == 0) .unused (.ok (.vperm f.h f.vd f.va f.vb))
  | 0x91#8 => noTy f <| withCode (ShufPat.ofCode f.imm) fun p =>
      chk (f.vc == 0 && (!p.oneSource || f.vb == 0)) .unused (.ok (.vshuf f.h p f.vd f.va f.vb))
  | 0x92#8 => noTy f <| chk (f.imm.extractLsb' 7 1 == 0) .reserved <| chk (f.vb == 0 && f.vc == 0) .unused
      (.ok (.vrotl f.h f.vd f.va (f.imm.extractLsb' 0 7)))
  | 0x93#8 => noTy f <| chk (f.imm == 0) .reserved <| chk (gHi f.vb && f.vc == 0) .unused
      (.ok (.vxcl f.h f.vd f.va (gOf f.vb)))
  | 0x94#8 => withCode (Ty.ofCode f.ty) fun t => withCode (RedOp.ofCode f.imm) fun op =>
      withCode (Rnd.ofCode f.rnd) fun r =>
      chk (op.accepts t) .reserved <|
      chk (f.vb == 0 && f.vc == 0 && redOk op t r) .unused (.ok (.vred f.h op t r f.vd f.va))
  | 0x95#8 => decVU0 f (fun t => t != .f4) .vargmax
  | 0x96#8 => withCode (Ty.ofCode f.ty) fun t => withCode (ScanOp.ofCode f.imm) fun op =>
      withCode (Rnd.ofCode f.rnd) fun r =>
      chk (op.red.accepts t) .reserved <|
      chk (f.vb == 0 && f.vc == 0 && redOk op.red t r) .unused (.ok (.vscan f.h op t r f.vd f.va))
  | 0x97#8 => noTy f <| chk (f.imm == 0) .reserved <| chk (f.va == 0 && f.vb == 0 && f.vc == 0) .unused
      (.ok (.viota f.h f.vd))
  | 0x98#8 => noTy f <| chk (f.imm == 0) .reserved <| chk (f.va == 0 && gHi f.vb && f.vc == 0) .unused
      (.ok (.vmovs f.h f.vd (gOf f.vb)))
  | 0x99#8 => noTy f <| chk (f.imm == 0) .reserved <| chk (gHi f.vb && f.vc == 0) .unused
      (.ok (.vbcast f.h f.vd f.va (gOf f.vb)))
  | 0x9A#8 => noTy f <| chk (f.imm == 0) .reserved <| chk (f.va == 0 && f.vb == 0 && f.vc == 0) .unused
      (.ok (.vzero f.h f.vd))
  | 0x9B#8 => noTy f <|
      chk (f.h.m == 0 && !f.h.ind && f.va == 0 && f.vc == 0 && f.vd.extractLsb' 3 5 == 0 && gHi f.vb) .unused
        (.ok (.kset f.h.cl (f.vd.extractLsb' 0 3) (gOf f.vb) f.imm))
  | _ => .error .reserved

/-- A V slot (Table 3.11). A cluster mask of 0 is judged with the mode (R81, R92). -/
def decodeV (w : BitVec 64) : Dec :=
  let f := vFields w
  if f.op == 0 then .error .zeroOp
  else if f.op.toNat < 0x30 then decodeVF f
  else if f.op.toNat < 0x50 then decodeVI f
  else if f.op.toNat < 0x70 then decodeVC f
  else if f.op.toNat < 0x90 then decodeVM f
  else decodeVP f

/-! ## X slot (R83, R84, R91) -/

/-- The fields of the MX format (Table 3.6). -/
structure MxFields where
  op    : BitVec 7
  ac    : BitVec 4
  bat   : Bool
  pg    : PReg
  src   : BitVec 8
  dst   : BitVec 8
  rows  : BitVec 8
  af    : BitVec 4
  bf    : BitVec 4
  flags : BitVec 16
  deriving DecidableEq, Repr

def encMx (f : MxFields) : BitVec 64 :=
  0#1 ++ f.op ++ f.ac ++ BitVec.ofBool f.bat ++ f.pg ++ f.src ++ f.dst ++ f.rows ++ f.af ++ f.bf ++ f.flags

def mxFields (w : BitVec 64) : MxFields :=
  { op := w.extractLsb' 56 7, ac := w.extractLsb' 52 4, bat := w.extractLsb' 51 1 == 1, pg := w.extractLsb' 48 3
    src := w.extractLsb' 40 8, dst := w.extractLsb' 32 8, rows := w.extractLsb' 24 8, af := w.extractLsb' 20 4
    bf := w.extractLsb' 16 4, flags := w.extractLsb' 0 16 }

/-- The fields of the EN format (Table 3.6). -/
structure EnFields where
  op  : BitVec 7
  pg  : PReg
  cf  : BitVec 6
  ga  : GReg
  gb  : GReg
  gc  : GReg
  imm : BitVec 32
  deriving DecidableEq, Repr

def encEn (f : EnFields) : BitVec 64 := 1#1 ++ f.op ++ f.pg ++ f.cf ++ f.ga ++ f.gb ++ f.gc ++ f.imm

def enFields (w : BitVec 64) : EnFields :=
  { op := w.extractLsb' 56 7, pg := w.extractLsb' 53 3, cf := w.extractLsb' 47 6, ga := w.extractLsb' 42 5
    gb := w.extractLsb' 37 5, gc := w.extractLsb' 32 5, imm := w.extractLsb' 0 32 }

/-- The MX map (Table 3.12). -/
def decodeMx (f : MxFields) : Dec :=
  match f.op with
  | 0x00#7 => .error .zeroOp
  | 0x01#7 => withSel (ASel.ofCode f.src) fun s => chk s.forBat .selector <|
      withCode (Ty.ofCode f.bf) fun t =>
      withCode (BatForm.ofCode (f.flags.extractLsb' 0 2)) fun fm =>
      chk (fm.accepts t) .reserved <|
      chk (f.ac == 0 && f.dst == 0 && f.rows == 0 && f.af == 0 && f.flags.extractLsb' 2 14 == 0) .unused
        (.ok (.mbatLd f.pg f.bat s t fm))
  | 0x02#7 => chk (f.ac == 0 && f.src == 0 && f.dst == 0 && f.rows == 0 && f.af == 0 && f.bf == 0 && f.flags == 0)
      .unused (.ok (.mbatSel f.pg f.bat))
  | 0x03#7 => withSel (ASel.ofCode f.src) fun s =>
      withCode (Ty.ofCode f.af) fun ta => withCode (Ty.ofCode f.bf) fun tb =>
      chk (rowsOk f.rows) .reserved <| chk (f.dst == 0 && f.flags.extractLsb' 1 15 == 0) .unused
        (.ok (.mma f.pg f.ac f.bat s f.rows ta tb (f.flags.extractLsb' 0 1 == 1)))
  | 0x04#7 => chk (!f.bat && f.src == 0 && f.dst == 0 && f.rows == 0 && f.af == 0 && f.bf == 0 && f.flags == 0)
      .unused (.ok (.macClr f.pg f.ac))
  | 0x05#7 => withSel (DSel.ofCode f.dst) fun d => withCode (Ty.ofCode f.bf) fun t =>
      withCode (Rnd.ofCode (f.flags.extractLsb' 0 3)) fun r =>
      chk (rowsOk f.rows) .reserved <|
      chk (!f.bat && f.src == 0 && f.af == 0 && f.flags.extractLsb' 3 13 == 0) .unused
        (.ok (.macRd f.pg f.ac d f.rows t r))
  | 0x06#7 => withSel (DSel.ofCode f.dst) fun d => withCode (Ty.ofCode f.bf) fun q =>
      withCode (Rnd.ofCode (f.flags.extractLsb' 0 3)) fun r =>
      chk (rowsOk f.rows) .reserved <|
      chk (!f.bat && f.src == 0 && f.af == 0 && f.flags.extractLsb' 4 12 == 0) .unused
        (.ok (.macRdq f.pg f.ac d f.rows q r (f.flags.extractLsb' 3 1 == 1)))
  | 0x07#7 => chk (!f.bat && f.src == 0 && f.dst == 0 && f.rows == 0 && f.af == 0 && f.bf == 0) .unused
      (.ok (.mrows f.pg f.ac f.flags))
  | 0x08#7 => withSel (ASel.ofCode f.src) fun s => chk s.forScale .selector <|
      chk (f.ac == 0 && f.dst == 0 && f.rows == 0 && f.af == 0 && f.bf == 0 && f.flags == 0) .unused
        (.ok (.mscale f.pg f.bat s))
  | 0x09#7 => chk (f.dst.extractLsb' 7 1 == 0) .selector <|
      chk (!f.bat && f.src == 0 && f.rows == 0 && f.af == 0 && f.bf == 0 && f.flags == 0) .unused
        (.ok (.mstat f.pg f.ac (f.dst.extractLsb' 0 7)))
  | 0x0A#7 => chk (!f.bat && f.src == 0 && f.dst == 0 && f.rows == 0 && f.af == 0 && f.bf == 0 && f.flags == 0)
      .unused (.ok (.mwait f.pg f.ac))
  | _ => .error .reserved

/-- No flag, registers beyond those used zero, imm32 zero. -/
def en0 (f : EnFields) (ok : Bool) (i : Instr) : Dec := chk (f.cf == 0 && ok) .unused (.ok i)

/-- Copy, remote and fence commands (Table 11.1). -/
def decodeEnA (f : EnFields) : Dec :=
  match f.op with
  | 0x00#7 => .error .zeroOp
  | 0x01#7 => chk (f.imm == 0) .unused (.ok (.dxCopy f.pg f.cf f.ga f.gb f.gc))
  | 0x02#7 => chk (f.imm == 0) .unused (.ok (.dxPat f.pg f.cf f.ga f.gb f.gc))
  | 0x03#7 => chk (f.imm.extractLsb' 5 3 == 0 && f.imm.extractLsb' 17 15 == 0) .unused
      (.ok (.dxGat f.pg f.cf f.ga f.gb f.gc (f.imm.extractLsb' 0 5) (f.imm.extractLsb' 8 9)))
  | 0x04#7 => chk (f.imm.extractLsb' 5 3 == 0 && f.imm.extractLsb' 17 15 == 0) .unused
      (.ok (.dxSct f.pg f.cf f.ga f.gb f.gc (f.imm.extractLsb' 0 5) (f.imm.extractLsb' 8 9)))
  | 0x05#7 => chk (f.gc == 0 && f.imm.extractLsb' 3 29 == 0) .unused
      (.ok (.dxStream f.pg f.cf f.ga f.gb (f.imm.extractLsb' 0 2) (f.imm.extractLsb' 2 1 == 1)))
  | 0x06#7 => en0 f (f.ga == 0 && f.gb == 0 && f.gc == 0 && f.imm == 0) (.dxDrain f.pg)
  | 0x08#7 => chk (f.imm == 0) .unused (.ok (.rst f.pg f.cf f.ga f.gb f.gc))
  | 0x09#7 => chk (f.imm.extractLsb' 1 31 == 0) .unused
      (if f.imm.extractLsb' 0 1 == 1 then .ok (.rldIq f.pg f.cf f.ga f.gb f.gc)
       else .ok (.rld f.pg f.cf f.ga f.gb f.gc))
  | 0x0A#7 => chk (f.imm.extractLsb' 5 27 == 0) .unused <|
      withCode (RamoOp.ofCode (f.imm.extractLsb' 0 4)) fun op =>
      .ok (.ramo f.pg f.cf f.ga f.gb f.gc op (f.imm.extractLsb' 4 1 == 1))
  | 0x0B#7 => chk (f.gc == 0 && f.imm == 0) .unused (.ok (.rcfAdd f.pg f.cf f.ga f.gb))
  | 0x0C#7 => chk (f.ga == 0 && f.gb == 0 && f.gc == 0) .unused (.ok (.cfAdd f.pg f.cf f.imm))
  | 0x0D#7 => chk (f.cf == 0 && f.ga == 0 && f.gb == 0 && f.gc == 0 && f.imm.extractLsb' 2 30 == 0) .unused <|
      (match f.imm.extractLsb' 0 2 with
       | 0#2 => .ok (.fenceCore f.pg)
       | 1#2 => .ok (.fencePkg f.pg)
       | 2#2 => .ok (.fenceDom f.pg)
       | _ => .error .reserved)
  | 0x0E#7 => chk (f.gc == 0 && f.imm == 0) .unused (.ok (.fenceF f.pg f.cf f.ga f.gb))
  | _ => .error .reserved

/-- dbg.ctl by action (Table 12.7). -/
def decDbg (f : EnFields) : Dec :=
  chk (f.cf == 0 && f.gb == 0 && f.gc == 0 && f.imm.extractLsb' 4 28 == 0) .unused <|
  match f.imm.extractLsb' 0 4 with
  | 0#4 => .ok (.dbgCtlHalt f.pg f.ga)
  | 1#4 => .ok (.dbgCtlHaltq f.pg f.ga)
  | 2#4 => .ok (.dbgCtlRun f.pg f.ga)
  | 3#4 => .ok (.dbgCtlStep f.pg f.ga)
  | 4#4 => .ok (.dbgCtlResume f.pg f.ga)
  | 5#4 => .ok (.dbgCtlSkip f.pg f.ga)
  | 6#4 => .ok (.dbgCtlAbort f.pg f.ga)
  | _ => .error .reserved

/-- Kiln, configuration and privileged commands (Table 12.1). -/
def decodeEnB (f : EnFields) : Dec :=
  match f.op with
  | 0x10#7 => en0 f (f.gb == 0 && f.gc == 0 && f.imm == 0) (.kilnAdmit f.pg f.ga)
  | 0x11#7 => en0 f (f.ga == 0 && f.gb == 0 && f.gc == 0 && f.imm.extractLsb' 7 25 == 0)
      (.kilnStep f.pg (f.imm.extractLsb' 0 4) (f.imm.extractLsb' 4 3))
  | 0x12#7 => chk (f.gc == 0 && f.imm.extractLsb' 3 29 == 0) .unused
      (.ok (.kilnRet f.pg f.cf f.ga f.gb (f.imm.extractLsb' 0 3)))
  | 0x13#7 => en0 f (f.gc == 0 && f.imm == 0) (.kilnRd f.pg f.ga f.gb)
  | 0x14#7 => en0 f (f.gb == 0 && f.gc == 0 && f.imm == 0) (.kilnCancel f.pg f.ga)
  | 0x15#7 => en0 f (f.gb == 0 && f.gc == 0 && f.imm == 0) (.kilnEvict f.pg f.ga)
  | 0x16#7 => en0 f (f.gb == 0 && f.gc == 0 && f.imm.extractLsb' 2 30 == 0)
      (.kilnAbort f.pg f.ga (f.imm.extractLsb' 0 1 == 1) (f.imm.extractLsb' 1 1 == 1))
  | 0x18#7 => en0 f (f.imm == 0) (.cfgLoad f.pg f.ga f.gb f.gc)
  | 0x19#7 => en0 f (f.gb == 0 && f.gc == 0 && f.imm.extractLsb' 1 31 == 0)
      (.cfgCommit f.pg f.ga (f.imm.extractLsb' 0 1 == 1))
  | 0x1A#7 => en0 f (f.gb == 0 && f.gc == 0 && f.imm == 0) (.cfgAbort f.pg f.ga)
  | 0x1B#7 => en0 f (f.gb == 0 && f.gc == 0 && f.imm == 0) (.cfgTok f.pg f.ga)
  | 0x1C#7 => en0 f (f.gc == 0 && f.imm.extractLsb' 4 28 == 0) (.segSet f.pg (f.imm.extractLsb' 0 4) f.ga f.gb)
  | 0x1D#7 => en0 f (f.imm.extractLsb' 8 24 == 0) (.winSet f.pg (f.imm.extractLsb' 0 8) f.ga f.gb f.gc)
  | 0x1E#7 => en0 f (f.ga == 0 && f.gb == 0 && f.gc == 0 && f.imm.extractLsb' 8 24 == 0)
      (.winRevoke f.pg (f.imm.extractLsb' 0 8))
  | 0x1F#7 => en0 f (f.gb == 0 && f.gc == 0 && f.imm.extractLsb' 1 31 == 0)
      (if f.imm.extractLsb' 0 1 == 1 then .circBindRel f.pg f.ga else .circBind f.pg f.ga)
  | 0x20#7 => en0 f (f.gb == 0 && f.gc == 0 && f.imm == 0) (.eventPop f.pg f.ga)
  | 0x21#7 => en0 f (f.gc == 0 && f.imm == 0) (.logRd f.pg f.ga f.gb)
  | 0x22#7 => decDbg f
  | _ => .error .reserved

/-- An X slot: bit 63 chooses the format (R83). -/
def decodeX (w : BitVec 64) : Dec :=
  if w.extractLsb' 63 1 == 0 then decodeMx (mxFields w)
  else if (enFields w).op.toNat < 0x10 then decodeEnA (enFields w)
  else decodeEnB (enFields w)

/-! ## Bundles (R74 to R76) -/

/-- The slots of a bundle. -/
inductive Slot where
  | s0 | s1 | c | q | v | x
  deriving DecidableEq, Repr

/-- TRAP.CAUSE.SLOT (Table 1.10). -/
def Slot.code : Slot → Nat
  | .s0 => 0 | .s1 => 1 | .c => 2 | .q => 3 | .v => 4 | .x => 5

/-- Table 3.1. -/
def bS0 (b : BitVec 256) : BitVec 32 := b.extractLsb' 0 32
def bS1 (b : BitVec 256) : BitVec 32 := b.extractLsb' 32 32
def bC (b : BitVec 256) : BitVec 32 := b.extractLsb' 64 32
def bQ (b : BitVec 256) : BitVec 32 := b.extractLsb' 96 32
def bV (b : BitVec 256) : BitVec 64 := b.extractLsb' 128 64
def bX (b : BitVec 256) : BitVec 64 := b.extractLsb' 192 64

/-- A slot that is not all zero, with what it decodes to (R75). -/
def slotIf {n : Nat} (s : Slot) (w : BitVec n) (d : BitVec n → Dec) : List (Slot × Dec) :=
  if w == 0 then [] else [(s, d w)]

/-- The S slots: limm in S0 takes S1 as data (R76). -/
def decodeSs (s0 s1 : BitVec 32) : List (Slot × Dec) :=
  if opOf s0 == 0x11 then [(.s0, decodeLimm s0 s1)] else slotIf .s0 s0 decodeS ++ slotIf .s1 s1 decodeS

/-- A bundle: the slots it fills, in the order S0, S1, C, Q, V, X; an all-zero or all-one bundle faults whole (R75). -/
def decodeBundle (b : BitVec 256) : Except DecErr (List (Slot × Dec)) :=
  if b == 0 || b == BitVec.allOnes 256 then .error .zeroOp
  else .ok (decodeSs (bS0 b) (bS1 b) ++ slotIf .c (bC b) decodeC ++ slotIf .q (bQ b) decodeQ ++
    slotIf .v (bV b) decodeV ++ slotIf .x (bX b) decodeX)

/-! ## The encoder -/

/-- The words of an instruction, with the slot they belong to. -/
inductive Code where
  | s (w : BitVec 32)
  | limm (s0 s1 : BitVec 32)
  | c (w : BitVec 32)
  | q (w : BitVec 32)
  | v (w : BitVec 64)
  | x (w : BitVec 64)
  deriving DecidableEq, Repr

/-- What the slot decoders read from an instruction's words. -/
def decodeCode : Code → Dec
  | .s w => decodeS w
  | .limm s0 s1 => decodeLimm s0 s1
  | .c w => decodeC w
  | .q w => decodeQ w
  | .v w => decodeV w
  | .x w => decodeX w

/-- The bundle that holds an instruction's words and nothing else; an S-slot operation goes into S0. -/
def Code.bundle : Code → BitVec 256
  | .s w => w.setWidth 256
  | .limm s0 s1 => (s1 ++ s0 : BitVec 64).setWidth 256
  | .c w => w.setWidth 256 <<< 64
  | .q w => w.setWidth 256 <<< 96
  | .v w => w.setWidth 256 <<< 128
  | .x w => w.setWidth 256 <<< 192

/-- V-slot words by class; `m` is the lane mask, types by their codes. -/
def vw (h : VHead) (op vd va vb vc : BitVec 8) (ty : BitVec 4) (r : BitVec 3) (imm : BitVec 8) : Option Code :=
  some (.v (encV { h := h, op := op, vd := vd, va := va, vb := vb, vc := vc, ty := ty, rnd := r, imm := imm }))

/-- A mask operation's words: no lane mask. -/
def mw (cl : BitVec 4) (op vd va vb imm : BitVec 8) : Option Code :=
  vw { cl := cl, m := 0, ind := false } op vd va vb 0 0 0 imm

/-- MX words; the fields a form leaves unused are zero. -/
def mx (op : BitVec 7) (ac : BitVec 4) (bat : Bool) (pg : PReg) (src dst rows : BitVec 8) (af bf : BitVec 4)
    (flags : BitVec 16) : Option Code :=
  some (.x (encMx { op := op, ac := ac, bat := bat, pg := pg, src := src, dst := dst, rows := rows, af := af,
                    bf := bf, flags := flags }))

/-- EN words. -/
def en (op : BitVec 7) (pg : PReg) (cf : BitVec 6) (ga gb gc : GReg) (imm : BitVec 32) : Option Code :=
  some (.x (encEn { op := op, pg := pg, cf := cf, ga := ga, gb := gb, gc := gc, imm := imm }))

def sw (op : BitVec 6) (d a b : BitVec 5) (fn : BitVec 11) : Option Code := some (.s (encS op d a b fn))
def si (op : BitVec 6) (d a : BitVec 5) (imm : BitVec 16) : Option Code := some (.s (encSImm op d a imm))
def sm (op : BitVec 6) (d a : BitVec 5) (w : BitVec 3) (imm : BitVec 13) : Option Code := some (.s (encSMem op d a w imm))
def cw (op : BitVec 6) (g : Guard) (f : BitVec 22) : Option Code := some (.c (encC op g f))
def qw (op : BitVec 6) (g port : BitVec 5) (stall : Bool) (f : BitVec 15) : Option Code := some (.q (encQ op g port stall f))

/-- S-slot instructions. -/
def encodeS : Instr → Option Code
  | .add d a b => sw 0x01 d a b 0x000
  | .sub d a b => sw 0x01 d a b 0x001
  | .and d a b => sw 0x01 d a b 0x002
  | .or d a b => sw 0x01 d a b 0x003
  | .xor d a b => sw 0x01 d a b 0x004
  | .shl d a b => sw 0x01 d a b 0x005
  | .shr d a b => sw 0x01 d a b 0x006
  | .sar d a b => sw 0x01 d a b 0x007
  | .rotl d a b => sw 0x01 d a b 0x008
  | .slt d a b => sw 0x01 d a b 0x009
  | .sltn d a b => sw 0x01 d a b 0x00A
  | .seq d a b => sw 0x01 d a b 0x00B
  | .min d a b => sw 0x01 d a b 0x00C
  | .max d a b => sw 0x01 d a b 0x00D
  | .minn d a b => sw 0x01 d a b 0x00E
  | .maxn d a b => sw 0x01 d a b 0x00F
  | .mul d a b => sw 0x02 d a b 0x000
  | .mulh d a b => sw 0x02 d a b 0x001
  | .mulhn d a b => sw 0x02 d a b 0x002
  | .div d a b => sw 0x02 d a b 0x003
  | .divn d a b => sw 0x02 d a b 0x004
  | .rem d a b => sw 0x02 d a b 0x005
  | .remn d a b => sw 0x02 d a b 0x006
  | .clz d a => sw 0x03 d a 0 (0#7 ++ 0#4)
  | .ctz d a => sw 0x03 d a 0 (0#7 ++ 1#4)
  | .popc d a => sw 0x03 d a 0 (0#7 ++ 2#4)
  | .bswap d a => sw 0x03 d a 0 (0#7 ++ 3#4)
  | .sxt d a w => sw 0x03 d a 0 (0#4 ++ w.code ++ 4#4)
  | .zxt d a w => sw 0x03 d a 0 (0#4 ++ w.code ++ 5#4)
  | .fshl d a b => sw 0x03 d a b (0#7 ++ 6#4)
  | .fshr d a b => sw 0x03 d a b (0#7 ++ 7#4)
  | .bext d a pos len1 => si 0x04 d a (pos ++ len1 ++ 0#4)
  | .bins d a pos len1 => si 0x05 d a (pos ++ len1 ++ 0#4)
  | .addi d a imm => si 0x08 d a imm
  | .andi d a imm => si 0x09 d a imm
  | .ori d a imm => si 0x0A d a imm
  | .xori d a imm => si 0x0B d a imm
  | .shli d a n => si 0x0C d a (0#10 ++ n)
  | .shri d a n => si 0x0D d a (0#10 ++ n)
  | .sari d a n => si 0x0E d a (0#10 ++ n)
  | .rotli d a n => si 0x0F d a (0#10 ++ n)
  | .lih d a imm => si 0x10 d a imm
  | .limm d imm => some (.limm (encSLimm d (imm.extractLsb' 0 21)) (imm.extractLsb' 21 32))
  | .cmp cc pd a b => sw 0x14 (predField pd) a b cc.code
  | .pand pd pa pb => sw 0x15 (predField pd) (predField pa) (predField pb) 0
  | .por pd pa pb => sw 0x15 (predField pd) (predField pa) (predField pb) 1
  | .pxor pd pa pb => sw 0x15 (predField pd) (predField pa) (predField pb) 2
  | .pnot pd pa => sw 0x15 (predField pd) (predField pa) 0 3
  | .pget d => sw 0x16 d 0 0 0
  | .sel d a b q => sw 0x17 d a b (0#8 ++ q)
  | .fadd d a b r => sw 0x18 d a b (0#4 ++ r.code ++ 0#4)
  | .fsub d a b r => sw 0x18 d a b (0#4 ++ r.code ++ 1#4)
  | .fmul d a b r => sw 0x18 d a b (0#4 ++ r.code ++ 2#4)
  | .fdiv d a b r => sw 0x18 d a b (0#4 ++ r.code ++ 3#4)
  | .fsqrt d a r => sw 0x18 d a 0 (0#4 ++ r.code ++ 4#4)
  | .fmin d a b => sw 0x18 d a b (0#4 ++ 0#3 ++ 5#4)
  | .fmax d a b => sw 0x18 d a b (0#4 ++ 0#3 ++ 6#4)
  | .fclass d a => sw 0x18 d a 0 (0#4 ++ 0#3 ++ 7#4)
  | .ffma d a b c r => sw 0x19 d a b (c ++ r.code ++ 0#3)
  | .fcmp cc pd a b => sw 0x1A (predField pd) a b cc.code
  | .fcvt op d a r => sw 0x1B d a 0 (0#4 ++ r.code ++ op.code)
  | .ld w d a imm => sm 0x20 d a w.code imm
  | .st w d a imm => sm 0x21 d a w.code imm
  | .lda s d a imm => sm 0x22 d a (0#1 ++ s) imm
  | .amo op wide d a b => sw 0x23 d a b (0#6 ++ BitVec.ofBool wide ++ op.code)
  | _ => none

/-- C-slot instructions. -/
def encodeC : Instr → Option Code
  | .br g disp => cw 0x01 g disp
  | .brr g t => cw 0x02 g (t ++ 0#17)
  | .call g disp => cw 0x03 g disp
  | .callr g t => cw 0x04 g (t ++ 0#17)
  | .ret g => cw 0x05 g 0
  | .loop g c len => cw 0x06 g (c ++ len ++ 0#5)
  | .halt g => cw 0x07 g 0
  | .trap g code => cw 0x08 g (0#14 ++ code)
  | .eret g => cw 0x09 g 0
  | .idle g => cw 0x0A g 0
  | .brk g code => cw 0x0B g (0#6 ++ code)
  | .fireEnd g => cw 0x10 g 0
  | .fireNext g => cw 0x11 g 0
  | .split g s => cw 0x12 g (s ++ 0#17)
  | .join g => cw 0x13 g 0
  | .barGrp g => cw 0x14 g 0
  | .cfArmReg g cf t => cw 0x18 g (cf ++ 0#1 ++ t ++ 0#10)
  | .cfArmImm g cf imm => cw 0x18 g (cf ++ 1#1 ++ imm)
  | .cfWaitAny g d m => cw 0x19 g (0#1 ++ d ++ m ++ 0#11)
  | .cfWaitAll g d m => cw 0x19 g (1#1 ++ d ++ m ++ 0#11)
  | .cfFfr g d m => cw 0x1A g (0#1 ++ d ++ m ++ 0#11)
  | .cfStat g cf d => cw 0x1B g (cf ++ d ++ 0#11)
  | .sysr g d n => cw 0x20 g (d ++ n ++ 0#5)
  | .coreSatRead g d => cw 0x20 g (d ++ 0x003#12 ++ 0#5)
  | .sysw g s n => cw 0x21 g (s ++ n ++ 0#5)
  | .cfErrWrite g s => cw 0x21 g (s ++ 0x015#12 ++ 0#5)
  | .coreRmodeWrite g s => cw 0x21 g (s ++ 0x002#12 ++ 0#5)
  | .loopCntWrite g s j => cw 0x21 g (s ++ (6#10 ++ j) ++ 0#5)
  | .loopStartWrite g s j => cw 0x21 g (s ++ (7#10 ++ j) ++ 0#5)
  | .cycCmpWrite g s => cw 0x21 g (s ++ 0x033#12 ++ 0#5)
  | .hubStatusWrite g s => cw 0x21 g (s ++ 0x030#12 ++ 0#5)
  | _ => none

/-- Q-slot instructions. -/
def encodeQ : Instr → Option Code
  | .qpop d iq stall t => qw 0x01 d (iqField iq) stall (BitVec.ofBool t ++ 0#14)
  | .qpush s oq stall t => qw 0x02 s (oqField oq) stall (BitVec.ofBool t ++ 0#14)
  | .qpeek d iq stall beat w => qw 0x03 d (iqField iq) stall (beat ++ w ++ 0#6)
  | .qhead d iq stall w => qw 0x04 d (iqField iq) stall (w ++ 0#12)
  | .qskip iq stall => qw 0x05 0 (iqField iq) stall 0
  | .qmark s oq stall k => qw 0x06 s (oqField oq) stall (k.code ++ 0#13)
  | .qfree d oq => qw 0x07 d (oqField oq) false 0
  | .qavail d iq => qw 0x08 d (iqField iq) false 0
  | .epop d e stall => qw 0x09 d e stall 0
  | .mov d a => qw 0x0A d a false 0
  | .movp pd pa neg => qw 0x0B (predField pd) (predField pa) false (BitVec.ofBool neg ++ 0#14)
  | .qstat d port => qw 0x0C d port false 0
  | .qcopy iq oq stall => qw 0x0D 0 (iqField iq) stall (0#1 ++ oq ++ 0#10)
  | _ => none

/-- V-slot arithmetic (spec/07). -/
def encodeV1 : Instr → Option Code
  | .vadd h t r vd va vb => vw h 0x01 vd va vb 0 t.code r.code 0
  | .vsub h t r vd va vb => vw h 0x02 vd va vb 0 t.code r.code 0
  | .vmul h t r vd va vb => vw h 0x03 vd va vb 0 t.code r.code 0
  | .vfma h t r vd va vb vc => vw h 0x04 vd va vb vc t.code r.code 0
  | .vfms h t r vd va vb vc => vw h 0x05 vd va vb vc t.code r.code 0
  | .vfnma h t r vd va vb vc => vw h 0x06 vd va vb vc t.code r.code 0
  | .vmin h t vd va vb => vw h 0x07 vd va vb 0 t.code 0 0
  | .vmax h t vd va vb => vw h 0x08 vd va vb 0 t.code 0 0
  | .vabs h t vd va => vw h 0x09 vd va 0 0 t.code 0 0
  | .vneg h t vd va => vw h 0x0A vd va 0 0 t.code 0 0
  | .vcopysign h t vd va vb => vw h 0x0B vd va vb 0 t.code 0 0
  | .vdiv h t r vd va vb => vw h 0x0C vd va vb 0 t.code r.code 0
  | .vsqrt h t r vd va => vw h 0x0D vd va 0 0 t.code r.code 0
  | .vrcp h t r vd va => vw h 0x20 vd va 0 0 t.code r.code 0
  | .vrsq h t r vd va => vw h 0x21 vd va 0 0 t.code r.code 0
  | .vexp2 h t r vd va => vw h 0x22 vd va 0 0 t.code r.code 0
  | .vlog2 h t r vd va => vw h 0x23 vd va 0 0 t.code r.code 0
  | .vsin h t r vd va => vw h 0x24 vd va 0 0 t.code r.code 0
  | .vcos h t r vd va => vw h 0x25 vd va 0 0 t.code r.code 0
  | .vtanh h t r vd va => vw h 0x26 vd va 0 0 t.code r.code 0
  | .viadd h t sat vd va vb => vw h 0x30 vd va vb 0 t.code 0 (if sat then 1 else 0)
  | .visub h t sat vd va vb => vw h 0x31 vd va vb 0 t.code 0 (if sat then 1 else 0)
  | .vimul h t vd va vb => vw h 0x32 vd va vb 0 t.code 0 0
  | .vimulh h t vd va vb => vw h 0x33 vd va vb 0 t.code 0 0
  | .vimin h t vd va vb => vw h 0x34 vd va vb 0 t.code 0 0
  | .vimax h t vd va vb => vw h 0x35 vd va vb 0 t.code 0 0
  | .vand h t vd va vb => vw h 0x36 vd va vb 0 t.code 0 0
  | .vor h t vd va vb => vw h 0x37 vd va vb 0 t.code 0 0
  | .vxor h t vd va vb => vw h 0x38 vd va vb 0 t.code 0 0
  | .vnot h t vd va => vw h 0x39 vd va 0 0 t.code 0 0
  | .vshlImm h t vd va n => vw h 0x3A vd va 0 0 t.code 0 n
  | .vshlVb h t vd va vb => vw h 0x3A vd va vb 0 t.code 0 0xFF
  | .vshrImm h t vd va n => vw h 0x3B vd va 0 0 t.code 0 n
  | .vshrVb h t vd va vb => vw h 0x3B vd va vb 0 t.code 0 0xFF
  | .vsarImm h t vd va n => vw h 0x3C vd va 0 0 t.code 0 n
  | .vsarVb h t vd va vb => vw h 0x3C vd va vb 0 t.code 0 0xFF
  | .vbext h t vd va pos len1 => vw h 0x3D vd va 0 0 t.code 0 (len1 ++ pos)
  | .vfsh h t vd va vb n => vw h 0x3E vd va vb 0 t.code 0 n
  | .vpopc h t vd va => vw h 0x3F vd va 0 0 t.code 0 0
  | .vclz h t vd va => vw h 0x40 vd va 0 0 t.code 0 0
  | .vsatn h t u vd va => vw h 0x41 vd va 0 0 t.code 0 (nibField u.code)
  | .vcmp cc h t md va vb => vw h 0x50 (nibField md) va vb 0 t.code 0 cc.code
  | .vsel h vd va vb mc => vw h 0x51 vd va vb (nibField mc) 0 0 0
  | .mand cl md ma mb => mw cl 0x58 (nibField md) (nibField ma) (nibField mb) 0
  | .mor cl md ma mb => mw cl 0x59 (nibField md) (nibField ma) (nibField mb) 0
  | .mxor cl md ma mb => mw cl 0x5A (nibField md) (nibField ma) (nibField mb) 0
  | .mnot cl md ma => mw cl 0x5B (nibField md) (nibField ma) 0 0
  | .mpopc cl md ma => mw cl 0x5C (nibField md) (nibField ma) 0 0
  | .mfirst cl md ma => mw cl 0x5D (nibField md) (nibField ma) 0 0
  | .mset cl md code => mw cl 0x5E (nibField md) 0 0 code
  | .vcvt h t u r vd va => vw h 0x60 vd va 0 (nibField u.code) t.code r.code 0
  | .vpack h t vd va vb => vw h 0x61 vd va vb 0 t.code 0 0
  | .vunpack h t hi vd va => vw h 0x62 vd va 0 0 t.code 0 (if hi then 1 else 0)
  | .vscale h t q vd va => vw h 0x63 vd va 0 (nibField q.code) t.code 0 0
  | .vquant h t q r vd va vb => vw h 0x64 vd va vb (nibField q.code) t.code r.code 0
  | .vdeq h t q r vd va vb => vw h 0x65 vd va vb (nibField q.code) t.code r.code 0
  | _ => none

/-- V-slot data movement (spec/08). -/
def encodeV2 : Instr → Option Code
  | .vld h vd ga off => vw h 0x70 vd (gField ga) 0 0 0 0 off
  | .vst h vd ga off => vw h 0x71 vd (gField ga) 0 0 0 0 off
  | .vlds h vd ga gb => vw h 0x72 vd (gField ga) (gField gb) 0 0 0 0
  | .vsts h vd ga gb => vw h 0x73 vd (gField ga) (gField gb) 0 0 0 0
  | .vgather h vd ga vb => vw h 0x74 vd (gField ga) vb 0 0 0 0
  | .vscatter h vd ga vb => vw h 0x75 vd (gField ga) vb 0 0 0 0
  | .vldb h vd ga => vw h 0x76 vd (gField ga) 0 0 0 0 0
  | .vrget h vd va vb => vw h 0x77 vd va vb 0 0 0 0
  | .vrput h vd va vb => vw h 0x78 vd va vb 0 0 0 0
  | .vcmprSt h t nf vd ga gb => vw h 0x79 vd (gField ga) (gField gb) 0 t.code 0 (if nf then 1 else 0)
  | .vexpdLd h t vd ga => vw h 0x7A vd (gField ga) 0 0 t.code 0 0
  | .vqpop h vd ga => vw h 0x7B vd (gField ga) 0 0 0 0 0
  | .vqpush h t close vd ga gb => vw h 0x7C vd (gField ga) (gField gb) 0 t.code 0 (if close then 1 else 0)
  | .vperm h vd va vb => vw h 0x90 vd va vb 0 0 0 0
  | .vshuf h p vd va vb => vw h 0x91 vd va vb 0 0 0 p.code
  | .vrotl h vd va n => vw h 0x92 vd va 0 0 0 0 (0#1 ++ n)
  | .vxcl h vd va gb => vw h 0x93 vd va (gField gb) 0 0 0 0
  | .vred h op t r vd va => vw h 0x94 vd va 0 0 t.code r.code op.code
  | .vargmax h t vd va => vw h 0x95 vd va 0 0 t.code 0 0
  | .vscan h op t r vd va => vw h 0x96 vd va 0 0 t.code r.code op.code
  | .viota h vd => vw h 0x97 vd 0 0 0 0 0 0
  | .vmovs h vd gb => vw h 0x98 vd 0 (gField gb) 0 0 0 0
  | .vbcast h vd va gb => vw h 0x99 vd va (gField gb) 0 0 0 0
  | .vzero h vd => vw h 0x9A vd 0 0 0 0 0 0
  | .kset cl kd gb e => mw cl 0x9B (0#5 ++ kd) 0 (gField gb) e
  | _ => none

/-- X-slot instructions (spec/09, spec/11, spec/12). -/
def encodeX : Instr → Option Code
  | .mbatLd pg bat src t form => mx 0x01 0 bat pg src.code 0 0 0 t.code (0#14 ++ form.code)
  | .mbatSel pg bat => mx 0x02 0 bat pg 0 0 0 0 0 0
  | .mma pg ac bat src rows ta tb set => mx 0x03 ac bat pg src.code 0 rows ta.code tb.code (0#15 ++ BitVec.ofBool set)
  | .macClr pg ac => mx 0x04 ac false pg 0 0 0 0 0 0
  | .macRd pg ac dst rows t r => mx 0x05 ac false pg 0 dst.code rows 0 t.code (0#13 ++ r.code)
  | .macRdq pg ac dst rows q r sc => mx 0x06 ac false pg 0 dst.code rows 0 q.code (0#12 ++ BitVec.ofBool sc ++ r.code)
  | .mrows pg ac mask => mx 0x07 ac false pg 0 0 0 0 0 mask
  | .mscale pg bat src => mx 0x08 0 bat pg src.code 0 0 0 0 0
  | .mstat pg ac vd => mx 0x09 ac false pg 0 (0#1 ++ vd) 0 0 0 0
  | .mwait pg ac => mx 0x0A ac false pg 0 0 0 0 0 0
  | .dxCopy pg cf ga gb gc => en 0x01 pg cf ga gb gc 0
  | .dxPat pg cf ga gb gc => en 0x02 pg cf ga gb gc 0
  | .dxGat pg cf ga gb gc fsh n => en 0x03 pg cf ga gb gc (0#15 ++ n ++ 0#3 ++ fsh)
  | .dxSct pg cf ga gb gc fsh n => en 0x04 pg cf ga gb gc (0#15 ++ n ++ 0#3 ++ fsh)
  | .dxStream pg cf ga gb sp bg8 => en 0x05 pg cf ga gb 0 (0#29 ++ BitVec.ofBool bg8 ++ sp)
  | .dxDrain pg => en 0x06 pg 0 0 0 0 0
  | .rst pg cf ga gb gc => en 0x08 pg cf ga gb gc 0
  | .rld pg cf ga gb gc => en 0x09 pg cf ga gb gc 0
  | .rldIq pg cf ga gb gc => en 0x09 pg cf ga gb gc 1
  | .ramo pg cf ga gb gc op wide => en 0x0A pg cf ga gb gc (0#27 ++ BitVec.ofBool wide ++ op.code)
  | .rcfAdd pg cf ga gb => en 0x0B pg cf ga gb 0 0
  | .cfAdd pg cf imm => en 0x0C pg cf 0 0 0 imm
  | .fenceCore pg => en 0x0D pg 0 0 0 0 0
  | .fencePkg pg => en 0x0D pg 0 0 0 0 1
  | .fenceDom pg => en 0x0D pg 0 0 0 0 2
  | .fenceF pg cf ga gb => en 0x0E pg cf ga gb 0 0
  | .kilnAdmit pg ga => en 0x10 pg 0 ga 0 0 0
  | .kilnStep pg iq inst => en 0x11 pg 0 0 0 0 (0#25 ++ inst ++ iq)
  | .kilnRet pg cf ga gb inst => en 0x12 pg cf ga gb 0 (0#29 ++ inst)
  | .kilnRd pg ga gb => en 0x13 pg 0 ga gb 0 0
  | .kilnCancel pg ga => en 0x14 pg 0 ga 0 0 0
  | .kilnEvict pg ga => en 0x15 pg 0 ga 0 0 0
  | .kilnAbort pg ga fail all => en 0x16 pg 0 ga 0 0 (0#30 ++ BitVec.ofBool all ++ BitVec.ofBool fail)
  | .cfgLoad pg ga gb gc => en 0x18 pg 0 ga gb gc 0
  | .cfgCommit pg ga start => en 0x19 pg 0 ga 0 0 (0#31 ++ BitVec.ofBool start)
  | .cfgAbort pg ga => en 0x1A pg 0 ga 0 0 0
  | .cfgTok pg ga => en 0x1B pg 0 ga 0 0 0
  | .segSet pg n ga gb => en 0x1C pg 0 ga gb 0 (0#28 ++ n)
  | .winSet pg w ga gb gc => en 0x1D pg 0 ga gb gc (0#24 ++ w)
  | .winRevoke pg w => en 0x1E pg 0 0 0 0 (0#24 ++ w)
  | .circBind pg ga => en 0x1F pg 0 ga 0 0 0
  | .circBindRel pg ga => en 0x1F pg 0 ga 0 0 1
  | .eventPop pg ga => en 0x20 pg 0 ga 0 0 0
  | .logRd pg ga gb => en 0x21 pg 0 ga gb 0 0
  | .dbgCtlHalt pg ga => en 0x22 pg 0 ga 0 0 0
  | .dbgCtlHaltq pg ga => en 0x22 pg 0 ga 0 0 1
  | .dbgCtlRun pg ga => en 0x22 pg 0 ga 0 0 2
  | .dbgCtlStep pg ga => en 0x22 pg 0 ga 0 0 3
  | .dbgCtlResume pg ga => en 0x22 pg 0 ga 0 0 4
  | .dbgCtlSkip pg ga => en 0x22 pg 0 ga 0 0 5
  | .dbgCtlAbort pg ga => en 0x22 pg 0 ga 0 0 6
  | _ => none

/-- The words of an instruction; an event has none. -/
def encode (i : Instr) : Option Code :=
  encodeS i <|> encodeC i <|> encodeQ i <|> encodeV1 i <|> encodeV2 i <|> encodeX i

/-! ## The opcode table's words -/

/-- The instruction of a slot's word, where it is one. -/
def Dec.instr? (d : Dec) : Option Instr :=
  match d with
  | .ok i => some i
  | .error _ => none

/-- The words that a number of the opcode table stands for: 32 bits are an S, C or Q slot (with S1 zero), 64 a V or X
slot (log 7); a whole bundle holds its first filled slot. [DESIGN CHOICE, log 7] -/
def tableCode (nbits w : Nat) : Option Code :=
  let w32 := BitVec.ofNat 32 w
  let w64 := BitVec.ofNat 64 w
  let cands : List Code :=
    if nbits ≤ 32 then [(if opOf w32 == 0x11 then .limm w32 0 else .s w32), .c w32, .q w32]
    else if nbits ≤ 64 then
      [(if opOf w32 == 0x11 then .limm w32 (w64.extractLsb' 32 32) else .v w64), .v w64, .x w64] else []
  cands.find? fun c => (Dec.instr? (decodeCode c)).isSome

/-- The instruction of a bundle that fills one slot. -/
def bundleInstr? (b : BitVec 256) : Option Instr :=
  match decodeBundle b with
  | .ok [(_, .ok i)] => some i
  | _ => none

/-- The instruction the decoder reads from a word of the opcode table. [DESIGN CHOICE, log 7] -/
def decodeTableWord (nbits w : Nat) : Option Instr :=
  if nbits ≤ 64 then (tableCode nbits w).bind fun c => bundleInstr? c.bundle
  else bundleInstr? (BitVec.ofNat 256 w)

end Sys2Proof
end

