-- ==== Sys2Proof/Machine/Ops.lean ====
section
/-! DEFINITION. The named operations over registers, memory, flags and records that the meanings share: reading and writing
registers (spec/01), memory and translation (spec/05 R138, spec/13), taking an exception and returning from one
(spec/01 R35, spec/18 R392, R402, spec/06 R155), the logbook and notices (spec/18), counting flags and result queues. -/

namespace Sys2Proof.Machine

/-! ## Cores and contexts (R12, R39) -/

/-- Core c: 0..287 compute, 512 + h hub core h. -/
def State.core (s : State) (c : Nat) : Core := sget Core.reset s.cores c
def State.setCore (s : State) (c : Nat) (k : Core) : State := { s with cores := sset Core.reset s.cores c k }
def State.modCore (s : State) (c : Nat) (f : Core → Core) : State := s.setCore c (f (s.core c))

def isHub (c : Nat) : Bool := decide (512 ≤ c)
/-- The core number that CORE.ID and core selectors use. -/
def coreNum (c : Nat) : Nat := if isHub c then c - 512 else c
/-- The core number of a logbook entry (Table 18.3). -/
def logNum (c : Nat) : Nat := if isHub c then 0x1F0 + (c - 512) else c

def Core.ctx (k : Core) (t : Nat) : Ctx := sget Ctx.reset k.ctxs t
def Core.setCtx (k : Core) (t : Nat) (x : Ctx) : Core := { k with ctxs := sset Ctx.reset k.ctxs t x }
def Core.modCtx (k : Core) (t : Nat) (f : Ctx → Ctx) : Core := k.setCtx t (f (k.ctx t))
def Core.stage (k : Core) (t : Nat) : Stage := sget Stage.reset k.stages t
def Core.setStage (k : Core) (t : Nat) (x : Stage) : Core := { k with stages := sset Stage.reset k.stages t x }
def Core.modStage (k : Core) (t : Nat) (f : Stage → Stage) : Core := k.setStage t (f (k.stage t))

/-- The core whose bundle runs. -/
def State.me (s : State) : Core := s.core s.focus
def State.modMe (s : State) (f : Core → Core) : State := s.modCore s.focus f
def State.hub (s : State) : Bool := isHub s.focus
/-- The stage whose context instructions see: the firing stage, or a hub core's one set (R39). -/
def State.stg (s : State) : Nat := if s.hub then 0 else s.me.firing.getD 0
def State.ctx (s : State) : Ctx := s.me.ctx s.stg
def State.modCtx (s : State) (f : Ctx → Ctx) : State := s.modMe fun k => k.modCtx s.stg f
def State.stage (s : State) : Stage := s.me.stage s.stg
def State.modStage (s : State) (f : Stage → Stage) : State := s.modMe fun k => k.modStage s.stg f
def State.inSplit (s : State) : Bool := s.ctx.split.isSome

/-- Bank i of a context in split mode (R44). -/
def Ctx.bank (x : Ctx) (i : Nat) : Stream := sget Stream.reset (x.split.getD []) i
def Ctx.modBank (x : Ctx) (i : Nat) (f : Stream → Stream) : Ctx :=
  { x with split := x.split.map fun b => smod Stream.reset b i f }

/-! ## Scalar registers (R13, R44) -/

/-- The register number belongs to a stream's bank. -/
def banked (r : Nat) : Bool := decide (16 ≤ r)

/-- Read a g-register: g0 is 0; in split mode g16..g31 are the stream's. -/
def State.g (s : State) (r : GReg) : Word :=
  if r = 0 then 0
  else if s.inSplit && banked r.toNat then sget 0 (s.ctx.bank s.stream).g r.toNat
  else sget 0 s.ctx.g r.toNat

/-- Write a g-register; a write to g0 is discarded. -/
def State.setG (s : State) (r : GReg) (v : Word) : State :=
  if r = 0 then s
  else if s.inSplit && banked r.toNat then
    s.modCtx fun x => x.modBank s.stream fun b => { b with g := sset 0 b.g r.toNat v }
  else s.modCtx fun x => { x with g := sset 0 x.g r.toNat v }

/-- Read a predicate: p0 is 1. -/
def State.p (s : State) (i : PReg) : Bool :=
  if i = 0 then true
  else if s.inSplit then sget false (s.ctx.bank s.stream).p i.toNat
  else sget false s.ctx.p i.toNat

/-- Write a predicate; a write to p0 is discarded. -/
def State.setP (s : State) (i : PReg) (b : Bool) : State :=
  if i = 0 then s
  else if s.inSplit then s.modCtx fun x => x.modBank s.stream fun k => { k with p := sset false k.p i.toNat b }
  else s.modCtx fun x => { x with p := sset false x.p i.toNat b }

/-- A guard holds (R79). -/
def State.guard (s : State) (g : Guard) : Bool := s.p g.pg != g.neg

/-- The code address of the bundle that runs (R145). -/
def State.pc (s : State) : Addr := if s.inSplit then (s.ctx.bank s.stream).pc else s.me.pc
def State.setPc (s : State) (a : Addr) : State :=
  if s.inSplit then s.modCtx fun x => x.modBank s.stream fun b => { b with pc := a, since := s.ticks }
  else s.modMe fun k => { k with pc := a }

/-- Loop level j (R32). -/
def State.loop (s : State) (j : Nat) : Loop :=
  if s.inSplit then sget Loop.reset (s.ctx.bank s.stream).loops j else sget Loop.reset s.ctx.loops j
def State.setLoop (s : State) (j : Nat) (l : Loop) : State :=
  if s.inSplit then s.modCtx fun x => x.modBank s.stream fun b => { b with loops := sset Loop.reset b.loops j l }
  else s.modCtx fun x => { x with loops := sset Loop.reset x.loops j l }

/-- CORE.SAT, the sticky bit (R53, R65). -/
def State.setSat (s : State) (b : Bool) : State := if b then s.modCtx fun x => { x with sat := true } else s

/-! ## Vector state (R14 to R18) -/

def vkey (c r : Nat) : Nat := 256 * c + r
def State.v (s : State) (c r : Nat) : VReg := sget 0 s.me.v (vkey c r)
def State.setV (s : State) (c r : Nat) (x : VReg) : State := s.modMe fun k => { k with v := sset 0 k.v (vkey c r) x }

/-- A lane mask; m0 is all ones (R16). -/
def State.mask (s : State) (c j : Nat) : Mask := if j = 0 then BitVec.allOnes 128 else sget 0 s.me.m (16 * c + j)
def State.setMask (s : State) (c j : Nat) (x : Mask) : State :=
  if j = 0 then s else s.modMe fun k => { k with m := sset 0 k.m (16 * c + j) x }

/-- Index register kj of cluster c (R17). -/
def State.kreg (s : State) (c j : Nat) : BitVec 9 := sget 0 s.ctx.k (8 * c + j)
def State.setK (s : State) (c j : Nat) (x : BitVec 9) : State := s.modCtx fun y => { y with k := sset 0 y.k (8 * c + j) x }

/-! ## Stops, faults and results of an operation -/

/-- A fault of a bundle: cause code, DETAIL and the effective address of a memory fault (Tables 18.1, 18.3). -/
structure TrapInfo where
  cause  : Nat
  detail : Nat
  addr   : Nat
  deriving DecidableEq, Repr

/-- Rank of a cause: ILLOP, then PRIV, then every other (R98). -/
def TrapInfo.rank (t : TrapInfo) : Nat := if t.cause = 1 then 0 else if t.cause = 2 then 1 else 2

/-- An operation that does not commit: it waits (R95), or it faults. -/
inductive Stop where
  | wait
  | trap (t : TrapInfo)
  deriving DecidableEq, Repr

abbrev Res (α : Type) := Except Stop α

def illop {α : Type} (detail : Nat) : Res α := .error (.trap ⟨0x01, detail, 0⟩)
def privFault {α : Type} (level : Nat) : Res α := .error (.trap ⟨0x02, level, 0⟩)
def segv {α : Type} (detail addr : Nat) : Res α := .error (.trap ⟨0x03, detail, addr⟩)
def alignFault {α : Type} (addr : Nat) : Res α := .error (.trap ⟨0x04, 0, addr⟩)
def eccu {α : Type} (detail addr : Nat) : Res α := .error (.trap ⟨0x05, detail, addr⟩)
def faultWith {α : Type} (cause detail : Nat) : Res α := .error (.trap ⟨cause, detail, 0⟩)
def waiting {α : Type} : Res α := .error .wait

/-- Fail unless a condition holds. -/
def need (ok : Bool) (e : Res Unit) : Res Unit := if ok then .ok () else e

/-- A check and the rest of its operation: where both fault, the fault of lower rank is recorded (R98). -/
def orFault {α : Type} (check : Res Unit) (rest : Res α) : Res α :=
  match check, rest with
  | .ok _, r => r
  | .error (.trap t), .error (.trap u) => .error (.trap (if u.rank < t.rank then u else t))
  | .error e, _ => .error e

/-! ## Memory (R8, R297, R305) -/

/-- A byte of the package's memory; an unlisted byte is zero (R45, R305). [DEDUCED, log 6] -/
def State.byte (s : State) (a : Nat) : Byte := sget 0 s.mem a
/-- [DEDUCED, log 6] -/
def State.setByte (s : State) (a : Nat) (b : Byte) : State := { s with mem := sset 0 s.mem a b }

/-- n bytes from an address. -/
def State.bytes (s : State) (a n : Nat) : List Byte := (List.range n).map fun i => s.byte (a + i)

/-- Write bytes at rising addresses, without touching error records. -/
def State.putBytes (s : State) (a : Nat) : List Byte → State
  | [] => s
  | b :: t => (s.setByte a b).putBytes (a + 1) t

/-- An uncorrectable error lies in the words that n bytes from an address touch (R305). [DEDUCED, log 28] -/
def State.badIn (s : State) (a n : Nat) : Bool :=
  s.eccBad.any fun b => decide (a < 8 * (b / 8) + 8) && decide (8 * (b / 8) < a + n)

/-- Store bytes: the bytes written get new check bits, an error in the bytes not written remains (R140, R305).
[DEDUCED, log 28] -/
def State.store (s : State) (a : Nat) (bs : List Byte) : State :=
  let s1 := s.putBytes a bs
  { s1 with
    eccBad := s1.eccBad.filter fun b => !(decide (a ≤ b) && decide (b < a + bs.length))
    eccSeen := s1.eccSeen.filter fun w => !(decide (a < 8 * w + 8) && decide (8 * w < a + bs.length)) }

/-- The number in n bytes of memory, little-endian. -/
def State.load (s : State) (a n : Nat) : Nat := leNat (s.bytes a n)

/-- The canonical form of memory. [DEDUCED, log 6] -/
def Memory.wf (m : List Host.Cell) : Bool := swf (0 : Byte) m

/-! ## The physical map and translation (R138, R297 to R301) -/

/-- The ranges of Table 13.1. -/
inductive Range where
  | slice | hubGen | hubSec | kilnRec | cfg | winView | unmapped
  deriving DecidableEq, Repr

def rangeOf (pa : Nat) : Range :=
  if pa < 0x480000000 then .slice
  else if 0x800000000 ≤ pa && pa < 0x870000000 then .hubGen
  else if 0x870000000 ≤ pa && pa < 0x880000000 then .hubSec
  else if 0xC00000000 ≤ pa && pa < 0xC00040000 then .kilnRec
  else if 0xF00000000 ≤ pa && pa < 0xF12000000 then .cfg
  else if 0xF40000000 ≤ pa && pa < 0xF40001000 then .winView
  else .unmapped

/-- Slices and hub SRAM. -/
def Range.isMem : Range → Bool
  | .slice | .hubGen | .hubSec => true
  | _ => false
def Range.isHubMem : Range → Bool
  | .hubGen | .hubSec => true
  | _ => false

/-- The slice that holds a physical address, and its bank group (R297, R302). -/
def sliceOf (pa : Nat) : Nat := pa / 0x4000000
def bankGroup (pa : Nat) : Nat := pa / 0x800000 % 8

/-- Descriptor fields (Table 1.3). -/
def segLimit (d : Word) : Nat := fld d.toNat 40 24
def segBase (d : Word) : Nat := fld d.toNat 16 24
def segOwner (d : Word) : Nat := fld d.toNat 4 4
def segWorld (d : Word) : Bool := d.getLsbD 3
def segX (d : Word) : Bool := d.getLsbD 2
def segW (d : Word) : Bool := d.getLsbD 1
def segR (d : Word) : Bool := d.getLsbD 0

/-- The rights an access needs, and whether an engine makes it (R300). -/
structure Access where
  rd     : Bool
  wr     : Bool
  ex     : Bool
  engine : Bool
  deriving DecidableEq, Repr

def Access.ld : Access := ⟨true, false, false, false⟩
def Access.st : Access := ⟨false, true, false, false⟩
def Access.amo : Access := ⟨true, true, false, false⟩
def Access.fetch : Access := ⟨false, false, true, false⟩
def Access.engRd : Access := ⟨true, false, false, true⟩
def Access.engWr : Access := ⟨false, true, false, true⟩
def Access.engRw : Access := ⟨true, true, false, true⟩

def Core.segment (k : Core) (n : Nat) : Word := sget 0 k.seg n

/-- An access uses the direct map: a hub core at S or M, EA[39:36] = 0xF, not an engine (R300). -/
def directMap (c : Nat) (k : Core) (a : Access) (ea : Nat) : Bool :=
  isHub c && k.hub.priv != .u && !a.engine && ea / 2 ^ 36 == 15

/-- The `n` bytes at a physical address meet the logbook, which software reads only through log.rd and only hardware writes
(R394). [DEDUCED, log 57] -/
def inLogbook (pa n : Nat) : Bool := decide (pa < 0x870008000) && decide (0x870000000 < pa + n)

/-- Table 13.2 for a segment access: slices and hub SRAM only, the secure region through a secure segment. -/
def reachSeg (d : Word) (pa : Nat) : Bool :=
  match rangeOf pa with
  | .slice | .hubGen => true
  | .hubSec => segWorld d
  | _ => false

/-- Core number and offset of a configuration-space address. -/
def cfgCore (pa : Nat) : Nat := (pa - 0xF00000000) / 0x100000
def cfgOff (pa : Nat) : Nat := pa % 0x100000

/-- What a direct-map access names belongs to the secure world: secure hub SRAM, the block of a secure core, a secure record that is
loaded (R299, R310, R311). -/
def State.namesSecure (s : State) (a : Access) (pa : Nat) : Bool :=
  match rangeOf pa with
  | .hubSec => true
  | .cfg => (s.core (cfgCore pa)).ctxWorld
  | .kilnRec => a.rd && !a.wr && (sget Rec.reset s.kiln.recs ((pa - 0xC00000000) / 64)).world
  | .slice | .hubGen | .winView | .unmapped => false

/-- Table 13.2 and the world checks for the direct map of core k, which holds the X right within hub SRAM only (R300). `none` when the
access may proceed, else the DETAIL, in the order of R138: right, world, range. -/
def State.directCheck (s : State) (k : Core) (a : Access) (pa size : Nat) : Option Nat :=
  let ld := a.rd && !a.wr && size == 8
  let st := a.wr && !a.rd && size == 8
  if a.ex && !(rangeOf pa).isHubMem then some 3
  else if s.namesSecure a pa && !k.ctxWorld then some 4
  else match rangeOf pa with
  | .slice => if k.hub.priv == .m then none else some 6
  | .hubGen => none
  | .hubSec => if inLogbook pa size then some 6 else none
  | .kilnRec | .winView => if ld then none else some 6
  | .cfg => if ld || st then none else some 6
  | .unmapped => some 6

/-- R138 on a range of `len` bytes from an effective sum, for core c; `align` is the alignment it needs. The whole
range lies in one segment and in memory the core may reach (R254). -/
def State.xlat (s : State) (c : Nat) (a : Access) (sum : Word) (align len : Nat) : Res Nat :=
  let k := s.core c
  let ea := fld sum.toNat 0 40
  if 2 ^ 40 ≤ sum.toNat then segv 1 ea
  else if ea % align != 0 then alignFault ea
  else if directMap c k a ea then
    let pa := ea % 2 ^ 36
    match s.directCheck k a pa len with
    | some d => segv d ea
    | none => .ok pa
  else
    let d := k.segment (ea / 2 ^ 36)
    let off := ea % 2 ^ 36
    let pa := segBase d * 65536 + off
    if segLimit d == 0 || segLimit d * 65536 < off + len then segv 2 ea
    else if (a.rd && !segR d) || (a.wr && !segW d) || (a.ex && !segX d) then segv 3 ea
    else if segWorld d && !k.ctxWorld then segv 4 ea
    else if segOwner d != k.ctxOwner.toNat && !(isHub c && k.hub.priv == .m) then segv 5 ea
    else if !reachSeg d pa || !reachSeg d (pa + (len - 1)) || inLogbook pa len || (a.ex && !(rangeOf pa).isHubMem) then segv 6 ea
    else .ok pa

/-- Translate for the core whose bundle runs. -/
def State.tr (s : State) (a : Access) (sum : Word) (align len : Nat) : Res Nat := s.xlat s.focus a sum align len

/-! ## Counting flags (R22, R23, R256) -/

def Core.flag (k : Core) (i : Nat) : Flag := sget Flag.reset k.cf i
def Core.modFlag (k : Core) (i : Nat) (f : Flag → Flag) : Core := { k with cf := smod Flag.reset k.cf i f }

/-- READY: threshold above 0 and value at least threshold (R22). -/
def Flag.ready (f : Flag) : Bool := decide (0 < f.threshold.toNat) && decide ((f.threshold.toNat : Int) ≤ f.value.toInt)

/-- A sum outside the 32-bit signed range (R256, R263). -/
def flagOver (v : Int) : Bool := decide (v < -2147483648) || decide (2147483647 < v)

/-- The nearer end of the range (R256). -/
def flagClamp (v : Int) : BitVec 32 :=
  BitVec.ofInt 32 (if v < -2147483648 then -2147483648 else if 2147483647 < v then 2147483647 else v)

/-- Add to a flag, with the error bit of the operation; an overflow saturates and sets ERR (R255, R256). -/
def Flag.add (f : Flag) (n : Int) (err : Bool) : Flag :=
  let v := f.value.toInt + n
  { f with value := flagClamp v, err := f.err || err || flagOver v }

/-! ## The logbook and notices (R394 to R397) -/

/-- Write one logbook entry at index SEQ mod 1,024 (Table 18.3). -/
def State.log (s : State) (cause slot stage : Nat) (world : Bool) (owner : BitVec 4) (coreNo : Nat) (charge : BitVec 16)
    (pc detail addr : Nat) : State :=
  let w0 := s.logSeq.toNat <<< 32 + cause <<< 24 + slot <<< 21 + stage <<< 18 + (if world then 1 <<< 16 else 0) +
    owner.toNat <<< 12 + coreNo
  let w1 := charge.toNat <<< 48 + pc
  let bs := bytesOf 8 (BitVec.ofNat 64 w0) ++ bytesOf 8 (BitVec.ofNat 64 w1) ++ bytesOf 8 (BitVec.ofNat 64 detail) ++
    bytesOf 8 (BitVec.ofNat 64 addr)
  { s.store (0x870000000 + 32 * (s.logSeq.toNat % 1024)) bs with logSeq := s.logSeq + 1 }

/-- An engine's add to flag i of core c, for a command of a stage: a sum outside the range saturates, sets ERR and is
logged as CFOVF on the core that holds the flag (R255, R256). -/
def State.addFlag (s : State) (c i : Nat) (n : Int) (err : Bool) (stage : Nat) (charge : BitVec 16) (pc : Addr) : State :=
  let k := s.core c
  let s1 := s.modCore c fun q => q.modFlag i fun f => f.add n err
  if flagOver ((k.flag i).value.toInt + n) then s1.log 0x09 5 stage k.ctxWorld k.ctxOwner (logNum c) charge pc.toNat i 0
  else s1

/-- Queue a notice at the end (R396). -/
def State.notify (s : State) (n : Notice) : State := { s with notices := s.notices ++ [n] }

/-- Word 0 of a notice (Table 18.4). -/
def noticeW0 (hi kind : Nat) (owner : BitVec 4) (world : Bool) : Word :=
  BitVec.ofNat 64 (hi <<< 32 + (if world then 1 <<< 12 else 0) + owner.toNat <<< 8 + kind)

/-- FIRE.DESC.CHARGE (Table 1.8). -/
def Ctx.charge (x : Ctx) : BitVec 16 := x.fireDesc.extractLsb' 16 16

/-! ## Taking an exception (R33, R35, R392, R402) and returning from one (R155) -/

/-- TRAP.CAUSE (Table 1.10). -/
def causeWord (cause slot detail : Nat) : Word := BitVec.ofNat 64 (fld detail 0 32 <<< 32 + slot <<< 24 + cause)

/-- Halt stage t of compute core c: TRAP.CAUSE and TRAP.PC, HALTED, the logbook entry, one STAGE_FAULT notice (R392).
[DEDUCED, log 11] -/
def State.haltStage (s : State) (c t stream : Nat) (i : TrapInfo) (slot : Nat) (pc : Addr) : State :=
  let k := s.core c
  let s1 := s.setCore c
    { (k.modStage t fun x => { x with state := .halted, haltCause := BitVec.ofNat 8 i.cause, haltPc := pc,
                                      haltStream := stream, aging := 0 }) with
      trapCause := causeWord i.cause slot i.detail, trapPc := pc
      firing := if k.firing = some t then none else k.firing }
  let s2 := s1.log i.cause slot t k.ctxWorld k.ctxOwner (logNum c) (k.ctx t).charge pc.toNat (fld i.detail 0 32) i.addr
  s2.notify
    { w0 := noticeW0 s.logSeq.toNat 1 k.ctxOwner k.ctxWorld
      w1 := BitVec.ofNat 64 (i.cause <<< 24 + t <<< 16 + logNum c)
      w2 := pc.setWidth 64
      w3 := BitVec.ofNat 64 (fld i.detail 0 32) }

/-- The bank of a level; level U has none of its own and reads S (R35). -/
def Hub.bank (h : Hub) (l : Priv) : TrapBank := if l = .m then h.bankM else h.bankS
def Hub.setBank (h : Hub) (l : Priv) (b : TrapBank) : Hub := if l = .m then { h with bankM := b } else { h with bankS := b }

/-- A trap or interrupt taken to level L with a vector number (R35). -/
def Core.takeTrap (k : Core) (l : Priv) (vector slot detail : Nat) (pc : Addr) : Core :=
  let h := k.hub
  let b : TrapBank := { (h.bank l) with cause := causeWord vector slot detail, pc := pc, pie := h.ie, ppriv := h.priv }
  { k with hub := { (h.setBank l b) with ie := false, priv := l }, pc := b.vec + BitVec.ofNat 40 (32 * vector) }

/-- The level a trap is taken to: S from U or S, M from M (R402). -/
def trapLevel (p : Priv) : Priv := if p = .m then .m else .s

/-- TAKING AN EXCEPTION: a hub core traps through its bank, a compute core's stage halts. `pc` is what TRAP.PC
receives. -/
def State.takeException (s : State) (i : TrapInfo) (slot : Nat) (pc : Addr) : State :=
  if s.hub then s.modMe fun k => k.takeTrap (trapLevel k.hub.priv) i.cause slot i.detail pc
  else s.haltStage s.focus s.stg s.stream i slot pc

/-- RETURNING FROM AN EXCEPTION: IE and the level come back from the bank of the current level (R155). -/
def Core.eret (k : Core) : Core :=
  let b := k.hub.bank k.hub.priv
  { k with hub := { k.hub with ie := b.pie, priv := b.ppriv }, pc := b.pc }

/-! ## Interrupts (R36, R37, R403) -/

/-- IRQ.PEND: the notice queue, the management port, the security block, the CYCLES compare. [DEDUCED, log 48] -/
def State.irqPend (s : State) : BitVec 4 :=
  (if s.notices.isEmpty then 0 else 1) ||| (if s.mgmtRx.isEmpty then 0 else 2) ||| (if s.boot.secPend then 4 else 0) |||
  (if s.cmpHit then 8 else 0)

/-- The interrupt a hub core takes at a boundary: the security block at M first, then the lowest bit at S; one for
level S is held while the core runs at M (R36, R403). -/
def State.irqToTake (s : State) (c : Nat) : Option Nat :=
  let h := (s.core c).hub
  let x := s.irqPend &&& h.irqEn
  if !h.ie then none
  else if x.getLsbD 2 then some 2
  else if h.priv = .m then none
  else if x.getLsbD 0 then some 0 else if x.getLsbD 1 then some 1 else if x.getLsbD 3 then some 3 else none

/-- The level of an interrupt source (R36). -/
def irqLevel (n : Nat) : Priv := if n = 2 then .m else .s

/-- Take interrupt source n on hub core c: cause 0x20 + n, SLOT 7, TRAP.PC the bundle not yet run (R403). -/
def State.takeIrq (s : State) (c n : Nat) : State :=
  s.modCore c fun k => { (k.takeTrap (irqLevel n) (0x20 + n) 7 0 k.pc) with hub :=
    { (k.takeTrap (irqLevel n) (0x20 + n) 7 0 k.pc).hub with idle := false } }

/-! ## Engine result queues (R24, R274) -/

def Core.rqOf (k : Core) (e : Nat) : List REntry := sget [] k.rq e
def Core.setRq (k : Core) (e : Nat) (l : List REntry) : Core := { k with rq := sset [] k.rq e l }

/-- A free entry among the sixteen of an engine (R24). -/
def Core.rqFree (k : Core) (e : Nat) : Bool := decide ((k.rqOf e).length < 16)

/-- Reserve an entry of engine e for a stage: the core with the entry, and the entry's name. -/
def State.reserve (s : State) (e : Nat) : State × RqRef :=
  let id := s.me.nextId
  (s.modMe fun k => { (k.setRq e (k.rqOf e ++ [{ id := id, stage := s.stg, val := none }])) with nextId := id + 1 },
   { core := s.focus, eng := e, id := id })

/-- Write a reserved entry; an entry that is gone is left alone. -/
def State.putEntry (s : State) (r : RqRef) (v : Word) : State :=
  s.modCore r.core fun k => k.setRq r.eng ((k.rqOf r.eng).map fun x => if x.id = r.id then { x with val := some v } else x)

/-- No engine of the core is busy: ENG.BUSY[2:0] reads 0 (Table 1.11). -/
def Core.engIdle (k : Core) : Bool := k.eng.isEmpty && (k.rqOf 2).all fun x => x.val.isSome

/-- Fill the entries of the dbg.ctl.haltq commands on core c once its engines are idle (R295, R412). A filled entry may
let a command on the core that holds it be filled in turn. -/
def State.settleHaltq (s : State) (c : Nat) : Nat → State
  | 0 => s
  | n + 1 =>
    let k := s.core c
    if k.haltq.isEmpty || !k.engIdle then s
    else
      let v := if k.halted then BitVec.ofNat 64 1 else 0
      k.haltq.foldl (fun t r => (t.putEntry r v).settleHaltq r.core n) (s.setCore c { k with haltq := [] })

/-- Fill a reserved entry. -/
def State.fill (s : State) (r : RqRef) (v : Word) : State := (s.putEntry r v).settleHaltq r.core 9

/-- A result entry (Table 12.3). -/
def rEntry (data : Nat) : Word := BitVec.ofNat 64 (data % 2 ^ 56)
/-- A refused command's entry, with its reason code (Table 12.2). -/
def rRefused (reason : Nat) (data : Nat := 0) : Word := BitVec.ofNat 64 (2 ^ 63 + reason <<< 56 + data)

/-! ## Transfers and loops (R145, R150) -/

/-- Where control goes after a bundle. -/
inductive Flow where
  /-- no taken transfer: loop branches, then the next bundle -/
  | seq
  /-- as `seq`, with a sysw to LOOP.CNTj or LOOP.STARTj that takes effect after the loop branch (R28) -/
  | late (start : Bool) (j : Nat) (v : Word)
  /-- a taken transfer -/
  | jump (a : Addr)
  /-- a taken transfer whose effect on the place in the code has been made -/
  | stop
  /-- the bundle commits and then reports a cause with TRAP.PC = next (R152, R153) -/
  | report (cause detail : Nat)
  /-- the stream has committed its join and waits for the others (R163) -/
  | join
  /-- the bundle has arrived at a group barrier that is not complete: it does not commit (R165) -/
  | arrive
  deriving DecidableEq, Repr

/-- PC + 32. [DEDUCED, log 24] -/
def nextPc (a : Addr) : Addr := a + 32

/-- The loop branch at the commit of bundle `pc`, levels below n highest first (R150). -/
def State.loopBranch (s : State) (pc : Addr) : Nat → State × Option Addr
  | 0 => (s, none)
  | j + 1 =>
    let l := s.loop j
    if l.len != 0 && pc == l.start + 32 * (l.len.setWidth 40 - 1) then
      let n := l.count - 1
      if n != 0 then (s.setLoop j { l with count := n }, some l.start)
      else (s.setLoop j { l with count := n, len := 0 }).loopBranch pc j
    else s.loopBranch pc j

/-- The step asked by dbg.ctl.step has been made: the core halts again and the entry is filled (Table 12.7). -/
def State.afterBundle (s : State) (c : Nat) : State :=
  match (s.core c).stepOne with
  | none => s
  | some r => (s.modCore c fun k => { k with halted := true, stepOne := none }).fill r (rEntry 1)

/-- LOOP.CNTj and LOOP.STARTj (Table 1.9). A LEN with COUNT 0 leaves the level inactive (R32); PC bits that the core
does not hold are dropped. -/
def loopCntWord (l : Loop) : Word := BitVec.ofNat 64 (l.len.toNat <<< 52 + l.count.toNat)
def Loop.writeCnt (l : Loop) (v : Word) : Loop :=
  let count := v.extractLsb' 0 32
  { l with len := if count = 0 then 0 else v.extractLsb' 52 12, count := count }
def Loop.writeStart (hub : Bool) (l : Loop) (v : Word) : Loop :=
  { l with start := BitVec.ofNat 40 (fld v.toNat 5 (if hub then 35 else 12) * 32) }

/-- Commit of a bundle without a taken transfer: the loop branch, a late write of a loop register, then the next bundle;
a compute-core bundle at index 4,095 that goes on faults after its commit (R28, R146, R150). [DEDUCED, log 24] -/
def State.fallThrough (s : State) (pc : Addr) (late : State → State) : State :=
  let r := s.loopBranch pc 4
  let s1 := late r.1
  match r.2 with
  | some a => s1.setPc a
  | none =>
    if !s.hub && pc.toNat == 4095 * 32 then s1.takeException ⟨0x01, 0x0C, 0⟩ 7 pc
    else s1.setPc (nextPc pc)

/-- Back to VLIW mode: bank 0 becomes the stage's (R44). [DEDUCED, log 11] -/
def Ctx.unsplit (x : Ctx) : Ctx :=
  let b := x.bank 0
  { x with
    g := (List.range 16).foldl (fun m i => sset 0 m (16 + i) (sget 0 b.g (16 + i))) x.g
    p := b.p, loops := b.loops, split := none }

/-- When all four streams have joined, the core goes on at stream 0's join + 32; a join of stream 0 at index 4,095 goes on past the
store, which faults once the core is in VLIW mode (R146, R163). [DEDUCED, log 11] -/
def State.endSplit (s : State) : State :=
  if (List.range 4).all fun i => (s.ctx.bank i).joined then
    let a := (s.ctx.bank 0).pc
    let t : State := { (s.modCtx Ctx.unsplit) with stream := 0 }
    if a.toNat == 4095 * 32 then (t.setPc a).takeException ⟨0x01, 0x0C, 0⟩ 7 a else t.setPc (nextPc a)
  else s

/-- Commit of a join: the loop branch changes its counts, and the stream waits at the join (R150, R163). [DEDUCED, log 11] -/
def State.retireJoin (s : State) (pc : Addr) : State := (s.loopBranch pc 4).1.endSplit

/-- Retire a bundle at `pc` (R100, R150, R152, R153). [DEDUCED, log 24] -/
def State.retire (s : State) (pc : Addr) (f : Flow) : State :=
  match f with
  | .seq => s.fallThrough pc id
  | .late start j v => s.fallThrough pc fun t =>
      t.setLoop j (if start then (t.loop j).writeStart t.hub v else (t.loop j).writeCnt v)
  | .jump a => s.setPc a
  | .stop => s
  | .report cause detail => (s.setPc (nextPc pc)).takeException ⟨cause, detail, 0⟩ 2 (nextPc pc)
  | .join => s.retireJoin pc
  | .arrive => s

/-! ## Issue and commit of a bundle (R92 to R100) -/

/-- Which kinds of core an operation is legal on (R85). -/
inductive Legal where
  | both | cmp | hub
  deriving DecidableEq, Repr

/-- What an operation names, for the rules on double writes and ports (R93): g-registers, predicates, v-registers by
256 x cluster + register, and ports. -/
structure Uses where
  g  : List Nat
  p  : List Nat
  v  : List Nat
  iq : List Nat
  oq : List Nat
  sp : List Nat
  deriving DecidableEq, Repr

def Uses.none : Uses := ⟨[], [], [], [], [], []⟩
def Uses.ofG (d : GReg) : Uses := { Uses.none with g := [d.toNat] }
def Uses.ofP (d : PReg) : Uses := { Uses.none with p := [d.toNat] }

/-- One operation of a bundle: its slot and guard, where it is legal, the decode faults that depend on the core's mode,
what it names, and its effect. The effect judges its waits and reads what it names in the state before the bundle (R94, R242),
and acts on the state that the slots before it have made; it waits, faults, or gives the new state and where control goes. -/
structure SlotOp where
  slot    : Slot
  guard   : Guard
  legal   : Legal
  /-- level a hub core needs: 0 U, 1 S, 3 M -/
  level   : Nat
  splitOk : Bool
  static  : State → Option Nat
  uses    : State → Uses
  /-- runs before the other slots: a sysw to a register with sticky bits (R28) -/
  early   : Bool
  fx      : State → State → Res (State × Flow)
  /-- the tiles that it begins, counted at their ports even where it faults (R238) -/
  begins  : State → State → State := fun _ cur => cur
  /-- it is a bar.grp (R165) -/
  barrier : Bool := false
  /-- it is an amo, which is sent once every other check of the bundle has passed (R144) -/
  rmw     : Bool := false

/-- The guard that always holds. -/
def guardAlways : Guard := { pg := 0, neg := false }

/-- An operation with no wait, no transfer and no faults beyond those of decoding. -/
def plainOp (slot : Slot) (uses : Uses) (f : State → State → State) : SlotOp :=
  { slot := slot, guard := guardAlways, legal := .both, level := 0, splitOk := true, static := fun _ => none,
    uses := fun _ => uses, early := false, fx := fun pre cur => .ok (f pre cur, .seq) }

/-- The level of a privilege (Table 1.12). -/
def Priv.code : Priv → Nat
  | .u => 0 | .s => 1 | .m => 3

/-- The operation is not permitted on this kind of core or in this mode (R76, R85, R92). -/
def SlotOp.forbidden (o : SlotOp) (s : State) : Bool :=
  (o.legal = .cmp && s.hub) || (o.legal = .hub && !s.hub) || (s.inSplit && !o.splitOk)

/-- The decode fault of an operation, if any: kind of core, mode, banked registers, then its own (R79, R85, R92, R44).
[DEDUCED, log 17; DEDUCED, log 44] -/
def SlotOp.decodeFault (o : SlotOp) (s : State) : Option Nat :=
  if o.forbidden s then some 0x04
  else if s.inSplit && (o.uses s).g.any (fun r => decide (0 < r) && decide (r < 16)) then some 0x0A
  else o.static s

/-- Two lists share a number for which `f` holds. -/
def share (f : Nat → Bool) (a b : List Nat) : Bool := a.any fun x => f x && b.contains x

/-- Two operations write one register or name one port (R93). -/
def conflict (a b : Uses) : Bool :=
  share (· != 0) a.g b.g || share (· != 0) a.p b.p || share (fun _ => true) a.v b.v ||
  share (fun _ => true) a.iq b.iq || share (fun _ => true) a.oq b.oq || share (fun _ => true) a.sp b.sp

/-- The slots of a bundle that conflict with a later one. [DEDUCED, log 20] -/
def conflicts (s : State) : List SlotOp → List (Slot × TrapInfo)
  | [] => []
  | o :: t => (if t.any fun q => conflict (o.uses s) (q.uses s) then [(o.slot, ⟨0x01, 0x05, 0⟩)] else []) ++ conflicts s t

/-- The fault that TRAP.CAUSE records (R98). [DEDUCED, log 20] -/
def pickTrap : List (Slot × TrapInfo) → Option (Slot × TrapInfo)
  | [] => none
  | x :: t =>
    match pickTrap t with
    | none => some x
    | some y => if 8 * y.2.rank + y.1.code < 8 * x.2.rank + x.1.code then some y else some x

/-- What the operations of a bundle make together; `late` are the ECCU of its amo operations, which stand behind every other fault
(R144). -/
structure Issue where
  st    : State
  flow  : Flow
  waits : Bool
  traps : List (Slot × TrapInfo)
  late  : List (Slot × TrapInfo) := []

/-- The core is a hub core below the level that the operation needs (R85). -/
def State.lacksLevel (s : State) (o : SlotOp) : Bool := s.hub && decide (s.me.hub.priv.code < o.level)

/-- PRIV of an operation on a hub core below its level (R85). -/
def State.privTraps (s : State) (o : SlotOp) : List (Slot × TrapInfo) :=
  if s.lacksLevel o then [(o.slot, ⟨0x02, o.level, 0⟩)] else []

/-- One more operation: a guarded-off slot has no effect (R79); what it waits for is judged first (R95); then PRIV and its own
fault are both raised, for R98 to choose from; the ECCU of an amo stands behind them all (R144). [DEDUCED, log 18; DEDUCED, log 19] -/
def Issue.add (pre : State) (a : Issue) (o : SlotOp) : Issue :=
  if !pre.guard o.guard then a
  else
    match o.fx pre a.st with
    | .error .wait => { a with waits := true }
    | .error (.trap t) =>
      let last := o.rmw && t.cause == 0x05
      { a with
        st := o.begins pre a.st, traps := a.traps ++ pre.privTraps o ++ (if last then [] else [(o.slot, t)])
        late := a.late ++ if last then [(o.slot, t)] else [] }
    | .ok (s, f) =>
      if pre.lacksLevel o then { a with traps := a.traps ++ pre.privTraps o }
      else { a with st := s, flow := if f = .seq then a.flow else f }

/-- The order in which slots take effect: S0, S1, V, Q, X, then C (R100). So a load in S1 gets what an amo in S0 has left (R143); R144
sends the amo once that load's data has returned, which would give it the old value. [DESIGN CHOICE, log 63] -/
def effectOrder (ops : List SlotOp) : List SlotOp :=
  let pick (f : SlotOp → Bool) := ops.filter f
  pick (·.early) ++ pick (fun o => !o.early && (o.slot = .s0 || o.slot = .s1)) ++ pick (fun o => !o.early && o.slot = .v) ++
  pick (fun o => !o.early && o.slot = .q) ++ pick (fun o => !o.early && o.slot = .x) ++
  pick (fun o => !o.early && o.slot = .c)

/-! ## Group barrier (R165) -/

/-- The cores of a rectangle, in ascending order of core number (R5). -/
def Region.cores (r : Region) : List Nat :=
  (List.range r.h).flatMap fun y => (List.range r.w).map fun x => 16 * (r.y + y) + (r.x + x)

/-- Every other core of the group has arrived at its k-th barrier. -/
def State.groupArrived (s : State) (k : Nat) : Bool :=
  s.stage.group.cores.all fun c => c == s.focus || decide (k ≤ ((s.core c).stage s.stg).barArrived)

/-- The group's k-th barrier is complete: every copy of the group may pass it, whatever becomes of the others (R165, R347). -/
def State.freeGroup (s : State) (k : Nat) : State :=
  s.stage.group.cores.foldl (fun t c =>
    t.modCore c fun q => q.modStage s.stg fun x => { x with barFree := max x.barFree k }) s

/-- The focus core arrives at its next barrier; the last to arrive completes it (R165). -/
def State.arriveGroup (s : State) : State :=
  let k := s.stage.barDone + 1
  let t := s.modStage fun x => { x with barArrived := k }
  if s.groupArrived k then t.freeGroup k else t

/-- A bundle with a bar.grp that meets its other conditions has arrived, also where another of its slots faults (R165). -/
def State.reachBarrier (s : State) (ops : List SlotOp) : State :=
  if ops.any fun o => o.barrier && !o.forbidden s && s.guard o.guard then s.arriveGroup else s

/-- Run the operations of the bundle at the pc: commit whole, fault, or wait (none) (R95, R97, R98). `bad` are the slots
that do not decode; an operation that the core may run waits whatever faults it has. A bundle whose other conditions hold
arrives at its group barrier once, and raises no fault while it waits there (R95, R165).
[DEDUCED, log 19; DEDUCED, log 21] -/
def State.issueTry (s : State) (bad : List (Slot × TrapInfo)) (ops : List SlotOp) : Option State :=
  let faulty := ops.filterMap fun o => (o.decodeFault s).map fun d => (o.slot, (⟨0x01, d, 0⟩ : TrapInfo))
  let r := (effectOrder (ops.filter fun o => !o.forbidden s)).foldl (Issue.add s) { st := s, flow := .seq, waits := false, traps := [] }
  if r.waits then none
  else if r.flow = .arrive then
    if s.stage.barArrived = s.stage.barDone + 1 then none
    else some (s.reachBarrier ops)
  else
    match (pickTrap (bad ++ faulty ++ conflicts s ops ++ r.traps)).or (pickTrap r.late) with
    | some (slot, t) => some (((s.reachBarrier ops).takeException t slot.code s.pc).afterBundle s.focus)
    | none => some ((r.st.retire s.pc r.flow).afterBundle s.focus)

/-- As issueTry; a bundle that waits leaves the state as it is. [DESIGN CHOICE, log 50] -/
def State.issueAll (s : State) (bad : List (Slot × TrapInfo)) (ops : List SlotOp) : State := (s.issueTry bad ops).getD s

/-- Run one operation as the only one of its bundle. [DESIGN CHOICE, log 50] -/
def issue (o : SlotOp) (s : State) : Host.Outcome State Fault Refusal := .next (s.issueAll [] [o])

/-- An event of the machine's other agents: where it is not enabled, nothing happens. [DESIGN CHOICE, log 50] -/
def happen (f : State → Option State) (s : State) : Host.Outcome State Fault Refusal := .next ((f s).getD s)

end Sys2Proof.Machine
end

