-- ==== Sys2Proof/Machine/Operands.lean ====
section
/-! DEFINITION. Operand forms: immediates, v-register fields with indirection and declaration (R17, R40), lanes and elements
(R14), wide registers and their rows (R15), g-fields, and the address forms of the S slot (R138). -/

namespace Sys2Proof.Machine

/-- Sign extension of a memory-form offset, in bytes. -/
def sx13 (i : BitVec 13) : Word := i.signExtend 64
def sx16 (i : BitVec 16) : Word := i.signExtend 64

/-- The effective sum g(a) + SignExtend(imm13), modulo 2^64 (R138). -/
def State.ea (s : State) (a : GReg) (imm : BitVec 13) : Word := s.g a + sx13 imm

/-! ## Declarations of the firing stage (R40) -/

def Stage.hasV (t : Stage) (r : Nat) : Bool := decide (t.vlo.toNat ≤ r) && decide (r ≤ t.vhi.toNat)
def Stage.hasMask (t : Stage) (j : Nat) : Bool := j == 0 || t.masks.getLsbD j
def Stage.hasAcc (t : Stage) (n : Nat) : Bool := t.accs.getLsbD n
def Stage.hasBat (t : Stage) (b : Nat) : Bool := t.bats.getLsbD b

/-- The clusters a V slot executes in: its mask, or the stream's own cluster in split mode (R92, R171). -/
def State.clusters (s : State) (cl : BitVec 4) : List Nat :=
  if s.inSplit then [s.stream] else (List.range 4).filter fun c => cl.getLsbD c

/-- A v-field read in cluster c: the register's number, or k[j] + offset when indirect (R17). -/
def State.vnum (s : State) (ind : Bool) (c : Nat) (f : BitVec 8) : Nat :=
  if ind then (s.kreg c (f.extractLsb' 5 3).toNat).toNat + (f.extractLsb' 0 5).toNat else f.toNat

/-- The register a v-field names in cluster c; a sum above 255 or a register outside the declaration faults (R17, R40).
`fieldNo` is 0 vd, 1 va, 2 vb, 3 vc (Table 18.2). -/
def State.vreg (s : State) (ind : Bool) (c fieldNo : Nat) (f : BitVec 8) : Res Nat :=
  let n := s.vnum ind c f
  if 255 < n then illop (0x07 + fieldNo <<< 8 + c <<< 12)
  else if s.stage.hasV n then .ok n else illop 0x08

/-- A lane mask the stage declares. -/
def State.maskOk (s : State) (j : Nat) : Res Unit := need (s.stage.hasMask j) (illop 0x08)

/-- Register r of cluster c as a write names it for R93: a number above 255 is no register, and the operation itself faults (R17). -/
def vUse (c r : Nat) : List Nat := if r < 256 then [vkey c r] else []

/-- What the v-writes of a V slot name, for R93. -/
def State.vUses (s : State) (h : VHead) (vd : BitVec 8) : List Nat :=
  (s.clusters h.cl).flatMap fun c => vUse c (s.vnum h.ind c vd)

/-! ## Lanes (R14, R171, R195) -/

def lane (x : VReg) (l : Nat) : Lane := elem 32 l x
def packLanes (f : Nat → Lane) : VReg := packN 4096 32 128 f

/-- The lanes that take a new value keep it under their mask bit; the others keep the old one (R16, R171). -/
def mergeLanes (m : Mask) (old : VReg) (f : Nat → Lane) : VReg :=
  packLanes fun l => if m.getLsbD l then f l else lane old l

/-- A position's lane: wide lane in VLIW mode, lane of the stream's cluster in split mode (R195). -/
def State.position (s : State) (c l : Nat) : Nat := if s.inSplit then l else 128 * c + l

/-- The accessed lanes of an operation in ascending position: cluster and lane (R195). -/
def State.accessed (s : State) (h : VHead) : List (Nat × Nat) :=
  (s.clusters h.cl).flatMap fun c =>
    ((List.range 128).filter fun l => (s.mask c h.m.toNat).getLsbD l).map fun l => (c, l)

/-- Lane element i of w bits, in the low bits of a lane. -/
def laneElem (w i : Nat) (x : Lane) : Lane := (elem w i x).setWidth 32

/-- A lane made of its elements of w bits. -/
def packElems (w : Nat) (f : Nat → Lane) : Lane := packN 32 w (32 / w) fun i => (f i).setWidth w

/-! ## Wide registers (R15) -/

/-- Row i of the wide register vn: 128 bytes, all in cluster i ÷ 4. -/
def State.wideRow (s : State) (n i : Nat) : BitVec 1024 := elem 1024 (i % 4) (s.v (i / 4) n)

/-- Byte b of the wide registers from vn on, rows of 128 bytes, sixteen to a register. -/
def State.wideBytes (s : State) (n count : Nat) : List Byte :=
  (List.range count).map fun b => elem 8 (b % 128) (s.wideRow (n + b / 2048) (b / 128 % 16))

/-- Write sixteen rows of a wide register. -/
def State.setWide (s : State) (n : Nat) (f : Nat → BitVec 1024) : State :=
  (List.range 4).foldl (fun t c => t.setV c n (packN 4096 1024 4 fun j => f (4 * c + j))) s

/-- A row from a list of bytes, zero beyond them. -/
def rowOf (bs : List Byte) : BitVec 1024 := packList 1024 8 (takeFill 128 0 bs)

end Sys2Proof.Machine
end

