-- ==== Sys2Proof/Machine/Flags.lean ====
section
/-! DEFINITION. Flag computations: the predicates of cmp and fcmp (R130, R136), the class bits of fclass (R134), READY and ERR
words of the counting flags (R22, R23), the not-ready flag p7 (R80), and the rounding mode an instruction uses (R59). -/

namespace Sys2Proof.Machine

/-- The condition of cmp (R130). -/
def cmpHolds (cc : CmpCc) (a b : Word) : Bool :=
  match cc with
  | .eq => a == b
  | .ne => a != b
  | .lt => a.slt b
  | .ltn => a.ult b
  | .le => a.sle b
  | .len => a.ule b

/-- The condition of fcmp on binary32 values (R136). -/
def fcmpHolds (cc : FcmpCc) (a b : Num) : Bool :=
  match cc with
  | .eq => a.eqv b
  | .lt => a.lt b
  | .le => a.lt b || a.eqv b
  | .un => a.isNan || b.isNan

/-- The class bit of a binary32 value: 0 -inf .. 8 NaN (R134). -/
def fclassBit (x : Num) : Nat :=
  match x with
  | .nan => 8
  | .inf n => if n then 0 else 7
  | .fin n q =>
    if q == 0 then (if n then 3 else 4)
    else if q < pow2 (-126) then (if n then 2 else 5) else (if n then 1 else 6)

/-- The condition of vcmp for one element (R186). -/
def vcmpHolds (cc : VcmpCc) (a b : Num) : Bool :=
  match cc with
  | .eq => a.eqv b
  | .ne => !a.eqv b
  | .lt => a.lt b
  | .le => a.lt b || a.eqv b
  | .gt => b.lt a
  | .ge => b.lt a || a.eqv b
  | .un => a.isNan || b.isNan

/-- CF.READY, or CF.ERR: bit i from flag i. -/
def flagWord (k : Core) (f : Flag → Bool) : Word := packN 64 1 64 fun i => BitVec.ofBool (f (k.flag i))
def Core.readyWord (k : Core) : Word := flagWord k Flag.ready
def Core.errWord (k : Core) : Word := flagWord k Flag.err

/-- The lowest flag that is set in a word, or 64. -/
def lowestSet (x : Word) : Nat := ((List.range 64).find? fun i => x.getLsbD i).getD 64

/-- cf.wait.any and cf.ffr: the lowest selected ready flag (R167, R168). -/
def Core.firstReady (k : Core) (m : Word) : Nat := lowestSet (k.readyWord &&& m)

/-- Every selected flag is ready (R167). -/
def Core.allReady (k : Core) (m : Word) : Bool := k.readyWord &&& m == m

/-- cf.stat: ERR, threshold, value (R169). -/
def Flag.stat (f : Flag) : Word := BitVec.ofBool f.err ++ f.threshold ++ f.value

/-- Value minus threshold, as cf.wait consumes it (R167). -/
def Flag.consume (f : Flag) : Flag := { f with value := f.value - f.threshold.setWidth 32 }

/-- The mode that CORE.RMODE names (R29, R59). -/
def rmodeOf (m : BitVec 3) : Rnd :=
  match Rnd.ofCode m with
  | some .dyn => .rne
  | some r => r
  | none => .rne

/-- The rounding mode an instruction uses: code 7 takes CORE.RMODE as it stood before the bundle (R59). -/
def State.rnd (s : State) (r : Rnd) : Rnd :=
  match r with
  | .dyn => rmodeOf s.ctx.rmode
  | x => x

/-- The not-ready flag of a form with its stall bit clear: p7 := 1 when not ready (R80). -/
def State.notReady (s : State) (b : Bool) : State := s.setP 7 b

end Sys2Proof.Machine
end

