-- ==== Sys2Proof/Machine/SysReg.lean ====
section
/-! DEFINITION. The system registers of a core (spec/01 Table 1.4): what a read returns and who may access which number. -/

namespace Sys2Proof.Machine

/-- Stream port p of a core. -/
def Core.port (k : Core) (p : Nat) : StreamPort := sget StreamPort.reset k.sp p

/-- An engine has an outstanding command (R25): a command not yet counted, or for the system engine an entry not yet
filled. -/
def Core.busyEng (k : Core) (e : Nat) : Bool :=
  k.eng.any (fun x => x.eng == e) || (e == 2 && (k.rqOf 2).any fun x => x.val.isNone)

/-- ENG.BUSY (Table 1.11). -/
def Core.busyWord (k : Core) : Word :=
  packN 64 1 8 fun i => BitVec.ofBool
    (if i < 3 then k.busyEng i else if 4 ≤ i then (k.port (i - 4)).isOpen else false)

/-- CORE.ID (Table 1.5). -/
def State.coreId (s : State) (c : Nat) : Word :=
  BitVec.ofNat 64 (s.pkgNo.toNat <<< 56 + (if isHub c then 1 <<< 16 else 0) + coreNum c)

/-- CORE.CTX (Table 1.6). -/
def Core.ctxWord (k : Core) : Word := BitVec.ofNat 64 (k.ctxOwner.toNat <<< 4 + (if k.ctxWorld then 8 else 0))

/-- HUB.STATUS and TRAP.STATE (Table 1.12). -/
def statusWord (ie : Bool) (p : Priv) : Word := BitVec.ofNat 64 ((if ie then 4 else 0) + p.code)

/-- One register of a trap bank: 0 CAUSE, 1 PC, 2 VEC, 3 STATE. -/
def TrapBank.word (b : TrapBank) (n : Nat) : Word :=
  if n = 0 then b.cause else if n = 1 then b.pc.setWidth 64
  else if n = 2 then (b.vec &&& ~~~0xFFF#40).setWidth 64 else statusWord b.pie b.ppriv

/-- The numbers of the compute-core column of Table 1.4. -/
def cmpReg (n : Nat) : Bool :=
  n ≤ 3 || n == 8 || (0x10 ≤ n && n ≤ 0x12) || (0x14 ≤ n && n ≤ 0x16) || (0x18 ≤ n && n ≤ 0x21) || (0x40 ≤ n && n ≤ 0x4F)

/-- The numbers of the hub-core column. -/
def hubReg (n : Nat) : Bool := cmpReg n || (0x22 ≤ n && n ≤ 0x23) || (0x28 ≤ n && n ≤ 0x2B) || (0x30 ≤ n && n ≤ 0x33)

/-- The decode fault of a system register number on a kind of core: reserved, or marked "-" (R27). -/
def sysNumFault (hub : Bool) (n : Nat) : Option Nat :=
  if !hubReg n then some 0x01 else if !hub && !cmpReg n then some 0x04 else none

/-- Level a read needs on a hub core (Table 1.4): 0, 1 or 3. -/
def readLevel (n : Nat) : Nat := if 0x28 ≤ n && n ≤ 0x2B then 3 else if 0x20 ≤ n && n ≤ 0x33 then 1 else 0

/-- A register that no sysw writes, on a kind of core. -/
def readOnly (hub : Bool) (n : Nat) : Bool :=
  n == 0 || (n == 1 && !hub) || n == 8 || (0x10 ≤ n && n ≤ 0x12) || n == 0x14 || n == 0x16 ||
  (!hub && (n == 0x20 || n == 0x21)) || n == 0x32 || 0x40 ≤ n

/-- Level a write needs on a hub core. -/
def writeLevel (n : Nat) : Nat := if n == 1 then 3 else readLevel n

/-- The access check of a sysr (R27). -/
def State.sysReadOk (s : State) (n : Nat) : Res Unit :=
  if s.hub && s.me.hub.priv.code < readLevel n then privFault (readLevel n) else .ok ()

/-- The access check of a sysw (R27): a read-only register is PRIV at stage level and U, ILLOP at S and M.
[DEDUCED, log 18; DEDUCED, log 44] -/
def State.sysWriteOk (s : State) (n : Nat) : Res Unit :=
  if readOnly s.hub n then (if s.hub && s.me.hub.priv != .u then illop 0x04 else privFault 0)
  else if s.hub && s.me.hub.priv.code < writeLevel n then privFault (writeLevel n) else .ok ()

/-- A register that belongs to the core, not to a stage context. -/
def State.coreReg (s : State) (c n : Nat) : Word :=
  let k := s.core c
  if n = 0 then s.coreId c
  else if n = 1 then k.ctxWord
  else if n = 8 then s.cycles
  else if n = 0x14 then k.readyWord
  else if n = 0x15 then k.errWord
  else if n = 0x16 then k.busyWord
  else if n = 0x20 && !isHub c then k.trapCause
  else if n = 0x21 && !isHub c then k.trapPc.setWidth 64
  else if 0x20 ≤ n && n ≤ 0x23 then (k.hub.bank k.hub.priv).word (n - 0x20)
  else if 0x28 ≤ n && n ≤ 0x2B then k.hub.bankS.word (n - 0x28)
  else if n = 0x30 then statusWord k.hub.ie k.hub.priv
  else if n = 0x31 then k.hub.irqEn.setWidth 64
  else if n = 0x32 then s.irqPend.setWidth 64
  else if n = 0x33 then s.cycCmp
  else if 0x40 ≤ n then k.segment (n - 0x40)
  else 0

/-- What a sysr returns on the core whose bundle runs (R28, R170). -/
def State.sysReg (s : State) (n : Nat) : Word :=
  if n = 2 then s.ctx.rmode.setWidth 64
  else if n = 3 then (BitVec.ofBool s.ctx.sat).setWidth 64
  else if n = 0x10 then s.ctx.fireDesc
  else if n = 0x11 then s.ctx.fireLimit.setWidth 64
  else if n = 0x12 then s.ctx.fireCnt.setWidth 64
  else if 0x18 ≤ n && n ≤ 0x1B then loopCntWord (s.loop (n - 0x18))
  else if 0x1C ≤ n && n ≤ 0x1F then (s.loop (n - 0x1C)).start.setWidth 64
  else s.coreReg s.focus n

/-- A write to one register of a trap bank (Tables 1.10, 1.12). -/
def TrapBank.write (b : TrapBank) (n : Nat) (v : Word) : TrapBank :=
  if n = 0 then { b with cause := v &&& 0xFFFFFFFFFF0000FF#64 }
  else if n = 1 then { b with pc := v.extractLsb' 0 40 }
  else if n = 2 then { b with vec := v.extractLsb' 0 40 &&& ~~~0xFFF#40 }
  else { b with pie := v.getLsbD 2, ppriv := if v.extractLsb' 0 2 = 0 then .u else if v.extractLsb' 0 2 = 1 then .s else .m }

/-- Clear the ERR bits written as 1 (R23). -/
def Core.clearErr (k : Core) (v : Word) : Core :=
  (List.range 64).foldl (fun q i => if v.getLsbD i then q.modFlag i fun f => { f with err := false } else q) k

/-- The effect of a sysw whose access is permitted, for the registers without a row of their own: CORE.CTX, CORE.SAT,
the trap banks, IRQ.EN. -/
def State.sysWrite (s : State) (n : Nat) (v : Word) : Res State :=
  if n = 1 then .ok (s.modMe fun k => { k with ctxOwner := v.extractLsb' 4 4, ctxWorld := v.getLsbD 3 })
  else if n = 3 then .ok (s.modCtx fun x => { x with sat := v.getLsbD 0 })
  else if 0x20 ≤ n && n ≤ 0x23 then
    if n = 0x23 && v.extractLsb' 0 2 = 2 then illop 0x0B
    else .ok (s.modMe fun k => { k with hub := k.hub.setBank k.hub.priv ((k.hub.bank k.hub.priv).write (n - 0x20) v) })
  else if 0x28 ≤ n && n ≤ 0x2B then
    if n = 0x2B && v.extractLsb' 0 2 = 2 then illop 0x0B
    else .ok (s.modMe fun k => { k with hub := { k.hub with bankS := k.hub.bankS.write (n - 0x28) v } })
  else if n = 0x31 then .ok (s.modMe fun k => { k with hub := { k.hub with irqEn := v.extractLsb' 0 4 } })
  else .ok s

end Sys2Proof.Machine
end

