-- ==== Sys2Proof/Machine/CfgSpace.lean ====
section
/-! DEFINITION. The ranges beside memory that hub cores load and store through the direct map: configuration space
(spec/13 R309, R310, Tables 13.4 to 13.6), the Kiln record space (R311, spec/16 Table 16.2) and the window table view
(R312, Table 13.7). -/

namespace Sys2Proof.Machine

/-! ## The Kiln record space -/

/-- State codes of Table 16.3. -/
def RecState.code : RecState → Nat
  | .free => 0 | .pending => 1 | .active => 2 | .inflight => 3 | .done => 4 | .evicted => 5 | .failed => 6

def State.recd (s : State) (i : Nat) : Rec := sget Rec.reset s.kiln.recs i
def State.inst (s : State) (i : Nat) : Inst := sget Inst.reset s.kiln.insts i

/-- PLADDR: PLBASE + 4 x PMAX x SLOT while the record holds a slot (R354). -/
def State.pladdr (s : State) (r : Rec) : Nat :=
  match r.slot with
  | some n => (s.inst r.inst).plbase + 4 * (s.inst r.inst).pmax * n
  | none => 0

/-- Word j of record i (Table 16.2); every field of a FREE record reads 0, and a count that its field does not hold shows its low
bits. [DEDUCED, log 51] -/
def State.recWord (s : State) (i j : Nat) : Word :=
  let r := s.recd i
  let b (x : Bool) (n : Nat) : Nat := if x then 1 <<< n else 0
  let f (x w n : Nat) : Nat := (x % 2 ^ w) <<< n
  if r.state = .free then 0
  else BitVec.ofNat 64 <|
    if j = 0 then r.hostid.toNat <<< 32 + f r.wait 6 24 + b r.pfdone 21 + f r.inst 3 18 + b r.evd 17 + b r.evmark 16 +
      b r.cnmark 15 + f r.eprio 3 12 + f r.dprio 3 9 + b r.world 8 + r.owner.toNat <<< 4 + r.state.code
    else if j = 1 then f r.inrows 8 56 + f r.fault 8 48 + f r.reason 4 44 + f r.position 24 20 + f r.stopt 8 12 +
      f (r.slot.getD 0) 12 0
    else if j = 2 then f r.infchg.toNat 16 48 + f r.pcons 24 24 + f r.plen 24 0
    else if j = 3 then f r.evcnt 16 48 + f r.gen 24 24 + f r.maxnew 24 0
    else if j = 4 then f r.pages.length 24 40 + s.pladdr r
    else if j = 5 then r.prompt
    else if j = 6 then r.sink
    else r.seq.toNat

/-! ## The window table view -/

def State.win (s : State) (w : Nat) : Window := sget Window.reset s.wins w
def State.setWin (s : State) (w : Nat) (x : Window) : State := { s with wins := sset Window.reset s.wins w x }

/-- Word j of window w for a caller of a world (R312, Table 13.7). [DEDUCED, log 51] -/
def State.winWord (s : State) (w j : Nat) (world : Bool) : Word :=
  let x := s.win w
  let b (y : Bool) (n : Nat) : Nat := if y then 1 <<< n else 0
  if x.state = .free || (x.world && !world) then 0
  else if j = 0 then
    BitVec.ofNat 64 (x.size.toNat <<< 40 + x.base.toNat <<< 16 + (if x.state = .isOpen then 1 else 2) <<< 8 +
      b x.at_ 7 + b x.wr 6 + b x.rd 5 + b x.world 4 + x.owner.toNat)
  else x.queued.setWidth 64

/-! ## Configuration space -/

def Core.bat (k : Core) (b : Nat) : Bat := sget Bat.reset k.bats b

/-- Lane 1 of mstat: active bat, format codes, fill-error bits from bit 12 up (R232). [DEDUCED, log 56] -/
def Core.batStatus (k : Core) : BitVec 16 :=
  let e (x : Bool) (n : Nat) : Nat := if x then 1 <<< n else 0
  BitVec.ofNat 16 (e k.activeBat 0 + (k.bat 0).fmt.toNat <<< 4 + (k.bat 1).fmt.toNat <<< 8 + e (k.bat 0).werr 12 +
    e (k.bat 0).serr 13 + e (k.bat 1).werr 14 + e (k.bat 1).serr 15)

/-- CFG.STATUS (Table 13.6). SPLIT is that of the stage FIRING: a core whose stage has halted in split mode reads 0, since no stage of it
fires (R164, R348). [DESIGN CHOICE, log 74] -/
def Core.cfgStatus (k : Core) : Word :=
  let faulted := packNat 1 (fun t => BitVec.ofBool ((k.stage t).state = .halted)) 8
  let split := match k.firing with
    | some t => (k.ctx t).split.isSome
    | none => false
  BitVec.ofNat 64 (faulted <<< 8 + (if k.cfgRefused then 4 else 0) + (if split then 2 else 0) + (if k.halted then 1 else 0))

/-- Configuration-space words that need a halted sequencer (Tables 13.4, 13.5). -/
def haltedOnly (off : Nat) : Bool :=
  off < 0xE6C00 || (0xE7000 ≤ off && off < 0xE7020) ||
  (0xE8000 ≤ off && off < 0xEA000 && (off % 0x400 < 0x108 || (0x140 ≤ off % 0x400 && off % 0x400 < 0x180))) ||
  (0xF0000 ≤ off && off < 0xF0400)

/-- Four 16-bit fields of a word. -/
def word16 (f : Nat → Nat) : Word := packN 64 16 4 fun i => BitVec.ofNat 16 (f i)

/-- A word of a stage context (Table 13.5). Of a stage in split mode, g16 to g31, p1 to p7 and the loop levels are the stage's own, as
split left them, and no stream's. [DESIGN CHOICE, log 74] -/
def Ctx.cfgWord (x : Ctx) (resume : Option (BitVec 12)) (o : Nat) : Word :=
  if o < 0x100 then (if o < 8 then 0 else sget 0 x.g (o / 8))
  else if o < 0x108 then packN 64 1 8 fun i => BitVec.ofBool (i == 0 || sget false x.p i)
  else if 0x140 ≤ o && o < 0x180 then word16 fun i => (sget 0 x.k (8 * ((o - 0x140) / 16) + (o % 16 / 8) * 4 + i)).toNat
  else if 0x180 ≤ o && o < 0x1A0 then loopCntWord (sget Loop.reset x.loops ((o - 0x180) / 8))
  else if 0x1A0 ≤ o && o < 0x1C0 then (sget Loop.reset x.loops ((o - 0x1A0) / 8)).start.setWidth 64
  else if o < 0x1C0 then 0
  else if o < 0x1C8 then x.rmode.setWidth 64
  else if o < 0x1D0 then (BitVec.ofBool x.sat).setWidth 64
  else if o < 0x1D8 then x.fireDesc
  else if o < 0x1E0 then x.fireLimit.setWidth 64
  else if o < 0x1E8 then x.fireCnt.setWidth 64
  else if o < 0x1F0 then (match resume with | some r => r.setWidth 64 <<< 5 | none => 0)
  else 0

/-- The bits of accumulator entry i as configuration space shows them: those stored last, also where the entry may not hold them. -/
def Core.accBits (k : Core) (i : Nat) : F128 := if sget 0 k.accRaw i = 0 then sget 0 k.acc i else sget 0 k.accRaw i

/-- A word of core n's block, the sequencer's halt apart (Table 13.4). -/
def State.cfgWord (s : State) (n off : Nat) : Word :=
  let k := s.core n
  if off < 0x80000 then elem 64 (off % 0x200 / 8) (sget 0 k.v (vkey (off / 0x20000) (off / 0x200 % 256)))
  else if off < 0xE0000 then elem 64 (off / 8 % 2) (k.accBits ((off - 0x80000) / 16))
  else if off < 0xE6000 then elem 64 ((off - 0xE0000) % 0x3000 / 8) (k.bat ((off - 0xE0000) / 0x3000)).w
  else if off < 0xE6C00 then
    word16 fun i => (elem 12 ((off - 0xE6000) % 0x600 / 2 + i) (k.bat ((off - 0xE6000) / 0x600)).sc).toNat
  else if off < 0xE7000 then 0
  else if off < 0xE7020 then word16 fun i => (sget 0 k.poison ((off - 0xE7000) / 2 + i)).toNat
  else if off < 0xE7028 then k.batStatus.setWidth 64
  else if off < 0xE8000 then 0
  else if off < 0xEA000 then
    let t := (off - 0xE8000) / 0x400
    (k.ctx t).cfgWord (k.stage t).resume (off % 0x400)
  else if off < 0xF0000 then 0
  else if off < 0xF0400 then
    let c := (off - 0xF0000) / 0x100
    let j := off % 0x100 / 0x10
    elem 64 (off / 8 % 2) (if j = 0 then BitVec.allOnes 128 else sget 0 k.m (16 * c + j))
  else if 0xF1000 ≤ off && off < 0xF1280 then
    let r := (off - 0xF1000) / 8
    if cmpReg r && !(r == 2 || r == 3 || (0x10 ≤ r && r ≤ 0x12) || (0x18 ≤ r && r ≤ 0x1F)) then s.coreReg n r else 0
  else if off = 0xF2000 then k.cfgStatus
  else 0

/-- A load from configuration space: a halted-only word of a running core reads zero and sets REFUSED; reading
CFG.STATUS clears REFUSED (R47, R310). -/
def State.cfgRead (s : State) (n off : Nat) : Word × State :=
  let k := s.core n
  if haltedOnly off && !k.halted then (0, s.setCore n { k with cfgRefused := true })
  else (s.cfgWord n off, if off = 0xF2000 then s.setCore n { k with cfgRefused := false } else s)

/-- A store to a stage context (Table 13.5); a MODE of 6 or 7 is discarded whole and sets REFUSED (R29). In split mode it reaches no
stream's bank. [DEDUCED, log 43; DESIGN CHOICE, log 74] -/
def Core.cfgWriteCtx (k : Core) (t o : Nat) (v : Word) : Core :=
  let md := k.modCtx t
  if o < 0x100 then (if o < 8 then k else md fun x => { x with g := sset 0 x.g (o / 8) v })
  else if o < 0x108 then
    md fun x => { x with p := (List.range 8).foldl (fun m i => if i = 0 then m else sset false m i (v.getLsbD i)) x.p }
  else if 0x140 ≤ o && o < 0x180 then
    let put (m : Store (BitVec 9)) (i : Nat) :=
      sset 0 m (8 * ((o - 0x140) / 16) + (o % 16 / 8) * 4 + i) (v.extractLsb' (16 * i) 9)
    md fun x => { x with k := (List.range 4).foldl put x.k }
  else if 0x180 ≤ o && o < 0x1A0 then
    md fun x => { x with loops := smod Loop.reset x.loops ((o - 0x180) / 8) fun l => l.writeCnt v }
  else if 0x1A0 ≤ o && o < 0x1C0 then
    md fun x => { x with loops := smod Loop.reset x.loops ((o - 0x1A0) / 8) fun l => l.writeStart false v }
  else if o = 0x1C0 then
    (if 6 ≤ (v.extractLsb' 0 3).toNat then { k with cfgRefused := true } else md fun x => { x with rmode := v.extractLsb' 0 3 })
  else if o = 0x1C8 then md fun x => { x with sat := v.getLsbD 0 }
  else if o = 0x1D8 then md fun x => { x with fireLimit := v.extractLsb' 0 32 }
  else k

/-- What an accumulator entry holds for the bits stored into it: never -0 and never a NaN of another form (R57), but +0 and the canonical
NaN in their place, unless a store of the other half completes a value before the core runs again. [DESIGN CHOICE, log 43] -/
def accEntry (x : F128) : F128 :=
  if x = 0x80000000000000000000000000000000 then 0
  else if x.extractLsb' 112 15 == 0x7FFF && x.extractLsb' 0 112 != 0 then 0x7FFF8000000000000000000000000000
  else x

/-- Store a 64-bit half of accumulator entry i (R57, R309). [DESIGN CHOICE, log 43] -/
def Core.storeAcc (k : Core) (i half : Nat) (v : Word) : Core :=
  let x := setElem 64 half (k.accBits i) v
  { k with acc := sset 0 k.acc i (accEntry x), accRaw := sset 0 k.accRaw i (if accEntry x = x then 0 else x) }

/-- A store to a word of core n's block, the sequencer's halt apart. [DEDUCED, log 43] -/
def Core.cfgWriteWord (k : Core) (off : Nat) (v : Word) : Core :=
  if off < 0x80000 then
    { k with v := smod 0 k.v (vkey (off / 0x20000) (off / 0x200 % 256)) fun x => setElem 64 (off % 0x200 / 8) x v }
  else if off < 0xE0000 then
    k.storeAcc ((off - 0x80000) / 16) (off / 8 % 2) v
  else if off < 0xE6000 then
    { k with bats := smod Bat.reset k.bats ((off - 0xE0000) / 0x3000) fun b =>
        { b with w := setElem 64 ((off - 0xE0000) % 0x3000 / 8) b.w v } }
  else if off < 0xE6C00 then
    let put (x : BitVec 9216) (i : Nat) := setElem 12 ((off - 0xE6000) % 0x600 / 2 + i) x (v.extractLsb' (16 * i) 12)
    { k with bats := smod Bat.reset k.bats ((off - 0xE6000) / 0x600) fun b => { b with sc := (List.range 4).foldl put b.sc } }
  else if off < 0xE7000 then k
  else if off < 0xE7020 then
    let put (m : Store (BitVec 16)) (i : Nat) := sset 0 m ((off - 0xE7000) / 2 + i) (v.extractLsb' (16 * i) 16)
    { k with poison := (List.range 4).foldl put k.poison }
  else if off < 0xE8000 then k
  else if off < 0xEA000 then k.cfgWriteCtx ((off - 0xE8000) / 0x400) (off % 0x400) v
  else if off < 0xF0000 then k
  else if off < 0xF0400 then
    (if off % 0x100 < 0x10 then k
     else { k with m := smod 0 k.m (16 * ((off - 0xF0000) / 0x100) + off % 0x100 / 0x10) fun x => setElem 64 (off / 8 % 2) x v })
  else if off = 0xF1008 then { k with ctxOwner := v.extractLsb' 4 4, ctxWorld := v.getLsbD 3 }
  else if off = 0xF10A8 then k.clearErr v
  else k

/-- A store to configuration space (R47, R309, R310). -/
def State.cfgWrite (s : State) (n off : Nat) (v : Word) : State :=
  let k := s.core n
  if haltedOnly off && !k.halted then s.setCore n { k with cfgRefused := true } else s.setCore n (k.cfgWriteWord off v)

/-! ## Quarters (R5, R6, R435) -/

/-- The quarter of a compute core, and that of a link. -/
def quarterOf (c : Nat) : Nat := (if 8 ≤ c % 16 then 1 else 0) + (if 9 ≤ c / 16 then 2 else 0)
def linkQuarter (l : Nat) : Nat := l / 24

/-- The quarters that a mesh route from one quarter to another passes: it runs along the row, then along the column.
[DESIGN CHOICE, log 13] -/
def meshPath (a b : Nat) : List Nat := [a, b % 2 + 2 * (a / 2), b]

/-- Quarter q is awake, and its count of quiet clk starts again. -/
def Power.awake (p : Power) (q : Nat) : Power :=
  { p with idle := p.idle &&& ~~~(BitVec.ofNat 4 (2 ^ q)), quiet := sset 0 p.quiet q 0 }

/-- Quarters that something passes or reaches are awake. -/
def State.wakeAll (s : State) (l : List Nat) : State := { s with power := l.foldl Power.awake s.power }

/-- The quarter of a core that something reaches is awake; the hub die never idles. -/
def State.wake (s : State) (c : Nat) : State := if isHub c then s else s.wakeAll [quarterOf c]

/-- The core's clock runs: its quarter is not in IDLE and the package is not OFF; the hub die never idles. -/
def State.clocked (s : State) (c : Nat) : Bool :=
  !s.power.off && (isHub c || !s.power.idle.getLsbD (quarterOf c))

/-! ## Loads and stores of a hub core beside memory -/

/-- The state of a halted core n stands still only once the array operations that the core issued before its halt have completed: an
access to any word of its block waits for them, CFG.STATUS apart, which they do not change (R18, R230, R334). [DEDUCED, log 43] -/
def State.cfgUnsettled (s : State) (n off : Nat) : Bool := off != 0xF2000 && (s.core n).halted && !(s.core n).arr.isEmpty

/-- A 64-bit load outside memory by core c: configuration space, whose access wakes the target's quarter (R435), a Kiln record, the
window view. [DEDUCED, log 51] -/
def State.ldSpecial (s : State) (c pa ea : Nat) : Res (Word × State) :=
  let world := (s.core c).ctxWorld
  match rangeOf pa with
  | .cfg =>
    if !world && (s.core (cfgCore pa)).ctxWorld then segv 4 ea
    else if s.cfgUnsettled (cfgCore pa) (cfgOff pa) then waiting
    else .ok ((s.wake (cfgCore pa)).cfgRead (cfgCore pa) (cfgOff pa))
  | .kilnRec =>
    let i := (pa - 0xC00000000) / 64
    if !world && (s.recd i).world then segv 4 ea else .ok (s.recWord i (pa / 8 % 8), s)
  | .winView => .ok (s.winWord ((pa - 0xF40000000) / 16) (pa / 8 % 2) world, s)
  | _ => segv 6 ea

/-- A 64-bit store outside memory by core c: configuration space only, which wakes the target's quarter. -/
def State.stSpecial (s : State) (c pa ea : Nat) (v : Word) : Res State :=
  match rangeOf pa with
  | .cfg =>
    if !(s.core c).ctxWorld && (s.core (cfgCore pa)).ctxWorld then segv 4 ea
    else if s.cfgUnsettled (cfgCore pa) (cfgOff pa) then waiting
    else .ok ((s.wake (cfgCore pa)).cfgWrite (cfgCore pa) (cfgOff pa) v)
  | _ => segv 6 ea

end Sys2Proof.Machine
end

