-- ==== Sys2Proof/Machine/Ports.lean ====
section
/-! DEFINITION. Inbound and outbound ports, entries and credits (spec/10 R234 to R242, spec/15 R338): heads and beats, what is
present, removing and pushing an entry, the checks on a named port, and the rate checks. -/

open Sys2Proof.Machine

namespace Sys2Proof

/-! ## Entries (R234, R235) -/

/-- Beat b of an entry, zero beyond it. -/
def Entry.beat (e : Entry) (b : Nat) : Beat := e.beats.getD b 0
/-- The head beat of a tile, or a marker's beat. -/
def Entry.head (e : Entry) : Beat := e.beat 0

/-- Fields of a head beat (Table 10.1). -/
def hKind (h : Beat) : Nat := fld h.toNat 0 4
def hFmt (h : Beat) : Nat := fld h.toNat 4 4
def hRows (h : Beat) : Nat := fld h.toNat 8 5
def hRowb (h : Beat) : Nat := fld h.toNat 16 8
def hScb (h : Beat) : Nat := fld h.toNat 24 2
def hCharge (h : Beat) : BitVec 16 := h.extractLsb' 32 16
def hPoison (h : Beat) : BitVec 16 := h.extractLsb' 48 16
/-- PAYLOAD of a marker. -/
def hPayload (h : Beat) : BitVec 32 := h.extractLsb' 64 32

/-- A head beat from its fields. -/
def mkHead (kind fmt rows rowb scb : Nat) (charge poison : BitVec 16) (first user : Nat) : Beat :=
  BitVec.ofNat 512 (kind + fmt <<< 4 + rows <<< 8 + rowb <<< 16 + scb <<< 24 + charge.toNat <<< 32 + poison.toNat <<< 48 +
    first <<< 64 + user <<< 96)

/-- A marker of kind 9 CB, 10 CE, 11 user. -/
def mkMarker (kind : Nat) (charge : BitVec 16) (payload : BitVec 32) : Entry :=
  { kind := .marker, beats := [BitVec.ofNat 512 (kind + charge.toNat <<< 32 + payload.toNat <<< 64)] }

def Entry.isTile (e : Entry) : Bool := e.kind == .tile
def Entry.isMarker (e : Entry) : Bool := e.kind == .marker

/-- A tile head with a reserved field value (R235). -/
def badHead (h : Beat) : Bool :=
  decide (2 < hKind h) || decide (11 < hFmt h) || decide (16 < hRows h) || decide (128 < hRowb h) || hScb h == 3

/-- Beats of a tile before its rows. -/
def Entry.rowBeat (e : Entry) : Nat := 1 + hScb e.head

/-- Row r of a tile: 128 bytes. -/
def Entry.row (e : Entry) (r : Nat) : BitVec 1024 :=
  e.beat (e.rowBeat + 2 * r + 1) ++ e.beat (e.rowBeat + 2 * r)

/-- Scale q of a tile: pairs of 24 bits, 21 to a scale beat (R55). -/
def Entry.scale (e : Entry) (q : Nat) : BitVec 12 :=
  let p := q / 2
  (e.beat (1 + p / 21)).extractLsb' (24 * (p % 21) + 12 * (q % 2)) 12

/-- A tile from a head, its scale beats and its rows. -/
def mkTile (head : Beat) (scales : List Beat) (rows : List (BitVec 1024)) : Entry :=
  { kind := .tile, beats := head :: scales ++ rows.flatMap fun r => [elem 512 0 r, elem 512 1 r] }

/-- Scale beats that hold a list of scales (R55). -/
def scaleBeats (sc : List (BitVec 12)) : List Beat :=
  let n := ceilDiv (ceilDiv sc.length 2) 21
  (List.range n).map fun k => packN 512 24 21 fun p =>
    sc.getD (2 * (21 * k + p) + 1) 0 ++ sc.getD (2 * (21 * k + p)) 0

end Sys2Proof

namespace Sys2Proof.Machine

/-! ## Port state -/

def Core.inp (k : Core) (n : Nat) : IqPort := sget IqPort.reset k.iq n
def Core.outp (k : Core) (n : Nat) : OqPort := sget OqPort.reset k.oq n
def State.iq (s : State) (c n : Nat) : IqPort := (s.core c).inp n
def State.oq (s : State) (c n : Nat) : OqPort := (s.core c).outp n
def State.modIq (s : State) (c n : Nat) (f : IqPort → IqPort) : State :=
  s.modCore c fun k => { k with iq := smod IqPort.reset k.iq n f }
def State.modOq (s : State) (c n : Nat) (f : OqPort → OqPort) : State :=
  s.modCore c fun k => { k with oq := smod OqPort.reset k.oq n f }

def State.circ (s : State) (id : Nat) : Circ := sget Circ.reset s.circs id
def State.modCirc (s : State) (id : Nat) (f : Circ → Circ) : State := { s with circs := smod Circ.reset s.circs id f }
def State.modInst (s : State) (i : Nat) (f : Inst → Inst) : State :=
  { s with kiln := { s.kiln with insts := smod Inst.reset s.kiln.insts i f } }

/-- Tiles present ahead of the first marker (R247). -/
def IqPort.tilesAhead (p : IqPort) : Nat := (p.q.takeWhile Entry.isTile).length

/-- A free-slot notice for one removed entry, back along the circuit of port n of core c (R237, R338); one that a token owes pays for
the token instead (R405). -/
def State.returnCredit (s : State) (c n : Nat) : State :=
  match (s.iq c n).bind with
  | .route d m => s.modOq d m fun p => { p with notices := p.notices + 1 }
  | .circ id =>
    if (s.iq c n).owed = 0 then s.modCirc id fun x => { x with credOut := x.credOut + 1 }
    else s.modIq c n fun p => { p with owed := p.owed - 1 }
  | .kiln i => s.modInst i fun x => { x with credits := x.credits + 1 }
  | .reply _ | .unbound => s

/-- The charges whose CE has been removed at a port, once an entry has been removed; those that every input has seen are forgotten
(State.endCharges, R400). -/
def IqPort.ceAfter (p : IqPort) (e : Entry) : List (BitVec 16) :=
  let c := hCharge e.head
  if e.kind = .token then p.ceSeen
  else (if e.isMarker && hKind e.head == 10 then [c] else []) ++ p.ceSeen.filter (· != c)

/-- Remove the head entry of a port: the cursor goes back to beat 0 and one credit returns (R237). -/
def State.removeHead (s : State) (c n : Nat) : State :=
  let p := s.iq c n
  match p.q with
  | [] => s
  | e :: t => (s.modIq c n fun x => { x with q := t, beat := 0, word := 0, ceSeen := x.ceAfter e }).returnCredit c n

/-- A tile is begun at an iq: the popped count rises (R238). -/
def State.countPop (s : State) (c n : Nat) : State := s.modIq c n fun x => { x with popped := x.popped + 1 }

/-! ## The reconfiguration token at a port (R405) -/

/-- An entry closes the open charge of its port: a CE, or the last header tile at a Kiln port (R405). -/
def State.closes (s : State) (b : InBind) (e : Entry) : Bool :=
  match e.kind with
  | .marker => hKind e.head == 10
  | .tile =>
    match b with
    | .kiln i => hKind e.head == 1 && fld e.head.toNat 64 32 == 128 * (ceilDiv (s.inst i).rmax 128 - 1)
    | _ => false
  | .token => false

/-- A charge is open at a port behind an entry, given whether one was before it. -/
def State.opens (s : State) (b : InBind) (o : Bool) (e : Entry) : Bool :=
  (o || (e.isMarker && hKind e.head == 9)) && !s.closes b e

/-- What waits at the producer of a port behind a pending accumulator read (R230): entries, and (none) the tiles of such reads. -/
def State.outqOf (s : State) (b : InBind) : List (Option Entry) :=
  match b with
  | .route c n => (s.oq c n).outq
  | .circ _ | .kiln _ | .reply _ | .unbound => []

/-- A charge is open behind the last entry pushed to a port. -/
def State.openTail (s : State) (p : IqPort) : Bool :=
  (p.coming ++ (s.outqOf p.bind).filterMap id).foldl (s.opens p.bind) p.openCh

/-- Open an entry at an oq: one credit is consumed (R236). -/
def State.takeCredit (s : State) (c n : Nat) : State := s.modOq c n fun x => { x with credits := x.credits - 1 }

/-- Slots of a port that are taken: by what is present, what is held behind a token, and what is on its way. -/
def IqPort.taken (p : IqPort) : Nat := p.q.length + p.held.length + p.coming.length

/-- Tiles of the core's rld.iq commands to a port that have been asked for and not delivered (R267). -/
def Core.repliesDue (k : Core) (iqCore iqPort : Nat) : Nat :=
  (k.eng.map fun e => match e.op with
    | .remote r => if r.kind == .rldIq && r.iqCore == iqCore && r.iqPort == iqPort
        then ceilDiv (min r.sent r.len) 2048 - ceilDiv r.given 2048 else 0
    | _ => 0).sum

/-- A token finds the slot and credit it needs (R405): the producer's credit on the package, else a slot of the port that no entry, and
no reply tile that has been asked for, takes. [DEDUCED, log 38] -/
def State.tokenCredit (s : State) (c n : Nat) : Bool :=
  let p := s.iq c n
  match p.bind with
  | .route c2 m => decide (0 < (s.oq c2 m).credits)
  | .kiln i => decide (0 < (s.inst i).credits)
  | .circ _ => decide (p.taken < p.cap)
  | .reply d => decide (p.taken + (s.core d).repliesDue c n < p.cap)
  | .unbound => true

/-- A token takes its credit: the producer's on the package; at a circuit's port one of those that have still to go back to the far end,
else the next to be returned; at a reply port its slot is the credit (R267, R405). [DEDUCED, log 38] -/
def State.takeTokenCredit (s : State) (c n : Nat) : State :=
  match (s.iq c n).bind with
  | .route c2 m => s.takeCredit c2 m
  | .kiln i => s.modInst i fun x => { x with credits := x.credits - 1 }
  | .circ id =>
    if 0 < (s.circ id).credOut then s.modCirc id fun x => { x with credOut := x.credOut - 1 }
    else s.modIq c n fun p => { p with owed := p.owed + 1 }
  | .reply _ | .unbound => s

/-- The token as an entry of a port. -/
def tokenEntry : Entry := { kind := .token, beats := [] }

/-- A token comes behind every entry that has left its producer (R333): at the port, or after those on their way. -/
def IqPort.addToken (p : IqPort) : IqPort :=
  if p.coming.isEmpty then { p with q := p.q ++ [tokenEntry], tokenDue := false, behind := true }
  else { p with coming := p.coming ++ [tokenEntry], tokenDue := false }

/-- A token takes its place at a port: behind what waits at the producer for an accumulator read, else behind what has left it (R333).
It reaches the core, whose quarter is awake (R435). -/
def State.putToken (s : State) (c n : Nat) : State :=
  let t := s.wake c
  match (s.iq c n).bind with
  | .route c2 m =>
    if (s.oq c2 m).outq.isEmpty then t.modIq c n IqPort.addToken
    else (t.modOq c2 m fun x => { x with outq := x.outq ++ [some tokenEntry] }).modIq c n fun x => { x with tokenDue := false }
  | .circ _ | .kiln _ | .reply _ | .unbound => t.modIq c n IqPort.addToken

/-- Place a token that is due and whose place has come, against one credit (R405). -/
def State.placeToken (s : State) (c n : Nat) : Option State :=
  let p := s.iq c n
  if p.tokenDue && !s.openTail p && s.tokenCredit c n then some ((s.takeTokenCredit c n).putToken c n) else none

/-- As placeToken, where no token can be placed the state as it is. -/
def State.tryToken (s : State) (c n : Nat) : State := (s.placeToken c n).getD s

/-! ## Pushing -/

/-- A finished entry leaves along the port's circuit (R236); a token that is due follows the entry that closes its charge. -/
def State.emitEntry (s : State) (c n : Nat) (e : Entry) : State :=
  match (s.oq c n).bind with
  | .route c2 m => (s.modIq c2 m fun x => { x with coming := x.coming ++ [e] }).tryToken c2 m
  | .circ id => s.modCirc id fun x => { x with txq := x.txq ++ [e] }
  | .unbound => s

/-- A token that is due at the far end of an oq on the package follows what has just been pushed there. -/
def State.tryTokenAt (s : State) (c n : Nat) : State :=
  match (s.oq c n).bind with
  | .route c2 m => s.tryToken c2 m
  | .circ _ | .unbound => s

/-- Send a finished entry; its credit was taken when it was opened. Behind a pending accumulator read it waits its turn
(R230). -/
def State.sendEntry (s : State) (c n : Nat) (e : Entry) : State :=
  if (s.oq c n).outq.isEmpty then s.emitEntry c n e
  else (s.modOq c n fun x => { x with outq := x.outq ++ [some e] }).tryTokenAt c n

/-- Send the entries that no pending read stands before. -/
def State.flushOut (s : State) (c n : Nat) : State :=
  let es := (s.oq c n).outq.takeWhile Option.isSome
  let s1 := s.modOq c n fun x => { x with outq := x.outq.dropWhile Option.isSome }
  es.foldl (fun t e => match e with
    | some x => t.emitEntry c n x
    | none => t) s1

/-- The tile of the first pending accumulator read of an oq is complete. -/
def State.fillOut (s : State) (c n : Nat) (e : Entry) : State :=
  let q := (s.oq c n).outq
  let i := q.findIdx Option.isNone
  (s.modOq c n fun x => { x with outq := q.set i (some e) }).flushOut c n

/-- Push a whole entry. -/
def State.pushEntry (s : State) (c n : Nat) (e : Entry) : State := (s.takeCredit c n).sendEntry c n e

/-! ## The checks on a named port (R21, R238, R239, R241) -/

/-- Rates of the firing stage; 0 is not declared (R337). -/
def Stage.rateIn (t : Stage) (n : Nat) : Nat := sget 0 t.inRate n
def Stage.rateOut (t : Stage) (n : Nat) : Nat := sget 0 t.outRate n
/-- Declared ports, ascending. -/
def Stage.ins (t : Stage) : List Nat := (List.range 16).filter fun n => t.rateIn n != 0
def Stage.outs (t : Stage) : List Nat := (List.range 16).filter fun n => t.rateOut n != 0

/-- An iq the stage may name: the stream's own, assigned and declared, bound (R239). -/
def State.iqOk (s : State) (n : Nat) : Res Unit :=
  let p := s.iq s.focus n
  if s.inSplit && n != 12 + s.stream then illop 0x04
  else if p.owner != some s.stg || s.stage.rateIn n == 0 then illop 0x49
  else if p.bind == .unbound then illop 0x09 else .ok ()

def State.oqOk (s : State) (n : Nat) : Res Unit :=
  let p := s.oq s.focus n
  if s.inSplit && n != 12 + s.stream then illop 0x04
  else if p.owner != some s.stg || s.stage.rateOut n == 0 then illop 0x49
  else if p.bind == .unbound then illop 0x09 else .ok ()

/-- QRATE at a port field value (R238). -/
def qrate {α : Type} (field : Nat) : Res α := faultWith 0x07 field

/-- A tile may be begun at an iq: the count is below the rate (R238). -/
def State.popRate (s : State) (n : Nat) : Res Unit := need ((s.iq s.focus n).popped < s.stage.rateIn n) (qrate n)
def State.pushRate (s : State) (n : Nat) : Res Unit := need ((s.oq s.focus n).pushed < s.stage.rateOut n) (qrate (16 + n))

/-- CIRCFAIL at a port field value (Table 18.1). -/
def circFail {α : Type} (field : Nat) : Res α := faultWith 0x0C field

/-- The entry present at the head of a port, a tile or a marker (R236); a token is none, and hides what is behind it (R405, R407). -/
def IqPort.present (p : IqPort) : Option Entry :=
  match p.q with
  | e :: _ => if e.kind == .token then none else some e
  | [] => none

/-- What a stalling pop waits for: an entry that is there, or a FAILED circuit (R95, R241). -/
def State.iqWait (s : State) (n : Nat) : Res Unit :=
  let p := s.iq s.focus n
  need (p.failed || p.present.isSome) waiting

/-- What a stalling push waits for: a credit, or a FAILED circuit (R95, R241). -/
def State.oqWait (s : State) (n : Nat) : Res Unit :=
  need ((s.oq s.focus n).failed || (s.oq s.focus n).credits != 0) waiting

/-- The head entry of a port, a tile or a marker: none present is a wait, or CIRCFAIL at a FAILED circuit (R95, R241). -/
def State.headEntry (s : State) (n : Nat) : Res Entry :=
  let p := s.iq s.focus n
  match p.present with
  | none => if p.failed then circFail n else waiting
  | some e => .ok e

/-- The head entry of a qpeek: not a marker (R240). -/
def State.headPeek (s : State) (n : Nat) : Res Entry := do
  let e ← s.headEntry n
  need (!e.isMarker) (illop 0x48)
  .ok e

/-- The head entry of qskip and qcopy, which accept a marker and remove a tile, whose head holds no reserved value
(R235, R240). [DEDUCED, log 26] -/
def State.headAny (s : State) (n : Nat) : Res Entry := do
  let e ← s.headEntry n
  need (!(e.isTile && badHead e.head)) (illop 0x4E)
  .ok e

/-- The head tile that a pop takes (R235, R240, R241). -/
def State.headTile (s : State) (n : Nat) : Res Entry := do
  let e ← s.headPeek n
  need (!badHead e.head) (illop 0x4E)
  .ok e

/-- A tile stands at the head of a port, whose cursor is at beat 0. -/
def IqPort.headTileAt (p : IqPort) : Bool :=
  match p.q with
  | e :: _ => e.isTile && p.beat == 0
  | [] => false

/-- A faulting operation counts the tile that it would begin at an iq: one stands at the head, at beat 0 (R238). -/
def State.beginsPop (n : Nat) (pre cur : State) : State :=
  if (pre.iq pre.focus n).headTileAt then cur.countPop cur.focus n else cur

/-- A faulting operation counts the tile that it would open at an oq: none is open, and a credit is there (R238). -/
def State.beginsPush (n : Nat) (pre cur : State) : State :=
  let p := pre.oq pre.focus n
  if p.cur.isNone && !p.failed && p.credits != 0 then
    cur.modOq cur.focus n fun x => { x with pushed := x.pushed + 1 }
  else cur

/-- A push finds its circuit alive and a credit (R236, R241). -/
def State.creditOk (s : State) (n : Nat) : Res Unit :=
  let p := s.oq s.focus n
  if p.failed then circFail (16 + n) else if p.credits == 0 then waiting else .ok ()

/-- The write cursor stands at beat 0. -/
def OqPort.atHead (p : OqPort) : Bool := p.cur.isNone

/-! ## Closing a firing (R157, R158, R240) -/

/-- The lowest port field value whose check fails at the close of a firing (R157). -/
def State.rateFault (s : State) : Option Nat :=
  let t := s.stage
  let data := fld s.ctx.fireDesc.toNat 4 4 == 0
  let inBad (n : Nat) : Bool :=
    let p := s.iq s.focus n
    !(if data then p.popped == t.rateIn n else p.popped ≤ t.rateIn n) || p.beat != 0 || p.word != 0
  let outBad (n : Nat) : Bool :=
    let p := s.oq s.focus n
    !(if data then p.pushed == t.rateOut n else p.pushed ≤ t.rateOut n) || !p.atHead
  match t.ins.find? inBad with
  | some n => some n
  | none => (t.outs.find? outBad).map (16 + ·)

/-- The counts of a stage's ports go to 0. -/
def Core.clearCounts (k : Core) (t : Nat) : Core :=
  let ins := (k.stage t).ins
  let outs := (k.stage t).outs
  { k with iq := ins.foldl (fun m n => smod IqPort.reset m n fun p => { p with popped := 0 }) k.iq
           oq := outs.foldl (fun m n => smod OqPort.reset m n fun p => { p with pushed := 0 }) k.oq }

/-- The marker that started a marker firing is removed if it still stands at its port's head (R240). -/
def State.dropMarker (s : State) (c t : Nat) : State :=
  match ((s.core c).stage t).markerPort with
  | none => s
  | some n =>
    match (s.iq c n.toNat).q with
    | e :: _ => if e.isMarker then s.removeHead c n.toNat else s
    | [] => s

/-- Every loop level inactive (R151). [DEDUCED, log 22] -/
def stopLoops (m : Store Loop) : Store Loop :=
  (List.range 4).foldl (fun m j => smod Loop.reset m j fun l => { l with len := 0 }) m

/-- The charges whose CE every declared input of a stage has seen are over for it, those in discard apart: a later charge of the same
number is another one (R400). [DEDUCED, log 41] -/
def State.endCharges (s : State) (c t : Nat) : State :=
  let st := (s.core c).stage t
  let ended (d : BitVec 16) : Bool := !st.discard.contains d && st.ins.all fun n => (s.iq c n).ceSeen.contains d
  st.ins.foldl (fun q n => q.modIq c n fun p => { p with ceSeen := p.ceSeen.filter fun d => !ended d }) s

/-- End the firing of stage t of core c: the marker, the charges whose CE it took, FIRE.CNT, the counts, the loop levels unless kept; the
stage is ELIGIBLE and the core has no stage FIRING (R158, R159); an abort counts in FIRE.CNT as fire.end does (R399).
[DEDUCED, log 23; DEDUCED, log 41; DEDUCED, log 42] -/
def State.closeFiring (s : State) (c t : Nat) (keepLoops : Bool) : State :=
  ((s.dropMarker c t).endCharges c t).modCore c fun k =>
    let k1 := k.clearCounts t
    let k2 := k1.modCtx t fun x =>
      { x with fireCnt := x.fireCnt + 1, loops := if keepLoops then x.loops else stopLoops x.loops }
    { (k2.modStage t fun x => { x with state := .eligible, markerPort := none, watch := 0, aging := 0 }) with
      firing := if k.firing = some t then none else k.firing }

end Sys2Proof.Machine
end

