-- ==== Sys2Proof/Machine/Firing.lean ====
section
/-! DEFINITION. The firing rule and the start of a firing (spec/15 R339 to R345): readiness, pass-through, the arbiter's
choice, FIRE.DESC (spec/01 R30) and the charge boundary (R43, Table 1.13). -/

namespace Sys2Proof.Machine

/-! ## Notices a hub core may take (R293) -/

/-- A hub core's caller may take a notice: at S of its world and owner, or a LINK_RETRAINED of its world; at M any of
its world. -/
def Core.mayTake (k : Core) (n : Notice) : Bool :=
  n.w0.getLsbD 12 == k.ctxWorld &&
  match k.hub.priv with
  | .u => false
  | .s => fld n.w0.toNat 0 8 == 5 || fld n.w0.toNat 8 4 == k.ctxOwner.toNat
  | .m => true

/-! ## Readiness (R339 to R342) -/

/-- The head of a port, if any. -/
def IqPort.headMarker (p : IqPort) : Option Entry :=
  match p.q with
  | e :: _ => if e.isMarker then some e else none
  | [] => none

def IqPort.headIsTile (p : IqPort) : Bool :=
  match p.q with
  | e :: _ => e.isTile
  | [] => false

/-- The marker at the head of inbound port n of core c. -/
def State.markerAt (s : State) (c n : Nat) : Option Entry := (s.iq c n).headMarker

/-- DataReady (R339). -/
def State.dataReady (s : State) (c t : Nat) : Bool :=
  let st := (s.core c).stage t
  (st.ins.all fun n => decide (st.rateIn n ≤ (s.iq c n).tilesAhead)) &&
  (st.outs.all fun n => decide (st.rateOut n ≤ (s.oq c n).credits) && (s.oq c n).atHead)

/-- Every declared output has a credit and its cursor at beat 0. -/
def State.outsOpen (s : State) (c t : Nat) : Bool :=
  ((s.core c).stage t).outs.all fun n => decide (0 < (s.oq c n).credits) && (s.oq c n).atHead

/-- A CB or CE at the head of a port: its kind and charge. -/
def State.cbceAt (s : State) (c n : Nat) : Option (Nat × BitVec 16) :=
  match s.markerAt c n with
  | some e => if hKind e.head == 9 || hKind e.head == 10 then some (hKind e.head, hCharge e.head) else none
  | none => none

/-- A user marker that can pass: the lowest iq with one at its head, when every output has a credit (R341). -/
def State.userPass (s : State) (c t : Nat) : Option Nat :=
  if s.outsOpen c t then
    ((s.core c).stage t).ins.find? fun n =>
      match s.markerAt c n with
      | some e => hKind e.head == 11
      | none => false
  else none

/-- Every declared input has a CB or CE at its head, all alike, and every output has a credit (R341). -/
def State.cbcePass (s : State) (c t : Nat) : Bool :=
  let ins := ((s.core c).stage t).ins
  match ins with
  | [] => false
  | n :: _ => (s.cbceAt c n).isSome && (ins.all fun m => s.cbceAt c m == s.cbceAt c n) && s.outsOpen c t

def State.passReady (s : State) (c t : Nat) : Bool := (s.userPass c t).isSome || s.cbcePass c t

/-- MARKSEQ: the two ports named, for a stage without a marker entry (R342). -/
def State.markSeq (s : State) (c t : Nat) : Option (Nat × Nat) :=
  let st := (s.core c).stage t
  let ins := st.ins
  if st.marker.isSome then none
  else
    match ins with
    | [] => none
    | n :: _ =>
      if ins.all fun m => (s.cbceAt c m).isSome then
        (ins.find? fun m => s.cbceAt c m != s.cbceAt c n).map fun m => (n, m)
      else
        match ins.find? fun m => (s.cbceAt c m).isSome, ins.find? fun m => (s.iq c m).headIsTile with
        | some a, some b => some (a, b)
        | _, _ => none

/-- The lowest declared input with a marker at its head. -/
def State.markerPortOf (s : State) (c t : Nat) : Option Nat :=
  ((s.core c).stage t).ins.find? fun n => (s.markerAt c n).isSome

/-- A marker firing is ready: a marker entry and a marker at a head (R340). -/
def State.markerReady (s : State) (c t : Nat) : Bool :=
  ((s.core c).stage t).marker.isSome && (s.markerPortOf c t).isSome

/-! ## Discard (R400) -/

/-- An abort CE of a declared input (R400). -/
def isAbortCe (e : Entry) : Bool := e.isMarker && hKind e.head == 10 && (hPayload e.head).getLsbD 31

/-- The charge of an abort CE present on a declared input, for which the stage is not in discard yet. -/
def State.abortSeen (s : State) (c t : Nat) : Option (BitVec 16) :=
  let st := (s.core c).stage t
  st.ins.findSome? fun n =>
    ((s.iq c n).q.find? fun e => isAbortCe e && !st.discard.contains (hCharge e.head)).map fun e => hCharge e.head

/-- The lowest declared input with an entry of a charge in discard at its head. -/
def State.discardPort (s : State) (c t : Nat) : Option Nat :=
  let st := (s.core c).stage t
  st.ins.find? fun n =>
    match (s.iq c n).q with
    | e :: _ => e.kind != .token && st.discard.contains (hCharge e.head)
    | [] => false

/-- A stage in discard for charge d is granted no firing for d: the charge its next firing would have. -/
def State.nextCharge (s : State) (c t : Nat) : BitVec 16 :=
  let st := (s.core c).stage t
  match (if s.markerReady c t then s.markerPortOf c t else st.ins.head?) with
  | some n =>
    match (s.iq c n).q with
    | e :: _ => hCharge e.head
    | [] => 0
  | none => st.prevCharge.getD 0

/-- A stage that core c has taken under a token, while another core of the region has yet to commit: it makes no access and its
routes are not bound (R333, R406). [DEDUCED, log 38] -/
def State.heldNew (s : State) (c t : Nat) : Bool := s.tokens.any fun k => k.stages.contains (c, t) && !k.todo.contains c

/-- A stage can be granted (R339, R344): ELIGIBLE, held by no token, not held by discard, and ready. -/
def State.ready (s : State) (c t : Nat) : Bool :=
  let st := (s.core c).stage t
  st.state == .eligible && !st.passed && !s.heldNew c t && (s.markSeq c t).isNone &&
  (s.markerReady c t || (st.marker.isNone && s.passReady c t) || s.dataReady c t) &&
  !st.discard.contains (s.nextCharge c t)

/-! ## The arbiter (R344) -/

/-- e(s) = min(7, prio + c(s) ÷ 8). -/
def Stage.ePrio (t : Stage) : Nat := min 7 (t.prio.toNat + t.aging / 8)

/-- The stage the arbiter grants: highest effective priority, then the first after the last granted. -/
def State.arbiter (s : State) (c : Nat) : Option Nat :=
  let k := s.core c
  let order := (List.range 8).map fun i => (k.lastGrant + 1 + i) % 8
  order.foldl (fun best t =>
    if s.ready c t then
      match best with
      | none => some t
      | some b => if (k.stage b).ePrio < (k.stage t).ePrio then some t else best
    else best) none

/-- A stage that is not ready has no grants to count: its count starts again (R344); while the sequencer is halted none changes
(R345). -/
def Core.lapse (k : Core) (rdy : Nat → Bool) : Core :=
  if k.halted then k
  else (List.range 8).foldl (fun q t => if (q.stage t).aging != 0 && !rdy t then q.modStage t fun x => { x with aging := 0 } else q) k

/-- The grant counts: the granted stage's goes to 0, every other ready stage's rises, and that of a stage that is not
ready goes to 0 (R344). -/
def State.ageStages (s : State) (c t : Nat) : State :=
  let others := (List.range 8).filter (· != t)
  s.modCore c fun k =>
    let k1 := k.modStage t fun x => { x with aging := 0 }
    { (others.foldl (fun q x => q.modStage x fun y => { y with aging := if s.ready c x then y.aging + 1 else 0 }) k1) with lastGrant := t }

/-! ## The charge boundary (R43) -/

/-- A key of a v-register, mask, accumulator or bat store lies in a declaration. -/
def Stage.ownsV (t : Stage) (key : Nat) : Bool := t.hasV (key % 256)
def Stage.ownsM (t : Stage) (key : Nat) : Bool := t.masks.getLsbD (key % 16)
def Stage.ownsAcc (t : Stage) (key : Nat) : Bool := t.hasAcc (key / 1536)

/-- Remove the entries a predicate picks: they read their default again. -/
def sdrop {α : Type} (f : Nat → Bool) (m : Store α) : Store α := m.filter fun e => !f e.1

/-- The registers of a declaration at the values of a charge boundary and of a load (Table 1.13). -/
def Core.clearDecl (k : Core) (t : Stage) : Core :=
  { k with
    v := sdrop t.ownsV k.v
    m := sdrop t.ownsM k.m
    acc := sdrop t.ownsAcc k.acc
    accRaw := sdrop t.ownsAcc k.accRaw
    poison := sdrop t.hasAcc k.poison
    bats := sdrop t.hasBat k.bats
    activeBat := if t.bats != 0 then false else k.activeBat }

/-- The scalar context at a charge boundary: what .keep names, FIRE.DESC, FIRE.LIMIT and FIRE.CNT stay (Table 1.13).
[DEDUCED, log 53] -/
def Ctx.boundary (x : Ctx) (keep : BitVec 8) : Ctx :=
  { Ctx.reset with
    g := sdrop (fun r => !(decide (24 ≤ r) && keep.getLsbD (r - 24))) x.g
    fireDesc := x.fireDesc, fireLimit := x.fireLimit, fireCnt := x.fireCnt }

def Core.chargeBoundary (k : Core) (t : Nat) : Core :=
  ((k.modCtx t fun x => x.boundary (k.stage t).keep).clearDecl (k.stage t))

/-- An operation in the array names a tile or bat of a declaration, or is a read of the stage (R43, R65). -/
def Stage.inArray (st : Stage) (t : Nat) (o : ArrOp) : Bool :=
  match o with
  | .fillW b .. | .fillS b .. => st.hasBat b
  | .pass tile b .. => st.hasAcc tile || st.hasBat b
  | .read tile _ _ _ _ _ _ stg _ => st.hasAcc tile || stg == t

/-! ## Starting a firing (R30, R343) -/

/-- FIRE.DESC (Table 1.8). -/
def fireDescOf (payload : BitVec 32) (charge : BitVec 16) (port reason stage : Nat) : Word :=
  BitVec.ofNat 64 (payload.toNat <<< 32 + charge.toNat <<< 16 + port <<< 12 + reason <<< 4 + stage)

/-- FIRE.DESC of the next firing of stage t, and the marker's port. -/
def State.nextDesc (s : State) (c t : Nat) : Word × Option (BitVec 4) :=
  if s.markerReady c t then
    match s.markerPortOf c t with
    | some n =>
      match s.markerAt c n with
      | some e => (fireDescOf (hPayload e.head) (hCharge e.head) n (hKind e.head - 8) t, some (BitVec.ofNat 4 n))
      | none => (fireDescOf 0 0 0 0 t, none)
    | none => (fireDescOf 0 0 0 0 t, none)
  else (fireDescOf 0 (s.nextCharge c t) 0 0 t, none)

/-- Bundle index of the first bundle: the resume point, the marker entry or the data entry (R343). -/
def Stage.startIndex (t : Stage) (marker : Bool) : BitVec 12 :=
  match t.resume with
  | some r => r
  | none => if marker then t.marker.getD t.entry else t.entry

/-- The charge boundary is due: the charge differs from that of the previous firing, or the first after a load. -/
def State.boundaryDue (s : State) (c t : Nat) : Bool :=
  ((s.core c).stage t).prevCharge != some (s.nextCharge c t)

/-- A due boundary waits for the array (R43). [DEDUCED, log 53] -/
def State.boundaryOk (s : State) (c t : Nat) : Bool :=
  !s.boundaryDue c t || !(s.core c).arr.any fun o => ((s.core c).stage t).inArray t o

/-- Start a firing of stage t of compute core c (R343). [DEDUCED, log 53] -/
def State.startFiring (s : State) (c t : Nat) : State :=
  let d := s.nextDesc c t
  let due := s.boundaryDue c t
  s.modCore c fun k =>
    let k1 := k.modCtx t fun x => { x with fireDesc := d.1 }
    let k2 := if due then k1.chargeBoundary t else k1
    let k3 := k2.modStage t fun x =>
      { x with state := .firing, prevCharge := some (d.1.extractLsb' 16 16), markerPort := d.2, watch := 0 }
    { k3 with firing := some t, pc := ((k.stage t).startIndex d.2.isSome).setWidth 40 <<< 5 }

/-- A hub core's system stage has a firing ready: under the firing rule when it declares inputs, of a charge that it does not discard
and after what it has to discard, else when a notice may be taken (R349, R400). -/
def State.hubReady (s : State) (c : Nat) : Bool :=
  let k := s.core c
  if (k.stage 0).ins.isEmpty then s.notices.any k.mayTake
  else (s.abortSeen c 0).isNone && (s.discardPort c 0).isNone && (s.markerReady c 0 || s.dataReady c 0)

/-- Start the next firing of a hub core's system stage: FIRE.DESC only (R160, R349). -/
def State.startHub (s : State) (c : Nat) : State :=
  let d := if ((s.core c).stage 0).ins.isEmpty then (fireDescOf 0 0 0 0 0, none) else s.nextDesc c 0
  s.modCore c fun k =>
    (k.modCtx 0 fun x => { x with fireDesc := d.1 }).modStage 0 fun x => { x with markerPort := d.2 }

end Sys2Proof.Machine
end

