-- ==== Sys2Proof/Machine/Control.lean ====
section
/-! DEFINITION. The C slot (spec/06): transfers, loops, halts and traps, the end of a firing, split streams, the group barrier,
counting flags and the system registers. -/

namespace Sys2Proof.Machine

/-- An operation of the C slot. -/
def cOp (g : Guard) (uses : Uses) (fx : State → State → Res (State × Flow)) : SlotOp :=
  { slot := .c, guard := g, legal := .both, level := 0, splitOk := true, static := fun _ => none,
    uses := fun _ => uses, early := false, fx := fx }

/-- A decode fault in split mode (Table 3.14, R28). -/
def inSplitFault (d : Nat) (s : State) : Option Nat := if s.inSplit then some d else none

/-! ## Targets (R145, R146) -/

/-- A target reached through a register. -/
def State.regTarget (s : State) (x : Word) : Res Addr :=
  if s.hub then
    if 2 ^ 40 ≤ x.toNat then segv 1 (fld x.toNat 0 40)
    else if x.toNat % 32 != 0 then alignFault x.toNat else .ok (x.setWidth 40)
  else if 2 ^ 17 ≤ x.toNat then illop 0x0B
  else if x.toNat % 32 != 0 then alignFault x.toNat else .ok (x.setWidth 40)

/-- A displacement target PC + 32 x disp22. -/
def State.dispTarget (s : State) (disp : BitVec 22) : Res Addr :=
  let t : Int := s.pc.toNat + 32 * disp.toInt
  if s.hub then (if t < 0 || 2 ^ 40 ≤ t then segv 1 (t % 2 ^ 40).toNat else .ok (BitVec.ofInt 40 t))
  else if t < 0 || 4096 * 32 ≤ t then illop 0x0B else .ok (BitVec.ofInt 40 t)

/-- The link value: the code address of the next bundle; after bundle 4,095 that is 4,096 x 32, outside R145's form, as it is for
halt and trap there. [DEDUCED, log 22] -/
def State.link (s : State) : Word := (nextPc s.pc).setWidth 64

/-! ## Branches and calls (R147, R148) -/

/-- R147 -/
def opBr (g : Guard) (disp : BitVec 22) : SlotOp :=
  cOp g Uses.none fun pre cur => do
    let a ← pre.dispTarget disp
    .ok (cur, .jump a)
def execBr (g : Guard) (disp : BitVec 22) (s : State) : Host.Outcome State Fault Refusal := issue (opBr g disp) s

/-- R147 -/
def opBrr (g : Guard) (t : GReg) : SlotOp :=
  cOp g Uses.none fun pre cur => do
    let a ← pre.regTarget (pre.g t)
    .ok (cur, .jump a)
def execBrr (g : Guard) (t : GReg) (s : State) : Host.Outcome State Fault Refusal := issue (opBrr g t) s

/-- R147, R148 -/
def opCall (g : Guard) (disp : BitVec 22) : SlotOp :=
  cOp g (Uses.ofG 31) fun pre cur => do
    let a ← pre.dispTarget disp
    .ok (cur.setG 31 pre.link, .jump a)
def execCall (g : Guard) (disp : BitVec 22) (s : State) : Host.Outcome State Fault Refusal := issue (opCall g disp) s

/-- R147, R148: the target is read before the bundle -/
def opCallr (g : Guard) (t : GReg) : SlotOp :=
  cOp g (Uses.ofG 31) fun pre cur => do
    let a ← pre.regTarget (pre.g t)
    .ok (cur.setG 31 pre.link, .jump a)
def execCallr (g : Guard) (t : GReg) (s : State) : Host.Outcome State Fault Refusal := issue (opCallr g t) s

/-- R147 -/
def opRet (g : Guard) : SlotOp :=
  cOp g Uses.none fun pre cur => do
    let a ← pre.regTarget (pre.g 31)
    .ok (cur, .jump a)
def execRet (g : Guard) (s : State) : Host.Outcome State Fault Refusal := issue (opRet g) s

/-! ## Hardware loops (R149) -/

/-- The lowest-numbered inactive level. [DEDUCED, log 22] -/
def State.freeLevel (s : State) : Option Nat := (List.range 4).find? fun j => (s.loop j).len == 0

/-- The last bundle of a body of len bundles lies in the code space (R146). [DEDUCED, log 22] -/
def State.bodyOk (s : State) (len : BitVec 12) : Bool :=
  decide (s.pc.toNat + 32 * len.toNat < (if s.hub then 2 ^ 40 else 4096 * 32))

/-- R149 [DEDUCED, log 22] -/
def opLoop (g : Guard) (c : GReg) (len : BitVec 12) : SlotOp :=
  cOp g Uses.none fun pre cur =>
    let n := pre.g c
    if 2 ^ 32 ≤ n.toNat || !pre.bodyOk len then illop 0x0B
    else if n = 0 then .ok (cur, .jump (pre.pc + 32 * (len.setWidth 40 + 1)))
    else
      match cur.freeLevel with
      | none => illop 0x0B
      | some j => .ok (cur.setLoop j { len := len, count := n.setWidth 32, start := nextPc pre.pc }, .seq)
def execLoop (g : Guard) (c : GReg) (len : BitVec 12) (s : State) : Host.Outcome State Fault Refusal :=
  issue (opLoop g c len) s

/-! ## Stopping, trapping and returning (R152 to R156) -/

/-- R152 -/
def opHalt (g : Guard) : SlotOp :=
  { cOp g Uses.none (fun pre cur =>
      if pre.hub then .ok (cur.modMe fun k => { k with hub := { k.hub with stopped := true } }, .jump (nextPc pre.pc))
      else .ok (cur, .report 0x0F 0)) with level := 1 }
def execHalt (g : Guard) (s : State) : Host.Outcome State Fault Refusal := issue (opHalt g) s

/-- R153 -/
def opTrap (g : Guard) (code : BitVec 8) : SlotOp := cOp g Uses.none fun _ cur => .ok (cur, .report 0x0E code.toNat)
def execTrap (g : Guard) (code : BitVec 8) (s : State) : Host.Outcome State Fault Refusal := issue (opTrap g code) s

/-- R154 -/
def opBrk (g : Guard) (code : BitVec 16) : SlotOp := cOp g Uses.none fun _ _ => faultWith 0x0D code.toNat
def execBrk (g : Guard) (code : BitVec 16) (s : State) : Host.Outcome State Fault Refusal := issue (opBrk g code) s

/-- R155 -/
def opEret (g : Guard) : SlotOp :=
  { cOp g Uses.none (fun pre cur =>
      let h := pre.me.hub
      let b := h.bank h.priv
      if h.priv = .u then privFault 1
      else if h.priv = .s && b.ppriv = .m then privFault 3
      else if b.pc.toNat % 32 != 0 then alignFault b.pc.toNat
      else .ok (cur.modMe Core.eret, .stop)) with legal := .hub }
def execEret (g : Guard) (s : State) : Host.Outcome State Fault Refusal := issue (opEret g) s

/-- R156 -/
def opIdle (g : Guard) : SlotOp :=
  { cOp g Uses.none (fun _ cur =>
      .ok (cur.modMe fun k => { k with hub := { k.hub with idle := cur.irqPend &&& k.hub.irqEn == 0 } }, .seq)) with
    legal := .hub, level := 1 }
def execIdle (g : Guard) (s : State) : Host.Outcome State Fault Refusal := issue (opIdle g) s

/-! ## Ending a firing (R157 to R160) -/

/-- The rate checks at the close of a firing, with the bundle's own pops and pushes counted (R157, R238). -/
def State.closeChecks (s : State) : Res Unit :=
  match s.rateFault with
  | some n => qrate n
  | none => .ok ()

/-- R158 -/
def opFireEnd (g : Guard) : SlotOp :=
  { cOp g Uses.none (fun pre cur => do
      cur.closeChecks
      .ok (cur.closeFiring cur.focus cur.stg false, if pre.hub then .jump (nextPc pre.pc) else .stop)) with
    static := inSplitFault 0x04 }
def execFireEnd (g : Guard) (s : State) : Host.Outcome State Fault Refusal := issue (opFireEnd g) s

/-- The next firing of a hub core's system stage is ready (R160): a notice that stood before the bundle, or the ports as
the bundle and the close of the current firing leave them. -/
def State.hubNext (pre closed : State) : Bool :=
  if pre.stage.ins.isEmpty then pre.hubReady pre.focus else closed.hubReady closed.focus

/-- R159, R160 [DEDUCED, log 23] -/
def opFireNext (g : Guard) : SlotOp :=
  { cOp g Uses.none (fun pre cur => do
      let closed := cur.closeFiring cur.focus cur.stg true
      need (!pre.hub || pre.hubNext closed) waiting
      cur.closeChecks
      if pre.hub then .ok (closed.startHub closed.focus, .jump (nextPc pre.pc))
      else
        let next : BitVec 12 := (nextPc pre.pc).extractLsb' 5 12
        .ok (closed.modCore pre.focus fun k => k.modStage pre.stg fun x => { x with resume := some next }, .stop)) with
    static := inSplitFault 0x04 }
def execFireNext (g : Guard) (s : State) : Host.Outcome State Fault Refusal := issue (opFireNext g) s

/-! ## Split streams (R162, R163) -/

/-- The banks of a split: copies of the stage's, with each stream's first bundle, which is its next from this step on (R44,
R162). -/
def Ctx.splitBanks (x : Ctx) (starts : List Addr) (now : Nat) : Store Stream :=
  (List.range 4).foldl (fun m i =>
    sset Stream.reset m i
      { g := x.g.filter fun e => banked e.1, p := x.p, loops := x.loops, pc := starts.getD i 0, since := now, joined := false }) []

/-- Where the four streams start: next, then the indices in g(S); next after bundle 4,095 is index 4,096. [DEDUCED, log 22] -/
def splitStarts (next : Addr) (x : Word) : List Addr :=
  [next, (x.extractLsb' 0 12).setWidth 40 <<< 5, (x.extractLsb' 12 12).setWidth 40 <<< 5,
   (x.extractLsb' 24 12).setWidth 40 <<< 5]

/-- R162 -/
def opSplit (g : Guard) (r : GReg) : SlotOp :=
  { cOp g Uses.none (fun pre cur =>
      .ok ({ (cur.modCtx fun x => { x with split := some (x.splitBanks (splitStarts (nextPc pre.pc) (pre.g r)) pre.ticks) }) with
             stream := 0 }, .stop)) with
    legal := .cmp, static := inSplitFault 0x0A }
def execSplit (g : Guard) (r : GReg) (s : State) : Host.Outcome State Fault Refusal := issue (opSplit g r) s

/-- R163 -/
def opJoin (g : Guard) : SlotOp :=
  { cOp g Uses.none (fun _ cur =>
      .ok (cur.modCtx fun x => x.modBank cur.stream fun b => { b with joined := true }, .join)) with
    legal := .cmp, static := fun s => if s.inSplit then none else some 0x0A }
def execJoin (g : Guard) (s : State) : Host.Outcome State Fault Refusal := issue (opJoin g) s

/-! ## Group barrier (R165) -/

/-- R165: the bundle commits once the barrier is complete -/
def opBarGrp (g : Guard) : SlotOp :=
  { cOp g Uses.none (fun pre cur =>
      let k := pre.stage.barDone + 1
      if decide (k ≤ pre.stage.barFree) || pre.groupArrived k then
        .ok (cur.arriveGroup.modStage fun x => { x with barFree := max x.barFree k, barDone := k }, .seq)
      else .ok (cur, .arrive)) with
    legal := .cmp, splitOk := false, barrier := true }
def execBarGrp (g : Guard) (s : State) : Host.Outcome State Fault Refusal := issue (opBarGrp g) s

/-! ## Counting flags (R166 to R169) -/

/-- Set a flag's threshold. -/
def State.armFlag (s : State) (cf : Nat) (t : BitVec 31) : State :=
  s.modMe fun k => k.modFlag cf fun f => { f with threshold := t }

/-- R166, form 0 -/
def opCfArmReg (g : Guard) (cf : BitVec 6) (t : GReg) : SlotOp :=
  cOp g Uses.none fun pre cur =>
    if 2 ^ 31 ≤ (pre.g t).toNat then illop 0x0B else .ok (cur.armFlag cf.toNat ((pre.g t).setWidth 31), .seq)
def execCfArmReg (g : Guard) (cf : BitVec 6) (t : GReg) (s : State) : Host.Outcome State Fault Refusal :=
  issue (opCfArmReg g cf t) s

/-- R166, form 1 -/
def opCfArmImm (g : Guard) (cf : BitVec 6) (imm : BitVec 15) : SlotOp :=
  cOp g Uses.none fun _ cur => .ok (cur.armFlag cf.toNat (imm.setWidth 31), .seq)
def execCfArmImm (g : Guard) (cf : BitVec 6) (imm : BitVec 15) (s : State) : Host.Outcome State Fault Refusal :=
  issue (opCfArmImm g cf imm) s

/-- R167, .any -/
def opCfWaitAny (g : Guard) (d m : GReg) : SlotOp :=
  cOp g (Uses.ofG d) fun pre cur =>
    let mask := pre.g m
    let j := pre.me.firstReady mask
    if mask = 0 then illop 0x0B
    else if j = 64 then waiting
    else .ok ((cur.modMe fun k => k.modFlag j Flag.consume).setG d (BitVec.ofBool (pre.me.flag j).err ++ BitVec.ofNat 63 j), .seq)
def execCfWaitAny (g : Guard) (d m : GReg) (s : State) : Host.Outcome State Fault Refusal := issue (opCfWaitAny g d m) s

/-- Consume every selected flag. -/
def Core.consumeAll (k : Core) (m : Word) : Core :=
  (List.range 64).foldl (fun q i => if m.getLsbD i then q.modFlag i Flag.consume else q) k

/-- R167, .all -/
def opCfWaitAll (g : Guard) (d m : GReg) : SlotOp :=
  cOp g (Uses.ofG d) fun pre cur =>
    let mask := pre.g m
    if mask = 0 then illop 0x0B
    else if !pre.me.allReady mask then waiting
    else .ok ((cur.modMe fun k => k.consumeAll mask).setG d (pre.me.errWord &&& mask), .seq)
def execCfWaitAll (g : Guard) (d m : GReg) (s : State) : Host.Outcome State Fault Refusal := issue (opCfWaitAll g d m) s

/-- R168 -/
def opCfFfr (g : Guard) (d m : GReg) : SlotOp :=
  cOp g (Uses.ofG d) fun pre cur => .ok (cur.setG d (BitVec.ofNat 64 (pre.me.firstReady (pre.g m))), .seq)
def execCfFfr (g : Guard) (d m : GReg) (s : State) : Host.Outcome State Fault Refusal := issue (opCfFfr g d m) s

/-- R169 -/
def opCfStat (g : Guard) (cf : BitVec 6) (d : GReg) : SlotOp :=
  cOp g (Uses.ofG d) fun pre cur => .ok (cur.setG d (pre.me.flag cf.toNat).stat, .seq)
def execCfStat (g : Guard) (cf : BitVec 6) (d : GReg) (s : State) : Host.Outcome State Fault Refusal :=
  issue (opCfStat g cf d) s

/-! ## System registers (R27, R28, R170) -/

/-- A sysr: the number's decode fault, the access check, the value after every earlier bundle (R28, R94). -/
def sysrOp (g : Guard) (d : GReg) (n : Nat) (ok : State → Res Unit) : SlotOp :=
  { cOp g (Uses.ofG d) (fun pre cur => do
      pre.sysReadOk n
      ok pre
      .ok (cur.setG d (pre.sysReg n), .seq)) with static := fun s => sysNumFault s.hub n }

/-- A sysw: the number's decode fault, not in split mode, a value that a field forbids, the access check, the effect (R27,
R28, R98). -/
def syswOp (g : Guard) (r : GReg) (n : Nat) (early : Bool) (fx : State → Word → Res (State × Flow)) : SlotOp :=
  { cOp g Uses.none (fun pre cur =>
      orFault (pre.sysWriteOk n) (fx cur (pre.g r))) with
    static := fun s => match sysNumFault s.hub n with
      | some d => some d
      | none => inSplitFault 0x0A s
    early := early }

/-- R170 -/
def opSysr (g : Guard) (d : GReg) (num : BitVec 12) : SlotOp := sysrOp g d num.toNat fun _ => .ok ()
def execSysr (g : Guard) (d : GReg) (num : BitVec 12) (s : State) : Host.Outcome State Fault Refusal :=
  issue (opSysr g d num) s

/-- R28, R170: a write of CORE.SAT comes before the bundle's own saturations -/
def opSysw (g : Guard) (r : GReg) (num : BitVec 12) : SlotOp :=
  syswOp g r num.toNat (num == 0x003) fun cur v => (cur.sysWrite num.toNat v).map fun t => (t, Flow.seq)
def execSysw (g : Guard) (r : GReg) (num : BitVec 12) (s : State) : Host.Outcome State Fault Refusal :=
  issue (opSysw g r num) s

/-- R23 -/
def opCfErrWrite (g : Guard) (r : GReg) : SlotOp :=
  syswOp g r 0x015 true fun cur v => .ok (cur.modMe fun k => k.clearErr v, .seq)
def execCfErrWrite (g : Guard) (r : GReg) (s : State) : Host.Outcome State Fault Refusal := issue (opCfErrWrite g r) s

/-- R29 -/
def opCoreRmodeWrite (g : Guard) (r : GReg) : SlotOp :=
  syswOp g r 0x002 false fun cur v =>
    if 6 ≤ v.toNat % 8 then illop 0x0B
    else .ok (cur.modCtx fun x => { x with rmode := v.extractLsb' 0 3 }, .seq)
def execCoreRmodeWrite (g : Guard) (r : GReg) (s : State) : Host.Outcome State Fault Refusal :=
  issue (opCoreRmodeWrite g r) s

/-- An accumulator read with quantisation, of a stage, that has not completed (R65). -/
def satPending (t : Nat) : ArrOp → Bool
  | .read _ _ _ _ _ quant _ st _ => quant && st == t
  | _ => false

/-- R65 -/
def opCoreSatRead (g : Guard) (d : GReg) : SlotOp :=
  sysrOp g d 0x003 fun s => need (!s.me.arr.any (satPending s.stg)) waiting
def execCoreSatRead (g : Guard) (d : GReg) (s : State) : Host.Outcome State Fault Refusal := issue (opCoreSatRead g d) s

/-- R28, R32 -/
def opLoopCntWrite (g : Guard) (r : GReg) (j : BitVec 2) : SlotOp :=
  syswOp g r (0x018 + j.toNat) false fun cur v => .ok (cur, .late false j.toNat v)
def execLoopCntWrite (g : Guard) (r : GReg) (j : BitVec 2) (s : State) : Host.Outcome State Fault Refusal :=
  issue (opLoopCntWrite g r j) s

/-- R28, R32 -/
def opLoopStartWrite (g : Guard) (r : GReg) (j : BitVec 2) : SlotOp :=
  syswOp g r (0x01C + j.toNat) false fun cur v => .ok (cur, .late true j.toNat v)
def execLoopStartWrite (g : Guard) (r : GReg) (j : BitVec 2) (s : State) : Host.Outcome State Fault Refusal :=
  issue (opLoopStartWrite g r j) s

/-- R37: the write clears IRQ.PEND bit 3 until CYCLES reaches the new value -/
def opCycCmpWrite (g : Guard) (r : GReg) : SlotOp :=
  syswOp g r 0x033 false fun cur v => .ok ({ cur with cycCmp := v, cmpHit := false }, .seq)
def execCycCmpWrite (g : Guard) (r : GReg) (s : State) : Host.Outcome State Fault Refusal := issue (opCycCmpWrite g r) s

/-- R170, Table 1.12: IE is written, PRIV is read-only -/
def opHubStatusWrite (g : Guard) (r : GReg) : SlotOp :=
  syswOp g r 0x030 false fun cur v =>
    .ok (cur.modMe fun k => { k with hub := { k.hub with ie := v.getLsbD 2 } }, .seq)
def execHubStatusWrite (g : Guard) (r : GReg) (s : State) : Host.Outcome State Fault Refusal :=
  issue (opHubStatusWrite g r) s

end Sys2Proof.Machine
end

