-- ==== Sys2Proof/Machine/Queue.lean ====
section
/-! DEFINITION. The Q slot (spec/10): pops, pushes and reads of the queue ports, markers, forwarding, port counts and status,
engine results, and the two register moves. -/

namespace Sys2Proof.Machine

/-- An operation of the Q slot. -/
def qOp (uses : Uses) (fx : State → State → Res (State × Flow)) : SlotOp :=
  { slot := .q, guard := guardAlways, legal := .both, level := 0, splitOk := true, static := fun _ => none,
    uses := fun _ => uses, early := false, fx := fx }

/-- The not-ready flag that a form with its stall bit clear writes (R80). -/
def p7Of (stall : Bool) : List Nat := if stall then [] else [7]

/-- What a form with its stall bit clear reports in p7 instead: a wait, a FAILED circuit, a marker in the way, no entry
of the stage (R240, R241, R243, R249). -/
def softStop : Stop → Bool
  | .wait => true
  | .trap t => t.cause == 0x0C || (t.cause == 1 && (t.detail == 0x48 || t.detail == 0x4C))

/-- Act on what a form waits for; a form with its stall bit clear writes p7, and nothing else when not ready (R243). -/
def State.qRun {α : Type} (cur : State) (stall : Bool) (avail : Res α) (act : α → Res State) : Res (State × Flow) :=
  match avail with
  | .ok a => (act a).map fun t => (if stall then t else t.notReady false, Flow.seq)
  | .error e => if !stall && softStop e then .ok (cur.notReady true, .seq) else .error e

/-- Begin a tile at an iq when the cursor stands at beat 0: the rate, then the count (R238). [DEDUCED, log 26] -/
def State.beginPop (s : State) (n : Nat) : Res State :=
  if (s.iq s.focus n).beat = 0 then do
    s.popRate n
    .ok (s.countPop s.focus n)
  else .ok s

/-- Remove the head entry of an iq of this core; the marker that started the firing is then gone (R240). [DEDUCED, log 26] -/
def State.takeHead (s : State) (n : Nat) : State :=
  let s1 := s.removeHead s.focus n
  match (s.iq s.focus n).q with
  | e :: _ => if e.isMarker && s.stage.markerPort == some (BitVec.ofNat 4 n)
      then s1.modStage fun x => { x with markerPort := none } else s1
  | [] => s1

/-- The scalar pop of R243 on the head tile: the word, and the port after it. -/
def State.popWord (s : State) (n : Nat) (e : Entry) (t : Bool) : Word × State :=
  let p := s.iq s.focus n
  let b := if p.beat = 0 then e.rowBeat else p.beat
  let w := p.word
  let last := e.rowBeat + 2 * hRows e.head
  if hRows e.head = 0 then (0, s.takeHead n)
  else
    let b2 := if w = 7 then b + 1 else b
    (elem 64 w (e.beat b),
     if t || b2 = last then s.takeHead n
     else s.modIq s.focus n fun x => { x with beat := b2, word := (w + 1) % 8 })

/-- R243 -/
def opQpop (d : GReg) (iq : BitVec 4) (stall t : Bool) : SlotOp :=
  { qOp { Uses.ofG d with iq := [iq.toNat], p := p7Of stall } (fun pre cur => do
      pre.iqOk iq.toNat
      cur.qRun stall (pre.headTile iq.toNat) fun e => do
        let s ← cur.beginPop iq.toNat
        let r := s.popWord iq.toNat e t
        .ok (r.2.setG d r.1)) with begins := State.beginsPop iq.toNat }
def execQpop (d : GReg) (iq : BitVec 4) (stall t : Bool) (s : State) : Host.Outcome State Fault Refusal :=
  issue (opQpop d iq stall t) s

/-! ## Pushes (R244) -/

/-- Close the tile of an oq: ROWS is set, the last row filled with zeros, and the entry goes on its way. -/
def State.closeTile (s : State) (n : Nat) : State :=
  match (s.oq s.focus n).cur with
  | none => s
  | some t =>
    let rows := ceilDiv t.words.length 16
    let e := mkTile (t.head ||| BitVec.ofNat 512 (rows <<< 8)) []
      ((List.range rows).map fun r => packN 1024 64 16 fun j => t.words.getD (16 * r + j) 0)
    (s.modOq s.focus n fun x => { x with cur := none }).sendEntry s.focus n e

/-- What a push waits for, and what it may not do (R241, R244). -/
def State.pushOk (s : State) (n : Nat) (stall byV : Bool) (limit : Nat) : Res Unit :=
  let p := s.oq s.focus n
  match p.cur with
  | none => s.creditOk n
  | some t =>
    if p.failed && !stall then circFail (16 + n)
    else if t.byV != byV then illop 0x4A
    else if limit ≤ t.words.length then illop 0x4D
    else if p.failed then circFail (16 + n) else .ok ()

/-- Open a tile with a head, unless one is open (R236, R238). -/
def State.openTile (s : State) (n : Nat) (byV : Bool) (head : Beat) : Res State :=
  match (s.oq s.focus n).cur with
  | some _ => .ok s
  | none => do
    s.pushRate n
    .ok ((s.takeCredit s.focus n).modOq s.focus n fun x =>
      { x with cur := some { byV := byV, head := head, words := [] }, pushed := x.pushed + 1 })

/-- Append words to the open tile. -/
def State.appendWords (s : State) (n : Nat) (ws : List Word) : State :=
  s.modOq s.focus n fun x => { x with cur := x.cur.map fun t => { t with words := t.words ++ ws } }

/-- R244 -/
def opQpush (r : GReg) (oq : BitVec 4) (stall t : Bool) : SlotOp :=
  { qOp { Uses.none with oq := [oq.toNat], p := p7Of stall } (fun pre cur => do
      pre.oqOk oq.toNat
      cur.qRun stall (pre.pushOk oq.toNat stall false 256) fun _ => do
        let s ← cur.openTile oq.toNat false (mkHead 0 11 0 128 0 pre.ctx.charge 0 0 0)
        let s2 := s.appendWords oq.toNat [pre.g r]
        .ok (if t then s2.closeTile oq.toNat else s2)) with begins := State.beginsPush oq.toNat }
def execQpush (r : GReg) (oq : BitVec 4) (stall t : Bool) (s : State) : Host.Outcome State Fault Refusal :=
  issue (opQpush r oq stall t) s

/-! ## Reads of the head entry, removal, markers, forwarding -/

/-- R243 -/
def opQpeek (d : GReg) (iq : BitVec 4) (stall : Bool) (beat : BitVec 6) (w : BitVec 3) : SlotOp :=
  qOp { Uses.ofG d with iq := [iq.toNat], p := p7Of stall } fun pre cur => do
    pre.iqOk iq.toNat
    cur.qRun stall (pre.headPeek iq.toNat) fun e => .ok (cur.setG d (elem 64 w.toNat (e.beat beat.toNat)))
def execQpeek (d : GReg) (iq : BitVec 4) (stall : Bool) (beat : BitVec 6) (w : BitVec 3) (s : State) :
    Host.Outcome State Fault Refusal := issue (opQpeek d iq stall beat w) s

/-- R240, R243 -/
def opQhead (d : GReg) (iq : BitVec 4) (stall : Bool) (w : BitVec 3) : SlotOp :=
  qOp { Uses.ofG d with iq := [iq.toNat], p := p7Of stall } fun pre cur => do
    pre.iqOk iq.toNat
    cur.qRun stall (pre.headEntry iq.toNat) fun e => .ok (cur.setG d (elem 64 w.toNat e.head))
def execQhead (d : GReg) (iq : BitVec 4) (stall : Bool) (w : BitVec 3) (s : State) :
    Host.Outcome State Fault Refusal := issue (opQhead d iq stall w) s

/-- R238, R240, R243 -/
def opQskip (iq : BitVec 4) (stall : Bool) : SlotOp :=
  { qOp { Uses.none with iq := [iq.toNat], p := p7Of stall } (fun pre cur => do
      pre.iqOk iq.toNat
      cur.qRun stall (pre.headAny iq.toNat) fun e => do
        let s ← if e.isMarker then .ok cur else cur.beginPop iq.toNat
        .ok (s.takeHead iq.toNat)) with begins := State.beginsPop iq.toNat }
def execQskip (iq : BitVec 4) (stall : Bool) (s : State) : Host.Outcome State Fault Refusal :=
  issue (opQskip iq stall) s

/-- R245 [DEDUCED, log 19] -/
def opQmark (r : GReg) (oq : BitVec 4) (stall : Bool) (k : MarkKind) : SlotOp :=
  qOp { Uses.none with oq := [oq.toNat], p := p7Of stall } fun pre cur => do
    pre.oqOk oq.toNat
    if stall then pre.oqWait oq.toNat else .ok ()
    need (pre.oq pre.focus oq.toNat).atHead (illop 0x4A)
    cur.qRun stall (pre.creditOk oq.toNat) fun _ =>
      .ok (cur.pushEntry cur.focus oq.toNat
        (mkMarker (8 + k.code.toNat) pre.ctx.charge ((pre.g r).extractLsb' 0 32)))
def execQmark (r : GReg) (oq : BitVec 4) (stall : Bool) (k : MarkKind) (s : State) :
    Host.Outcome State Fault Refusal := issue (opQmark r oq stall k) s

/-- An entry at the source and a credit at the destination, then no reserved value in a tile's head (R235, R246).
[DEDUCED, log 26] -/
def State.copyOk (s : State) (iq oq : Nat) : Res Entry := do
  let _ ← s.headEntry iq
  s.creditOk oq
  s.headAny iq

/-- R246 [DEDUCED, log 19] -/
def opQcopy (iq oq : BitVec 4) (stall : Bool) : SlotOp :=
  { qOp { Uses.none with iq := [iq.toNat], oq := [oq.toNat], p := p7Of stall } (fun pre cur => do
      pre.iqOk iq.toNat
      pre.oqOk oq.toNat
      if stall then pre.iqWait iq.toNat else .ok ()
      if stall then pre.oqWait oq.toNat else .ok ()
      need ((pre.iq pre.focus iq.toNat).beat = 0 && (pre.oq pre.focus oq.toNat).atHead) (illop 0x4B)
      cur.qRun stall (pre.copyOk iq.toNat oq.toNat) fun e => do
        let s ← if e.isMarker then Except.ok cur else (do
          cur.popRate iq.toNat
          cur.pushRate oq.toNat
          Except.ok ((cur.countPop cur.focus iq.toNat).modOq cur.focus oq.toNat fun x => { x with pushed := x.pushed + 1 }))
        .ok ((s.takeHead iq.toNat).pushEntry s.focus oq.toNat e)) with
    begins := fun pre cur => if (pre.iq pre.focus iq.toNat).headTileAt then
      State.beginsPush oq.toNat pre (State.beginsPop iq.toNat pre cur) else cur }
def execQcopy (iq oq : BitVec 4) (stall : Bool) (s : State) : Host.Outcome State Fault Refusal :=
  issue (opQcopy iq oq stall) s

/-! ## Counts and status (R247, R248) -/

/-- R247 -/
def opQfree (d : GReg) (oq : BitVec 4) : SlotOp :=
  qOp { Uses.ofG d with oq := [oq.toNat] } fun pre cur => do
    pre.oqOk oq.toNat
    .ok (cur.setG d (BitVec.ofNat 64 (pre.oq pre.focus oq.toNat).credits), .seq)
def execQfree (d : GReg) (oq : BitVec 4) (s : State) : Host.Outcome State Fault Refusal := issue (opQfree d oq) s

/-- Tiles ahead of the first marker, and whether a marker is present. -/
def IqPort.avail (p : IqPort) : Word :=
  BitVec.ofNat 64 (p.tilesAhead + if p.q.any Entry.isMarker then 32 else 0)

/-- R247 -/
def opQavail (d : GReg) (iq : BitVec 4) : SlotOp :=
  qOp { Uses.ofG d with iq := [iq.toNat] } fun pre cur => do
    pre.iqOk iq.toNat
    .ok (cur.setG d (pre.iq pre.focus iq.toNat).avail, .seq)
def execQavail (d : GReg) (iq : BitVec 4) (s : State) : Host.Outcome State Fault Refusal := issue (opQavail d iq) s

/-- Table 10.3, an iq. -/
def IqPort.statWord (p : IqPort) : Word :=
  BitVec.ofNat 64 ((if p.failed then 1 <<< 47 else 0) + (if p.headMarker.isSome then 1 <<< 46 else 0) +
    p.popped <<< 32 + p.word <<< 24 + p.beat <<< 16 + (p.q.countP fun e => e.kind != .token) <<< 8 + p.cap)

/-- Table 10.3, an oq; word j of a tile lies in beat 1 + j ÷ 8. -/
def OqPort.statWord (p : OqPort) : Word :=
  let cursor : Nat := match p.cur with
    | some t => (t.words.length % 8) <<< 24 + (1 + t.words.length / 8) <<< 16
    | none => 0
  BitVec.ofNat 64 ((if p.failed then 1 <<< 47 else 0) + p.pushed <<< 32 + cursor + p.credits)

/-- R248 -/
def opQstat (d : GReg) (port : BitVec 5) : SlotOp :=
  let n := port.toNat % 16
  qOp (if port.toNat < 16 then { Uses.ofG d with iq := [n] } else { Uses.ofG d with oq := [n] }) fun pre cur =>
    if port.toNat < 16 then do
      pre.iqOk n
      .ok (cur.setG d (pre.iq pre.focus n).statWord, .seq)
    else do
      pre.oqOk n
      .ok (cur.setG d (pre.oq pre.focus n).statWord, .seq)
def execQstat (d : GReg) (port : BitVec 5) (s : State) : Host.Outcome State Fault Refusal := issue (opQstat d port) s

/-! ## Engine results and moves (R249, R250) -/

/-- The oldest entry of a stage in a result queue. -/
def oldestOf (t : Nat) (l : List REntry) : Option REntry := l.find? fun x => x.stage == t

/-- The oldest entry of the firing stage, filled (R249). -/
def State.resultReady (s : State) (e : Nat) : Res (Nat × Word) :=
  match oldestOf s.stg (s.me.rqOf e) with
  | none => illop 0x4C
  | some x =>
    match x.val with
    | none => waiting
    | some v => .ok (x.id, v)

/-- Free an entry. -/
def State.freeResult (s : State) (e id : Nat) : State :=
  s.modMe fun k => k.setRq e ((k.rqOf e).filter fun x => x.id != id)

/-- R249 -/
def opEpop (d : GReg) (e : BitVec 5) (stall : Bool) : SlotOp :=
  qOp { Uses.ofG d with p := p7Of stall } fun pre cur =>
    cur.qRun stall (pre.resultReady e.toNat) fun x => .ok ((cur.freeResult e.toNat x.1).setG d x.2)
def execEpop (d : GReg) (e : BitVec 5) (stall : Bool) (s : State) : Host.Outcome State Fault Refusal :=
  issue (opEpop d e stall) s

/-- R250 -/
def opMov (d a : GReg) : SlotOp := plainOp .q (Uses.ofG d) fun pre cur => cur.setG d (pre.g a)
def execMov (d a : GReg) (s : State) : Host.Outcome State Fault Refusal := issue (opMov d a) s

/-- R250 -/
def opMovp (pd pa : PReg) (neg : Bool) : SlotOp := plainOp .q (Uses.ofP pd) fun pre cur => cur.setP pd (pre.p pa != neg)
def execMovp (pd pa : PReg) (neg : Bool) (s : State) : Host.Outcome State Fault Refusal := issue (opMovp pd pa neg) s

end Sys2Proof.Machine
end

