-- ==== Sys2Proof/Machine/VArith.lean ====
section
/-! DEFINITION. Vector arithmetic (spec/07): element-wise operations of the V slot, compares and selects, conversion, packing,
block scales, quantisation and dequantisation. -/

namespace Sys2Proof.Machine

/-- An accumulator read into v-registers has not landed: the next operation on v-registers is interlocked (R95).
[DEDUCED, log 21] -/
def Core.vBusy (k : Core) : Bool :=
  k.arr.any fun o => match o with
    | .read _ (.vreg _) .. => true
    | _ => false

/-- An operation of the V slot; a cluster mask of 0 is illegal outside split mode (R81, R92). [DEDUCED, log 17] -/
def vOp (cl : BitVec 4) (uses : State → Uses) (fx : State → State → Res State) : SlotOp :=
  { slot := .v, guard := guardAlways, legal := .cmp, level := 0, splitOk := true,
    static := fun s => if !s.inSplit && cl == 0 then some 0x02 else none,
    uses := uses, early := false
    fx := fun pre cur => do
      need (!pre.me.vBusy) waiting
      let s ← fx pre cur
      .ok (s, .seq) }

/-- One source field of a V form: its field number for R17, and the field. -/
abbrev VSrc := Nat × BitVec 8

/-- Apply a lane function in every executing lane of every executing cluster; `sat` says which lanes set CORE.SAT (R171). [DEDUCED, log 55] -/
def State.vApply (pre cur : State) (h : VHead) (vd : BitVec 8) (srcs : List VSrc) (f : List Lane → Lane)
    (sat : List Lane → Bool) : Res State := do
  pre.maskOk h.m.toNat
  (pre.clusters h.cl).foldlM (fun t c => do
    let d ← pre.vreg h.ind c 0 vd
    let rs ← srcs.mapM fun x => pre.vreg h.ind c x.1 x.2
    let xs := rs.map (pre.v c)
    let m := pre.mask c h.m.toNat
    let at_ (l : Nat) : List Lane := xs.map fun x => lane x l
    .ok ((t.setV c d (mergeLanes m (pre.v c d) fun l => f (at_ l))).setSat
      ((List.range 128).any fun l => m.getLsbD l && sat (at_ l)))) cur

/-- The write of vd in the executing clusters (R93). -/
def usesV (h : VHead) (vd : BitVec 8) (s : State) : Uses := { Uses.none with v := s.vUses h vd }

/-- A lane-wise operation; the function sees the state before the bundle, for the rounding mode. -/
def vLanes (h : VHead) (vd : BitVec 8) (srcs : List VSrc) (f : State → List Lane → Lane)
    (sat : State → List Lane → Bool) : SlotOp :=
  vOp h.cl (usesV h vd) fun pre cur => pre.vApply cur h vd srcs (f pre) (sat pre)

/-- No lane saturates. -/
def noSat {α : Type} (_ : State) (_ : α) : Bool := false

/-- Lane i of a list of sources. -/
def src (xs : List Lane) (i : Nat) : Lane := xs.getD i 0

/-! ## Floating-point elements (R176 to R179) -/

/-- Element-wise on one, two or three sources of width w. -/
def elems1 (w : Nat) (f : Lane → Lane) (xs : List Lane) : Lane := packElems w fun i => f (laneElem w i (src xs 0))
def elems2 (w : Nat) (f : Lane → Lane → Lane) (xs : List Lane) : Lane :=
  packElems w fun i => f (laneElem w i (src xs 0)) (laneElem w i (src xs 1))
def elems3 (w : Nat) (f : Lane → Lane → Lane → Lane) (xs : List Lane) : Lane :=
  packElems w fun i => f (laneElem w i (src xs 0)) (laneElem w i (src xs 1)) (laneElem w i (src xs 2))
/-- Some element of a lane satisfies a condition. -/
def anyElem (w : Nat) (f : Nat → Bool) : Bool := (List.range (32 / w)).any f

/-- One, two or three floating-point operands, one rounding. -/
def vf1 (h : VHead) (t : Ty) (r : Rnd) (vd va : BitVec 8) (f : Num → Num) : SlotOp :=
  vLanes h vd [(1, va)] (fun s => elems1 t.width fun a => (tyRound t (s.rnd r) (f (tyValue t a))).1) noSat
def vf2 (h : VHead) (t : Ty) (r : Rnd) (vd va vb : BitVec 8) (f : Rnd → Num → Num → Num) : SlotOp :=
  vLanes h vd [(1, va), (2, vb)] (fun s => elems2 t.width fun a b =>
    (tyRound t (s.rnd r) (f (s.rnd r) (tyValue t a) (tyValue t b))).1) noSat
def vf3 (h : VHead) (t : Ty) (r : Rnd) (vd va vb vc : BitVec 8) (f : Rnd → Num → Num → Num → Num) : SlotOp :=
  vLanes h vd [(1, va), (2, vb), (3, vc)] (fun s => elems3 t.width fun a b c =>
    (tyRound t (s.rnd r) (f (s.rnd r) (tyValue t a) (tyValue t b) (tyValue t c))).1) noSat

/-- The sign bit of an element of width w. -/
def signBit (w : Nat) : Lane := 1#32 <<< (w - 1)
/-- A change of the sign bit; a NaN gives the canonical NaN (R178). -/
def onSign (t : Ty) (f : Lane → Lane) (a : Lane) : Lane :=
  if (tyValue t a).isNan then (tyRound t .rne .nan).1 else f a

/-- A transcendental of Table 7.3. -/
def vElem (h : VHead) (t : Ty) (r : Rnd) (vd va : BitVec 8) (g : Elem) : SlotOp :=
  vLanes h vd [(1, va)]
    (fun s => elems1 t.width fun a => BitVec.ofNat 32 (roundElem (tyFmt t) (s.rnd r) g (tyValue t a))) noSat

/-! ## Integer elements (R180 to R185) -/

def vi1 (h : VHead) (t : Ty) (vd va : BitVec 8) (f : Lane → Lane) : SlotOp :=
  vLanes h vd [(1, va)] (fun _ => elems1 t.width f) noSat
def vi2 (h : VHead) (t : Ty) (vd va vb : BitVec 8) (f : Lane → Lane → Lane) : SlotOp :=
  vLanes h vd [(1, va), (2, vb)] (fun _ => elems2 t.width f) noSat

/-- An integer as an element of w bits. -/
def intLane (w : Nat) (i : Int) : Lane := BitVec.ofNat 32 (intBits w i)
/-- Clamp to the range of a type. -/
def clampTy (t : Ty) (i : Int) : Int × Bool := clampInt (tyMin t) (tyMax t) i

/-- A sum or difference, wrapping or saturating (R181). -/
def vSum (h : VHead) (t : Ty) (sat : Bool) (vd va vb : BitVec 8) (f : Int → Int → Int) : SlotOp :=
  let g (a b : Lane) : Int := f (intValue t a) (intValue t b)
  vLanes h vd [(1, va), (2, vb)]
    (fun _ => elems2 t.width fun a b => intLane t.width (if sat then (clampTy t (g a b)).1 else g a b))
    (fun _ xs => sat && anyElem t.width fun i =>
      (clampTy t (g (laneElem t.width i (src xs 0)) (laneElem t.width i (src xs 1)))).2)

/-- The element as a number of w bits, for shifts. -/
def shiftL (_w : Nat) (a : Lane) (n : Nat) : Lane := a <<< n
def shiftR (_w : Nat) (a : Lane) (n : Nat) : Lane := a >>> n
def shiftS (w : Nat) (a : Lane) (n : Nat) : Lane := (((a.setWidth w).sshiftRight n).setWidth 32)

/-- Shifts by an immediate and by the elements of vb, modulo the width (R182). -/
def vShiftI (h : VHead) (t : Ty) (vd va n : BitVec 8) (f : Nat → Lane → Nat → Lane) : SlotOp :=
  vi1 h t vd va fun a => f t.width a n.toNat
def vShiftV (h : VHead) (t : Ty) (vd va vb : BitVec 8) (f : Nat → Lane → Nat → Lane) : SlotOp :=
  vi2 h t vd va vb fun a b => f t.width a (b.toNat % t.width)

/-- Bits [pos+len-1:pos], extended by the signedness of the type (R183). -/
def vbextE (t : Ty) (pos len : Nat) (a : Lane) : Lane :=
  let x := a.toNat >>> pos % 2 ^ len
  if t.signed then (BitVec.ofNat len x).signExtend 32 else BitVec.ofNat 32 x

/-- The funnel shift of R184. -/
def vfshE (w n : Nat) (a b : Lane) : Lane := BitVec.ofNat 32 ((a.toNat <<< w + b.toNat) >>> n % 2 ^ w)

def popcE (a : Lane) : Lane := BitVec.ofNat 32 ((List.range 32).countP fun i => a.getLsbD i)
/-- Leading zeros of an element of w bits. -/
def clzE (w : Nat) (a : Lane) : Lane := BitVec.ofNat 32 (if a = 0 then w else w - 1 - a.toNat.log2)

/-! ## Compares (R186) -/

/-- The condition holds for every element of the lane. -/
def laneHolds (cc : VcmpCc) (t : Ty) (a b : Lane) : Bool :=
  (List.range (32 / t.width)).all fun i =>
    vcmpHolds cc (tyValue t (laneElem t.width i a)) (tyValue t (laneElem t.width i b))

/-- A mask with `f l` at the bits that m selects. -/
def mergeMask (m old : Mask) (f : Nat → Bool) : Mask :=
  packN 128 1 128 fun l => BitVec.ofBool (if m.getLsbD l then f l else old.getLsbD l)

/-! ## Conversion (R188 to R191) -/

/-- Slot-wise: slots of max(ws, wd) bits, source in the low ws bits, result in the low wd bits (R188). -/
def slots (ws wd : Nat) (f : Lane → Lane) (x : Lane) : Lane :=
  let s := max ws wd
  packElems s fun j => (f (laneElem ws 0 (laneElem s j x)) &&& BitVec.ofNat 32 (2 ^ wd - 1))
/-- A slot satisfies a condition. -/
def anySlot (ws wd : Nat) (f : Lane → Bool) (x : Lane) : Bool :=
  let s := max ws wd
  (List.range (32 / s)).any fun j => f (laneElem ws 0 (laneElem s j x))

/-- The conversion of one element of type u into type t (R189). -/
def cvtElem (t u : Ty) (r : Rnd) (x : Lane) : Lane × Bool :=
  if t = u then (if !t.isInt && (tyValue t x).isNan && t != .f4 then (tyRound t .rne .nan).1 else x, false)
  else if t.isInt && u.isInt then
    let c := clampTy t (intValue u x)
    (intLane t.width c.1, c.2)
  else tyRound t r (tyValue u x)

/-- R190 -/
def packLane (w : Nat) (a b : Lane) : Lane :=
  let n := 16 / w
  packElems w fun j => if j < n then laneElem (2 * w) j a else laneElem (2 * w) (j - n) b

/-- R191 -/
def unpackLane (t : Ty) (hi : Bool) (a : Lane) : Lane :=
  let w := t.width
  let half := 16 / w
  packElems (2 * w) fun j =>
    let x := laneElem w ((if hi then half else 0) + j) a
    if t.signed then (x.setWidth w).signExtend 32 else x

/-! ## Block scales (R192 to R194) -/

/-- The largest magnitude of a quantised type. [DEDUCED, log 27] -/
def qmax : Ty → Rat
  | .f8e4 => 448 | .f8e5 => 57344 | .f4 => 6 | .i8 => 127 | _ => 255

def Num.isInf : Num → Bool
  | .inf _ => true
  | _ => false
def Num.mag : Num → Rat
  | .fin _ q => q
  | _ => 0

/-- The scale of a block from its values, and CORE.SAT (R192, R228). -/
def blockScale (q : Ty) (xs : List Num) : BitVec 12 × Bool :=
  if xs.any Num.isNan then (0xFFF, true)
  else if xs.any Num.isInf then (0xFFE, true)
  else
    let amax := xs.foldl (fun m x => if m < x.mag then x.mag else m) 0
    let c := Fmt.sc12.round .rup (.fin false (amax / qmax q))
    (BitVec.ofNat 12 c.1, c.2)

/-- The values of the elements of block b of a register under a mask; a block is t.width lanes. -/
def blockValues (t : Ty) (m : Mask) (x : VReg) (b : Nat) : List Num :=
  ((List.range t.width).filter fun i => m.getLsbD (t.width * b + i)).flatMap fun i =>
    (List.range (32 / t.width)).map fun e => tyValue t (laneElem t.width e (lane x (t.width * b + i)))

/-- RoundTo a quantised type: what lies beyond the largest magnitude, and an infinity, gives that magnitude and saturates, -128 into
i8 among it (R61, R63, R64, R193). [DEDUCED, log 27] -/
def quantRound (q : Ty) (r : Rnd) (x : Num) : Lane × Bool :=
  if q.isInt then
    let lim (neg : Bool) : Int := if neg then (if q.signed then -(qmax q).num else 0) else (qmax q).num
    let c : Int × Bool := match x with
      | .nan => (0, true)
      | .inf neg => (lim neg, true)
      | .fin neg v =>
        let i := roundInt r neg v
        if i < lim true || lim false < i then (lim (decide (i < 0)), true) else (i, false)
    (BitVec.ofNat 32 (intBits q.width c.1), c.2)
  else
    let c := { tyFmt q with hasInf := false }.round r x
    (BitVec.ofNat 32 c.1, c.2)

/-- One quantised element (R193). [DEDUCED, log 27] -/
def quantElem (q : Ty) (r : Rnd) (sc : BitVec 12) (x : Num) : Lane × Bool :=
  match scValue sc with
  | none => quantRound q r .nan
  | some v => if x.isNan then quantRound q r .nan else if v == 0 then (0, false) else quantRound q r (x.div (.fin false v))

/-- One dequantised element (R194). -/
def deqElem (t q : Ty) (r : Rnd) (sc : BitVec 12) (x : Lane) : Lane :=
  match scValue sc with
  | none => (tyRound t r .nan).1
  | some v => (tyRound t r ((tyValue q x).mul (.fin false v))).1

/-- The SC12 scale in a lane. -/
def laneScale (x : Lane) : BitVec 12 := x.extractLsb' 0 12

/-! ## The instructions -/

/-- R176 -/
def opVadd (h : VHead) (t : Ty) (r : Rnd) (vd va vb : BitVec 8) : SlotOp := vf2 h t r vd va vb (fun r a b => a.add r b)
def execVadd (h : VHead) (t : Ty) (r : Rnd) (vd va vb : BitVec 8) (s : State) : Host.Outcome State Fault Refusal := issue (opVadd h t r vd va vb) s

/-- R176 -/
def opVsub (h : VHead) (t : Ty) (r : Rnd) (vd va vb : BitVec 8) : SlotOp := vf2 h t r vd va vb (fun r a b => a.add r b.neg)
def execVsub (h : VHead) (t : Ty) (r : Rnd) (vd va vb : BitVec 8) (s : State) : Host.Outcome State Fault Refusal := issue (opVsub h t r vd va vb) s

/-- R176 -/
def opVmul (h : VHead) (t : Ty) (r : Rnd) (vd va vb : BitVec 8) : SlotOp := vf2 h t r vd va vb (fun _ a b => a.mul b)
def execVmul (h : VHead) (t : Ty) (r : Rnd) (vd va vb : BitVec 8) (s : State) : Host.Outcome State Fault Refusal := issue (opVmul h t r vd va vb) s

/-- R176 -/
def opVdiv (h : VHead) (t : Ty) (r : Rnd) (vd va vb : BitVec 8) : SlotOp := vf2 h t r vd va vb (fun _ a b => a.div b)
def execVdiv (h : VHead) (t : Ty) (r : Rnd) (vd va vb : BitVec 8) (s : State) : Host.Outcome State Fault Refusal := issue (opVdiv h t r vd va vb) s

/-- R176, R177 -/
def opVfma (h : VHead) (t : Ty) (r : Rnd) (vd va vb vc : BitVec 8) : SlotOp := vf3 h t r vd va vb vc (fun r a b c => Num.fma r a b c)
def execVfma (h : VHead) (t : Ty) (r : Rnd) (vd va vb vc : BitVec 8) (s : State) : Host.Outcome State Fault Refusal := issue (opVfma h t r vd va vb vc) s

/-- R176, R177 -/
def opVfms (h : VHead) (t : Ty) (r : Rnd) (vd va vb vc : BitVec 8) : SlotOp := vf3 h t r vd va vb vc (fun r a b c => Num.fma r a b c.neg)
def execVfms (h : VHead) (t : Ty) (r : Rnd) (vd va vb vc : BitVec 8) (s : State) : Host.Outcome State Fault Refusal := issue (opVfms h t r vd va vb vc) s

/-- R176, R177 -/
def opVfnma (h : VHead) (t : Ty) (r : Rnd) (vd va vb vc : BitVec 8) : SlotOp := vf3 h t r vd va vb vc (fun r a b c => Num.fma r a.neg b c)
def execVfnma (h : VHead) (t : Ty) (r : Rnd) (vd va vb vc : BitVec 8) (s : State) : Host.Outcome State Fault Refusal := issue (opVfnma h t r vd va vb vc) s

/-- R134, R176 -/
def opVmin (h : VHead) (t : Ty) (vd va vb : BitVec 8) : SlotOp := vf2 h t .rne vd va vb (fun _ a b => Num.min a b)
def execVmin (h : VHead) (t : Ty) (vd va vb : BitVec 8) (s : State) : Host.Outcome State Fault Refusal := issue (opVmin h t vd va vb) s

/-- R134, R176 -/
def opVmax (h : VHead) (t : Ty) (vd va vb : BitVec 8) : SlotOp := vf2 h t .rne vd va vb (fun _ a b => Num.max a b)
def execVmax (h : VHead) (t : Ty) (vd va vb : BitVec 8) (s : State) : Host.Outcome State Fault Refusal := issue (opVmax h t vd va vb) s

/-- R178 -/
def opVabs (h : VHead) (t : Ty) (vd va : BitVec 8) : SlotOp := vi1 h t vd va (onSign t fun a => a &&& ~~~signBit t.width)
def execVabs (h : VHead) (t : Ty) (vd va : BitVec 8) (s : State) : Host.Outcome State Fault Refusal := issue (opVabs h t vd va) s

/-- R178 -/
def opVneg (h : VHead) (t : Ty) (vd va : BitVec 8) : SlotOp := vi1 h t vd va (onSign t fun a => a ^^^ signBit t.width)
def execVneg (h : VHead) (t : Ty) (vd va : BitVec 8) (s : State) : Host.Outcome State Fault Refusal := issue (opVneg h t vd va) s

/-- R178 -/
def opVcopysign (h : VHead) (t : Ty) (vd va vb : BitVec 8) : SlotOp := 
  vi2 h t vd va vb fun a b => onSign t (fun a => (a &&& ~~~signBit t.width) ||| (b &&& signBit t.width)) a
def execVcopysign (h : VHead) (t : Ty) (vd va vb : BitVec 8) (s : State) : Host.Outcome State Fault Refusal := issue (opVcopysign h t vd va vb) s

/-- R176 -/
def opVsqrt (h : VHead) (t : Ty) (r : Rnd) (vd va : BitVec 8) : SlotOp := vf1 h t r vd va Num.sqrt
def execVsqrt (h : VHead) (t : Ty) (r : Rnd) (vd va : BitVec 8) (s : State) : Host.Outcome State Fault Refusal := issue (opVsqrt h t r vd va) s

/-- R179 -/
def opVrcp (h : VHead) (t : Ty) (r : Rnd) (vd va : BitVec 8) : SlotOp := vf1 h t r vd va Num.rcp
def execVrcp (h : VHead) (t : Ty) (r : Rnd) (vd va : BitVec 8) (s : State) : Host.Outcome State Fault Refusal := issue (opVrcp h t r vd va) s

/-- R179 -/
def opVrsq (h : VHead) (t : Ty) (r : Rnd) (vd va : BitVec 8) : SlotOp := vf1 h t r vd va Num.rsq
def execVrsq (h : VHead) (t : Ty) (r : Rnd) (vd va : BitVec 8) (s : State) : Host.Outcome State Fault Refusal := issue (opVrsq h t r vd va) s

/-- R179 -/
def opVexp2 (h : VHead) (t : Ty) (r : Rnd) (vd va : BitVec 8) : SlotOp := vElem h t r vd va .exp2
def execVexp2 (h : VHead) (t : Ty) (r : Rnd) (vd va : BitVec 8) (s : State) : Host.Outcome State Fault Refusal := issue (opVexp2 h t r vd va) s

/-- R179 -/
def opVlog2 (h : VHead) (t : Ty) (r : Rnd) (vd va : BitVec 8) : SlotOp := vElem h t r vd va .log2
def execVlog2 (h : VHead) (t : Ty) (r : Rnd) (vd va : BitVec 8) (s : State) : Host.Outcome State Fault Refusal := issue (opVlog2 h t r vd va) s

/-- R179 -/
def opVsin (h : VHead) (t : Ty) (r : Rnd) (vd va : BitVec 8) : SlotOp := vElem h t r vd va .sin
def execVsin (h : VHead) (t : Ty) (r : Rnd) (vd va : BitVec 8) (s : State) : Host.Outcome State Fault Refusal := issue (opVsin h t r vd va) s

/-- R179 -/
def opVcos (h : VHead) (t : Ty) (r : Rnd) (vd va : BitVec 8) : SlotOp := vElem h t r vd va .cos
def execVcos (h : VHead) (t : Ty) (r : Rnd) (vd va : BitVec 8) (s : State) : Host.Outcome State Fault Refusal := issue (opVcos h t r vd va) s

/-- R179 -/
def opVtanh (h : VHead) (t : Ty) (r : Rnd) (vd va : BitVec 8) : SlotOp := vElem h t r vd va .tanh
def execVtanh (h : VHead) (t : Ty) (r : Rnd) (vd va : BitVec 8) (s : State) : Host.Outcome State Fault Refusal := issue (opVtanh h t r vd va) s

/-- R180, R181 -/
def opViadd (h : VHead) (t : Ty) (sat : Bool) (vd va vb : BitVec 8) : SlotOp := vSum h t sat vd va vb (fun a b => a + b)
def execViadd (h : VHead) (t : Ty) (sat : Bool) (vd va vb : BitVec 8) (s : State) : Host.Outcome State Fault Refusal := issue (opViadd h t sat vd va vb) s

/-- R180, R181 -/
def opVisub (h : VHead) (t : Ty) (sat : Bool) (vd va vb : BitVec 8) : SlotOp := vSum h t sat vd va vb (fun a b => a - b)
def execVisub (h : VHead) (t : Ty) (sat : Bool) (vd va vb : BitVec 8) (s : State) : Host.Outcome State Fault Refusal := issue (opVisub h t sat vd va vb) s

/-- R180 -/
def opVimul (h : VHead) (t : Ty) (vd va vb : BitVec 8) : SlotOp := vi2 h t vd va vb fun a b => intLane t.width (intValue t a * intValue t b)
def execVimul (h : VHead) (t : Ty) (vd va vb : BitVec 8) (s : State) : Host.Outcome State Fault Refusal := issue (opVimul h t vd va vb) s

/-- R180 -/
def opVimulh (h : VHead) (t : Ty) (vd va vb : BitVec 8) : SlotOp := vi2 h t vd va vb fun a b => intLane t.width (intValue t a * intValue t b / (2 ^ t.width : Nat))
def execVimulh (h : VHead) (t : Ty) (vd va vb : BitVec 8) (s : State) : Host.Outcome State Fault Refusal := issue (opVimulh h t vd va vb) s

/-- R180 -/
def opVimin (h : VHead) (t : Ty) (vd va vb : BitVec 8) : SlotOp := vi2 h t vd va vb fun a b => if intValue t a < intValue t b then a else b
def execVimin (h : VHead) (t : Ty) (vd va vb : BitVec 8) (s : State) : Host.Outcome State Fault Refusal := issue (opVimin h t vd va vb) s

/-- R180 -/
def opVimax (h : VHead) (t : Ty) (vd va vb : BitVec 8) : SlotOp := vi2 h t vd va vb fun a b => if intValue t a < intValue t b then b else a
def execVimax (h : VHead) (t : Ty) (vd va vb : BitVec 8) (s : State) : Host.Outcome State Fault Refusal := issue (opVimax h t vd va vb) s

/-- R180 -/
def opVand (h : VHead) (t : Ty) (vd va vb : BitVec 8) : SlotOp := vi2 h t vd va vb fun a b => a &&& b
def execVand (h : VHead) (t : Ty) (vd va vb : BitVec 8) (s : State) : Host.Outcome State Fault Refusal := issue (opVand h t vd va vb) s

/-- R180 -/
def opVor (h : VHead) (t : Ty) (vd va vb : BitVec 8) : SlotOp := vi2 h t vd va vb fun a b => a ||| b
def execVor (h : VHead) (t : Ty) (vd va vb : BitVec 8) (s : State) : Host.Outcome State Fault Refusal := issue (opVor h t vd va vb) s

/-- R180 -/
def opVxor (h : VHead) (t : Ty) (vd va vb : BitVec 8) : SlotOp := vi2 h t vd va vb fun a b => a ^^^ b
def execVxor (h : VHead) (t : Ty) (vd va vb : BitVec 8) (s : State) : Host.Outcome State Fault Refusal := issue (opVxor h t vd va vb) s

/-- R180 -/
def opVnot (h : VHead) (t : Ty) (vd va : BitVec 8) : SlotOp := vi1 h t vd va fun a => ~~~a
def execVnot (h : VHead) (t : Ty) (vd va : BitVec 8) (s : State) : Host.Outcome State Fault Refusal := issue (opVnot h t vd va) s

/-- R182 -/
def opVshlImm (h : VHead) (t : Ty) (vd va n : BitVec 8) : SlotOp := vShiftI h t vd va n shiftL
def execVshlImm (h : VHead) (t : Ty) (vd va n : BitVec 8) (s : State) : Host.Outcome State Fault Refusal := issue (opVshlImm h t vd va n) s

/-- R182 -/
def opVshlVb (h : VHead) (t : Ty) (vd va vb : BitVec 8) : SlotOp := vShiftV h t vd va vb shiftL
def execVshlVb (h : VHead) (t : Ty) (vd va vb : BitVec 8) (s : State) : Host.Outcome State Fault Refusal := issue (opVshlVb h t vd va vb) s

/-- R182 -/
def opVshrImm (h : VHead) (t : Ty) (vd va n : BitVec 8) : SlotOp := vShiftI h t vd va n shiftR
def execVshrImm (h : VHead) (t : Ty) (vd va n : BitVec 8) (s : State) : Host.Outcome State Fault Refusal := issue (opVshrImm h t vd va n) s

/-- R182 -/
def opVshrVb (h : VHead) (t : Ty) (vd va vb : BitVec 8) : SlotOp := vShiftV h t vd va vb shiftR
def execVshrVb (h : VHead) (t : Ty) (vd va vb : BitVec 8) (s : State) : Host.Outcome State Fault Refusal := issue (opVshrVb h t vd va vb) s

/-- R182 -/
def opVsarImm (h : VHead) (t : Ty) (vd va n : BitVec 8) : SlotOp := vShiftI h t vd va n shiftS
def execVsarImm (h : VHead) (t : Ty) (vd va n : BitVec 8) (s : State) : Host.Outcome State Fault Refusal := issue (opVsarImm h t vd va n) s

/-- R182 -/
def opVsarVb (h : VHead) (t : Ty) (vd va vb : BitVec 8) : SlotOp := vShiftV h t vd va vb shiftS
def execVsarVb (h : VHead) (t : Ty) (vd va vb : BitVec 8) (s : State) : Host.Outcome State Fault Refusal := issue (opVsarVb h t vd va vb) s

/-- R183 -/
def opVbext (h : VHead) (t : Ty) (vd va : BitVec 8) (pos : BitVec 5) (len1 : BitVec 3) : SlotOp := vi1 h t vd va (vbextE t pos.toNat (len1.toNat + 1))
def execVbext (h : VHead) (t : Ty) (vd va : BitVec 8) (pos : BitVec 5) (len1 : BitVec 3) (s : State) : Host.Outcome State Fault Refusal := issue (opVbext h t vd va pos len1) s

/-- R184 -/
def opVfsh (h : VHead) (t : Ty) (vd va vb n : BitVec 8) : SlotOp := vi2 h t vd va vb (vfshE t.width n.toNat)
def execVfsh (h : VHead) (t : Ty) (vd va vb n : BitVec 8) (s : State) : Host.Outcome State Fault Refusal := issue (opVfsh h t vd va vb n) s

/-- R180 -/
def opVpopc (h : VHead) (t : Ty) (vd va : BitVec 8) : SlotOp := vi1 h t vd va popcE
def execVpopc (h : VHead) (t : Ty) (vd va : BitVec 8) (s : State) : Host.Outcome State Fault Refusal := issue (opVpopc h t vd va) s

/-- R180 -/
def opVclz (h : VHead) (t : Ty) (vd va : BitVec 8) : SlotOp := vi1 h t vd va (clzE t.width)
def execVclz (h : VHead) (t : Ty) (vd va : BitVec 8) (s : State) : Host.Outcome State Fault Refusal := issue (opVclz h t vd va) s

/-- R185 -/
def opVsatn (h : VHead) (t u : Ty) (vd va : BitVec 8) : SlotOp := 
  vLanes h vd [(1, va)] (fun _ => elems1 t.width fun a => intLane t.width (clampTy u (intValue t a)).1)
    fun _ xs => anyElem t.width fun i => (clampTy u (intValue t (laneElem t.width i (src xs 0)))).2
def execVsatn (h : VHead) (t u : Ty) (vd va : BitVec 8) (s : State) : Host.Outcome State Fault Refusal := issue (opVsatn h t u vd va) s

/-- R186 -/
def opVcmp (cc : VcmpCc) (h : VHead) (t : Ty) (md : BitVec 4) (va vb : BitVec 8) : SlotOp := 
  vOp h.cl (fun _ => Uses.none) fun pre cur => do
    pre.maskOk h.m.toNat
    pre.maskOk md.toNat
    (pre.clusters h.cl).foldlM (fun t' c => do
      let a ← pre.vreg false c 1 va
      let b ← pre.vreg false c 2 vb
      .ok (t'.setMask c md.toNat (mergeMask (pre.mask c h.m.toNat) (pre.mask c md.toNat) fun l =>
        laneHolds cc t (lane (pre.v c a) l) (lane (pre.v c b) l)))) cur
def execVcmp (cc : VcmpCc) (h : VHead) (t : Ty) (md : BitVec 4) (va vb : BitVec 8) (s : State) : Host.Outcome State Fault Refusal := issue (opVcmp cc h t md va vb) s

/-- R187 -/
def opVsel (h : VHead) (vd va vb : BitVec 8) (mc : BitVec 4) : SlotOp := 
  vOp h.cl (usesV h vd) fun pre cur => do
    pre.maskOk h.m.toNat
    pre.maskOk mc.toNat
    (pre.clusters h.cl).foldlM (fun t c => do
      let d ← pre.vreg h.ind c 0 vd
      let a ← pre.vreg h.ind c 1 va
      let b ← pre.vreg h.ind c 2 vb
      let q := pre.mask c mc.toNat
      .ok (t.setV c d (mergeLanes (pre.mask c h.m.toNat) (pre.v c d) fun l =>
        if q.getLsbD l then lane (pre.v c a) l else lane (pre.v c b) l))) cur
def execVsel (h : VHead) (vd va vb : BitVec 8) (mc : BitVec 4) (s : State) : Host.Outcome State Fault Refusal := issue (opVsel h vd va vb mc) s

/-- A mask operation on whole masks of every executing cluster (R209). -/
def maskOp (cl md : BitVec 4) (srcs : List (BitVec 4)) (f : List Mask → Mask) : SlotOp :=
  vOp cl (fun _ => Uses.none) fun pre cur => do
    (md :: srcs).forM fun j => pre.maskOk j.toNat
    .ok ((pre.clusters cl).foldl (fun t c => t.setMask c md.toNat (f (srcs.map fun j => pre.mask c j.toNat))) cur)

/-- The first n bits set. -/
def lowOnes (n : Nat) : Mask := BitVec.ofNat 128 (2 ^ n - 1)
def popcM (x : Mask) : Nat := (List.range 128).countP fun i => x.getLsbD i
/-- Only the lowest set bit. -/
def firstM (x : Mask) : Mask := x &&& (0 - x)
/-- The lane pattern of mset (Table 8.5). -/
def patternM (code : Nat) : Mask :=
  if code ≤ 128 then lowOnes code else packN 128 1 128 fun l => BitVec.ofBool (l % 2 == code - 0x81)

/-- R209 -/
def opMand (cl : BitVec 4) (md ma mb : BitVec 4) : SlotOp := maskOp cl md [ma, mb] fun x => x.getD 0 0 &&& x.getD 1 0
def execMand (cl : BitVec 4) (md ma mb : BitVec 4) (s : State) : Host.Outcome State Fault Refusal := issue (opMand cl md ma mb) s

/-- R209 -/
def opMor (cl : BitVec 4) (md ma mb : BitVec 4) : SlotOp := maskOp cl md [ma, mb] fun x => x.getD 0 0 ||| x.getD 1 0
def execMor (cl : BitVec 4) (md ma mb : BitVec 4) (s : State) : Host.Outcome State Fault Refusal := issue (opMor cl md ma mb) s

/-- R209 -/
def opMxor (cl : BitVec 4) (md ma mb : BitVec 4) : SlotOp := maskOp cl md [ma, mb] fun x => x.getD 0 0 ^^^ x.getD 1 0
def execMxor (cl : BitVec 4) (md ma mb : BitVec 4) (s : State) : Host.Outcome State Fault Refusal := issue (opMxor cl md ma mb) s

/-- R209 -/
def opMnot (cl : BitVec 4) (md ma : BitVec 4) : SlotOp := maskOp cl md [ma] fun x => ~~~(x.getD 0 0)
def execMnot (cl : BitVec 4) (md ma : BitVec 4) (s : State) : Host.Outcome State Fault Refusal := issue (opMnot cl md ma) s

/-- R209 -/
def opMpopc (cl : BitVec 4) (md ma : BitVec 4) : SlotOp := maskOp cl md [ma] fun x => lowOnes (popcM (x.getD 0 0))
def execMpopc (cl : BitVec 4) (md ma : BitVec 4) (s : State) : Host.Outcome State Fault Refusal := issue (opMpopc cl md ma) s

/-- R209 -/
def opMfirst (cl : BitVec 4) (md ma : BitVec 4) : SlotOp := maskOp cl md [ma] fun x => firstM (x.getD 0 0)
def execMfirst (cl : BitVec 4) (md ma : BitVec 4) (s : State) : Host.Outcome State Fault Refusal := issue (opMfirst cl md ma) s

/-- R209 -/
def opMset (cl : BitVec 4) (md : BitVec 4) (code : BitVec 8) : SlotOp := maskOp cl md [] fun _ => patternM code.toNat
def execMset (cl : BitVec 4) (md : BitVec 4) (code : BitVec 8) (s : State) : Host.Outcome State Fault Refusal := issue (opMset cl md code) s

/-- R189 -/
def opVcvt (h : VHead) (t u : Ty) (r : Rnd) (vd va : BitVec 8) : SlotOp := 
  vLanes h vd [(1, va)] (fun s xs => slots u.width t.width (fun x => (cvtElem t u (s.rnd r) x).1) (src xs 0))
    fun s xs => anySlot u.width t.width (fun x => (cvtElem t u (s.rnd r) x).2) (src xs 0)
def execVcvt (h : VHead) (t u : Ty) (r : Rnd) (vd va : BitVec 8) (s : State) : Host.Outcome State Fault Refusal := issue (opVcvt h t u r vd va) s

/-- R190 -/
def opVpack (h : VHead) (t : Ty) (vd va vb : BitVec 8) : SlotOp := vLanes h vd [(1, va), (2, vb)] (fun _ xs => packLane t.width (src xs 0) (src xs 1)) noSat
def execVpack (h : VHead) (t : Ty) (vd va vb : BitVec 8) (s : State) : Host.Outcome State Fault Refusal := issue (opVpack h t vd va vb) s

/-- R191 -/
def opVunpack (h : VHead) (t : Ty) (hi : Bool) (vd va : BitVec 8) : SlotOp := vLanes h vd [(1, va)] (fun _ xs => unpackLane t hi (src xs 0)) noSat
def execVunpack (h : VHead) (t : Ty) (hi : Bool) (vd va : BitVec 8) (s : State) : Host.Outcome State Fault Refusal := issue (opVunpack h t hi vd va) s

/-- R192 -/
def opVscale (h : VHead) (t q : Ty) (vd va : BitVec 8) : SlotOp := 
  vOp h.cl (usesV h vd) fun pre cur => do
    pre.maskOk h.m.toNat
    (pre.clusters h.cl).foldlM (fun s c => do
      let d ← pre.vreg h.ind c 0 vd
      let a ← pre.vreg h.ind c 1 va
      let m := pre.mask c h.m.toNat
      let sc := (List.range (128 / t.width)).map fun b => blockScale q (blockValues t m (pre.v c a) b)
      .ok ((s.setV c d (mergeLanes m (pre.v c d) fun l => ((sc.getD (l / t.width) (0, false)).1).setWidth 32)).setSat
        (sc.any (·.2)))) cur
def execVscale (h : VHead) (t q : Ty) (vd va : BitVec 8) (s : State) : Host.Outcome State Fault Refusal := issue (opVscale h t q vd va) s

/-- R193 -/
def opVquant (h : VHead) (t q : Ty) (r : Rnd) (vd va vb : BitVec 8) : SlotOp := 
  let f (s : State) (xs : List Lane) (x : Lane) : Lane × Bool :=
    quantElem q (s.rnd r) (laneScale (src xs 1)) (tyValue t x)
  vLanes h vd [(1, va), (2, vb)] (fun s xs => slots t.width q.width (fun x => (f s xs x).1) (src xs 0))
    fun s xs => anySlot t.width q.width (fun x => (f s xs x).2) (src xs 0)
def execVquant (h : VHead) (t q : Ty) (r : Rnd) (vd va vb : BitVec 8) (s : State) : Host.Outcome State Fault Refusal := issue (opVquant h t q r vd va vb) s

/-- R194 -/
def opVdeq (h : VHead) (t q : Ty) (r : Rnd) (vd va vb : BitVec 8) : SlotOp := 
  vLanes h vd [(1, va), (2, vb)] (fun s xs =>
    slots q.width t.width (deqElem t q (s.rnd r) (laneScale (src xs 1))) (src xs 0)) noSat
def execVdeq (h : VHead) (t q : Ty) (r : Rnd) (vd va vb : BitVec 8) (s : State) : Host.Outcome State Fault Refusal := issue (opVdeq h t q r vd va vb) s

end Sys2Proof.Machine
end

