-- ==== Sys2Proof/Machine/VMove.lean ====
section
/-! DEFINITION. Vector data movement (spec/08): loads and stores of lanes, register indirection, permutes, index registers,
reductions and scans, packed sparse objects, and tiles between registers and queues. -/

namespace Sys2Proof.Machine

/-! ## Lanes of memory (R197 to R199) -/

/-- The value that an operation found for a lane of a cluster. -/
abbrev LaneVals := List (Nat × Nat × Lane)

def LaneVals.at_ (vals : LaneVals) (c l : Nat) (old : Lane) : Lane :=
  match vals.find? fun x => x.1 == c && x.2.1 == l with
  | some x => x.2.2
  | none => old

/-- Write lanes found by an operation into vd of every executing cluster, the others keeping their value. -/
def State.putLanes (pre cur : State) (h : VHead) (vd : BitVec 8) (vals : LaneVals) : Res State :=
  (pre.clusters h.cl).foldlM (fun t c => do
    let d ← pre.vreg h.ind c 0 vd
    .ok (t.setV c d (packLanes fun l => vals.at_ c l (lane (pre.v c d) l)))) cur

/-- Translate four bytes for every accessed lane, ascending P: the lowest lane's fault is the bundle's (R197).
[DEDUCED, log 25] -/
def State.laneAddrs (cur : State) (a : Access) (sums : List Word) : Res (List Nat) := sums.mapM fun x => cur.tr a x 4 4

/-- The bytes of every lane are free of uncorrectable errors. -/
def State.lanesClean (cur : State) (sums : List Word) (pas : List Nat) : Res Unit :=
  match (sums.zip pas).find? fun x => cur.badIn x.2 4 with
  | some x => eccu 0 (fld x.1.toNat 0 40)
  | none => .ok ()

/-- The alignment of the base address of vld and vst, checked whether or not a lane is accessed; where the base and an accessed
lane are over 40 bits, that lane's SEGV comes first (R138, R197). [DEDUCED, log 25] -/
def baseAligned (ea : Word) (laneOver : Bool) : Res Unit :=
  need (ea.toNat % 128 == 0 || (laneOver && 2 ^ 40 ≤ ea.toNat)) (alignFault (fld ea.toNat 0 40))

/-- A load of lanes: where each lane's bytes lie, by cluster and lane. [DEDUCED, log 25] -/
def vLoad (h : VHead) (vd : BitVec 8) (base : State → Res Unit) (addr : State → Res (Nat → Nat → Word)) : SlotOp :=
  vOp h.cl (usesV h vd) fun pre cur => do
    pre.maskOk h.m.toNat
    let _ ← (pre.clusters h.cl).mapM fun c => pre.vreg h.ind c 0 vd
    let at_ ← addr pre
    base pre
    let ls := pre.accessed h
    let sums := ls.map fun x => at_ x.1 x.2
    let pas ← cur.laneAddrs .ld sums
    cur.lanesClean sums pas
    pre.putLanes cur h vd ((ls.zip pas).map fun x => (x.1.1, x.1.2, BitVec.ofNat 32 (cur.load x.2 4)))

/-- A store of the lanes of vd, ascending P, so that the highest P stays (R198). [DEDUCED, log 25] -/
def vStore (h : VHead) (vd : BitVec 8) (base : State → Res Unit) (addr : State → Res (Nat → Nat → Word)) : SlotOp :=
  vOp h.cl (fun _ => Uses.none) fun pre cur => do
    pre.maskOk h.m.toNat
    let ds ← (pre.clusters h.cl).mapM fun c => (pre.vreg h.ind c 0 vd).map fun d => (c, pre.v c d)
    let at_ ← addr pre
    base pre
    let ls := pre.accessed h
    let pas ← cur.laneAddrs .st (ls.map fun x => at_ x.1 x.2)
    let data (c l : Nat) : Lane := match ds.find? fun d => d.1 == c with
      | some d => lane d.2 l
      | none => 0
    .ok ((ls.zip pas).foldl (fun t x => t.store x.2 (bytesOf 4 (data x.1.1 x.1.2))) cur)

/-- Lane addresses of vld and vst: ea + 4P. -/
def State.atRow (s : State) (ga : GReg) (off : BitVec 8) : Word := s.g ga + off.signExtend 64 * 128
def State.rowAddr (s : State) (ga : GReg) (off : BitVec 8) (c l : Nat) : Word :=
  s.atRow ga off + BitVec.ofNat 64 (4 * s.position c l)
def State.rowBase (s : State) (h : VHead) (ga : GReg) (off : BitVec 8) : Res Unit :=
  baseAligned (s.atRow ga off) ((s.accessed h).any fun x => decide (2 ^ 40 ≤ (s.rowAddr ga off x.1 x.2).toNat))
/-- Lane addresses of vlds and vsts: g(a) + P x g(b). -/
def State.strideAddr (s : State) (ga gb : GReg) (c l : Nat) : Word := s.g ga + BitVec.ofNat 64 (s.position c l) * s.g gb
/-- Lane addresses of vgather and vscatter: g(a) + lane l of vB. -/
def State.indexAddr (s : State) (h : VHead) (ga : GReg) (vb : BitVec 8) : Res (Nat → Nat → Word) := do
  let bs ← (s.clusters h.cl).mapM fun c => (s.vreg h.ind c 2 vb).map fun b => (c, s.v c b)
  .ok fun c l => s.g ga + (match bs.find? fun b => b.1 == c with
    | some b => (lane b.2 l).setWidth 64
    | none => 0)

/-! ## Register indirection (R200, R201) -/

/-- The register and lane that an index names from a base; above 255 or outside the declaration it faults. [DEDUCED, log 55] -/
def State.tableLane (s : State) (base : Nat) (j : Lane) : Res (Nat × Nat) :=
  let reg := base + j.toNat / 128
  if 255 < reg then illop 0x0B else if !s.stage.hasV reg then illop 0x08 else .ok (reg, j.toNat % 128)

/-- Lanes that the mask selects in a cluster, ascending. -/
def State.activeLanes (s : State) (h : VHead) (c : Nat) : List Nat :=
  (List.range 128).filter fun l => (s.mask c h.m.toNat).getLsbD l

/-- The registers from a field's to the top of the declared range, in every executing cluster (R201). -/
def usesFrom (h : VHead) (vd : BitVec 8) (s : State) : Uses :=
  { Uses.none with v := (s.clusters h.cl).flatMap fun c =>
      ((List.range 256).filter fun r => decide (s.vnum h.ind c vd ≤ r) && decide (r ≤ s.stage.vhi.toNat)).map (vkey c) }

/-! ## Permutes (R202, R203) -/

/-- Lane l of vd from the sources read whole. -/
def vPermute (h : VHead) (vd : BitVec 8) (srcs : List VSrc) (f : State → Nat → Nat → List VReg → Lane) : SlotOp :=
  vOp h.cl (usesV h vd) fun pre cur => do
    pre.maskOk h.m.toNat
    (pre.clusters h.cl).foldlM (fun t c => do
      let d ← pre.vreg h.ind c 0 vd
      let rs ← srcs.mapM fun x => pre.vreg h.ind c x.1 x.2
      .ok (t.setV c d (mergeLanes (pre.mask c h.m.toNat) (pre.v c d) fun l => f pre c l (rs.map (pre.v c))))) cur

/-- Which of the 256 lanes of vA followed by vB lane l takes (Table 8.3). -/
def shufIndex (p : ShufPat) (l : Nat) : Nat :=
  match p with
  | .zlo => l / 2 + 128 * (l % 2)
  | .zhi => 64 + l / 2 + 128 * (l % 2)
  | .uev => 2 * l
  | .uod => 2 * l + 1
  | .rev => 127 - l
  | .swp => if l % 2 = 0 then l + 1 else l - 1

/-! ## Reductions (R205 to R208) -/

/-- The elements of the accessed lanes, ascending E, with their index (R195). -/
def State.inputs (s : State) (h : VHead) (t : Ty) (va : BitVec 8) : Res (List (Nat × Lane)) := do
  let xs ← (s.clusters h.cl).mapM fun c => do
    let a ← s.vreg h.ind c 1 va
    let x := s.v c a
    .ok ((s.activeLanes h c).flatMap fun l => (List.range (32 / t.width)).map fun e =>
      (s.position c l * (32 / t.width) + e, laneElem t.width e (lane x l)))
  .ok xs.flatten

/-- One more input of add, max or min, as an exact value. -/
def redStep (op : RedOp) (r : Rnd) (a x : Num) : Num :=
  match op with
  | .add => a.add r x
  | .max => Num.max a x
  | _ => Num.min a x

/-- An exact result as an element: integers wrap, floating-point values round once. -/
def redOut (t : Ty) (r : Rnd) (x : Num) : Lane :=
  if t.isInt then
    match x with
    | .fin neg q => intLane t.width (signed neg q).num
    | _ => 0
  else (tyRound t r x).1

/-- The result with no input (Table 8.4). -/
def redNone (op : RedOp) (t : Ty) : Lane :=
  match op with
  | .add | .or => 0
  | .max => if t.isInt then intLane t.width (tyMin t) else (tyRound t .rne (.inf true)).1
  | .min => if t.isInt then intLane t.width (tyMax t) else (tyRound t .rne (.inf false)).1
  | .and => intLane t.width (-1)

/-- The reduction of a list of elements (Table 8.4). -/
def redAll (op : RedOp) (t : Ty) (r : Rnd) (xs : List Lane) : Lane :=
  match xs with
  | [] => redNone op t
  | x :: rest =>
    match op with
    | .and => rest.foldl (fun a b => a &&& b) x
    | .or => rest.foldl (fun a b => a ||| b) x
    | _ => redOut t r (rest.foldl (fun a b => redStep op r a (tyValue t b)) (tyValue t x))

/-- Every element of a lane set to one value. -/
def splat (w : Nat) (x : Lane) : Lane := packElems w fun _ => x

/-- One lane value into all 128 lanes of vd of every executing cluster. -/
def State.putAll (pre cur : State) (h : VHead) (vd : BitVec 8) (x : Lane) : Res State :=
  (pre.clusters h.cl).foldlM (fun t c => do
    let d ← pre.vreg h.ind c 0 vd
    .ok (t.setV c d (packLanes fun _ => x))) cur

/-- The index of the largest value, with the NaN flag (R206). -/
def argmax (t : Ty) (xs : List (Nat × Lane)) : Lane :=
  match xs.find? fun x => (tyValue t x.2).isNan with
  | some x => BitVec.ofNat 32 (2 ^ 31 + x.1)
  | none =>
    let best := xs.foldl (fun (b : Option (Nat × Num)) x =>
      match b with
      | none => some (x.1, tyValue t x.2)
      | some y => if y.2.lt (tyValue t x.2) then some (x.1, tyValue t x.2) else b) none
    match best with
    | none => 0x7FFFFFFF
    | some b => BitVec.ofNat 32 b.1

/-- The running results of a scan: every element with its prefix applied (R207); a floating-point prefix whose exact sum is zero has the
sign that R133 gives a sum. [DESIGN CHOICE, log 68] -/
def scanFrom (op : RedOp) (t : Ty) (r : Rnd) : Option Num → List (Nat × Lane) → List (Nat × Lane)
  | _, [] => []
  | a, x :: rest =>
    let b := match a with
      | none => tyValue t x.2
      | some y => redStep op r y (tyValue t x.2)
    (x.1, redOut t r b) :: scanFrom op t r (some b) rest

/-! ## Packed sparse objects (R210 to R212) -/

/-- MASKB and USED of an object. -/
def maskBytes (count : Nat) : Nat := ceilDiv count 512 * 64
def usedBytes (count nnz size : Nat) : Nat := ceilDiv (16 + maskBytes count + nnz * size) 64 * 64

/-- The bytes of an object that holds elements of w bits (Table 8.6). -/
def sparseBytes (t : Ty) (xs : List Lane) : List Byte :=
  let size := t.width / 8
  let stored := xs.filter fun x => x != 0
  let used := usedBytes xs.length stored.length size
  let head : Nat := 1 + t.code.toNat <<< 8 + xs.length <<< 16 + stored.length <<< 32 +
    maskBytes xs.length <<< 48 + used <<< 64
  let mask : List Byte := (List.range (maskBytes xs.length)).map fun b =>
    packN 8 1 8 fun j => BitVec.ofBool (xs.getD (8 * b + j) 0 != 0)
  takeFill used 0 (bytesOf 16 (BitVec.ofNat 128 head) ++ mask ++ stored.flatMap fun x => bytesOf size x)

/-- Addresses of the four-byte words that n bytes from an effective sum touch. -/
def State.words (s : State) (a : Access) (base : Word) (n : Nat) : Res (List Nat) :=
  (List.range (ceilDiv n 4)).mapM fun i => s.tr a (base + BitVec.ofNat 64 (4 * i)) 4 4

/-- n bytes from an effective sum, each checked as R197 states. -/
def State.readChecked (s : State) (base : Word) (n : Nat) : Res (List Byte) := do
  let pas ← s.words .ld base n
  s.lanesClean ((List.range pas.length).map fun i => base + BitVec.ofNat 64 (4 * i)) pas
  .ok ((pas.flatMap fun pa => s.bytes pa 4).take n)

/-- Bytes to an effective sum, a multiple of four of them. -/
def State.writeChecked (s : State) (base : Word) (bs : List Byte) : Res State := do
  let pas ← s.words .st base bs.length
  .ok ((List.range pas.length).foldl (fun t i => t.store (pas.getD i 0) ((bs.drop (4 * i)).take 4)) s)

/-- Deal stored values to the elements whose mask bit is set. -/
def expand (mask : Nat) : Nat → List Lane → List (Nat × Lane) → List (Nat × Lane)
  | _, _, [] => []
  | i, vals, x :: rest =>
    if mask.testBit i then (x.1, vals.headD 0) :: expand mask (i + 1) vals.tail rest
    else (x.1, 0) :: expand mask (i + 1) vals rest

/-- Lane values from elements given by index E. -/
def State.lanesOf (s : State) (h : VHead) (t : Ty) (xs : List (Nat × Lane)) : LaneVals :=
  let n := 32 / t.width
  let ls := s.accessed h
  (List.range ls.length).map fun i =>
    let x := ls.getD i (0, 0)
    (x.1, x.2, packElems t.width fun e => (xs.getD (n * i + e) (0, 0)).2)

/-! ## Tiles between registers and queues (R213, R214) -/

/-- The port number in g(a)[4:0]. -/
def State.portNo (s : State) (ga : GReg) : Nat := fld (s.g ga).toNat 0 5

/-- In VLIW mode the cluster mask must be 0b1111. [DEDUCED, log 17] -/
def allClusters (cl : BitVec 4) (s : State) : Option Nat := if !s.inSplit && cl != 15 then some 0x02 else none

/-- Where rows 4j..4j+3 of a tile lie: cluster and register; in split mode all four registers are checked. [DEDUCED, log 55] -/
def State.rowRegs (s : State) (h : VHead) (vd : BitVec 8) : Res (List (Nat × Nat)) :=
  if s.inSplit then do
    let d ← s.vreg h.ind s.stream 0 vd
    if 255 < d + 3 then illop 0x0B
    else (List.range 4).mapM fun j => (need (s.stage.hasV (d + j)) (illop 0x08)).map fun _ => (s.stream, d + j)
  else (List.range 4).mapM fun c => (s.vreg h.ind c 0 vd).map fun d => (c, d)

/-- Row r of a tile cut to the head's bytes per row; zero beyond the tile (R213). -/
def popRow (e : Entry) (r : Nat) : BitVec 1024 :=
  if r < hRows e.head then e.row r &&& BitVec.ofNat 1024 (2 ^ (8 * hRowb e.head) - 1) else 0

/-- What a vqpop or vqpush writes or names (R93): the registers of the rows, and the port. -/
def rowUses (h : VHead) (vd : BitVec 8) (s : State) : List Nat :=
  if s.inSplit then (List.range 4).flatMap fun j => vUse s.stream (s.vnum h.ind s.stream vd + j) else s.vUses h vd
def State.iqUse (s : State) (ga : GReg) : List Nat := if s.portNo ga < 16 then [s.portNo ga] else []
def State.oqUse (s : State) (ga : GReg) : List Nat := if 16 ≤ s.portNo ga then [s.portNo ga - 16] else []

/-- The rows that a vqpush sends, as words of 8 bytes. -/
def State.pushRows (s : State) (regs : List (Nat × Nat)) (n : Nat) : List Word :=
  (List.range (16 * n)).map fun w =>
    let cr := regs.getD (w / 64) (0, 0)
    elem 64 (w % 64) (s.v cr.1 cr.2)

/-- The open tile of a vqpush: of the same origin and format, with room for n rows (R214). -/
def State.vpushOk (s : State) (n : Nat) (fmt : Nat) (rows : Nat) : Res Unit :=
  let p := s.oq s.focus n
  match p.cur with
  | none => s.creditOk n
  | some t =>
    if rows = 0 || 16 < rows then illop 0x0B
    else if !t.byV || hFmt t.head != fmt || 256 < t.words.length + 16 * rows then illop 0x4A
    else if p.failed then circFail (16 + n) else .ok ()

/-! ## The instructions -/

/-- R199 -/
def opVld (h : VHead) (vd : BitVec 8) (ga : GReg) (off : BitVec 8) : SlotOp := 
  vLoad h vd (fun s => s.rowBase h ga off) fun s => .ok (s.rowAddr ga off)
def execVld (h : VHead) (vd : BitVec 8) (ga : GReg) (off : BitVec 8) (s : State) : Host.Outcome State Fault Refusal :=
  issue (opVld h vd ga off) s

/-- R199 -/
def opVst (h : VHead) (vd : BitVec 8) (ga : GReg) (off : BitVec 8) : SlotOp := 
  vStore h vd (fun s => s.rowBase h ga off) fun s => .ok (s.rowAddr ga off)
def execVst (h : VHead) (vd : BitVec 8) (ga : GReg) (off : BitVec 8) (s : State) : Host.Outcome State Fault Refusal :=
  issue (opVst h vd ga off) s

/-- R199 -/
def opVlds (h : VHead) (vd : BitVec 8) (ga gb : GReg) : SlotOp := 
  vLoad h vd (fun _ => .ok ()) fun s => .ok (s.strideAddr ga gb)
def execVlds (h : VHead) (vd : BitVec 8) (ga gb : GReg) (s : State) : Host.Outcome State Fault Refusal :=
  issue (opVlds h vd ga gb) s

/-- R199 -/
def opVsts (h : VHead) (vd : BitVec 8) (ga gb : GReg) : SlotOp := 
  vStore h vd (fun _ => .ok ()) fun s => .ok (s.strideAddr ga gb)
def execVsts (h : VHead) (vd : BitVec 8) (ga gb : GReg) (s : State) : Host.Outcome State Fault Refusal :=
  issue (opVsts h vd ga gb) s

/-- R199; vd of every executing cluster is checked, then vb of each. [DEDUCED, log 55] -/
def opVgather (h : VHead) (vd : BitVec 8) (ga : GReg) (vb : BitVec 8) : SlotOp := 
  vLoad h vd (fun _ => .ok ()) fun s => s.indexAddr h ga vb
def execVgather (h : VHead) (vd : BitVec 8) (ga : GReg) (vb : BitVec 8) (s : State) : Host.Outcome State Fault Refusal :=
  issue (opVgather h vd ga vb) s

/-- R199; vd of every executing cluster is checked, then vb of each. [DEDUCED, log 55] -/
def opVscatter (h : VHead) (vd : BitVec 8) (ga : GReg) (vb : BitVec 8) : SlotOp := 
  vStore h vd (fun _ => .ok ()) fun s => s.indexAddr h ga vb
def execVscatter (h : VHead) (vd : BitVec 8) (ga : GReg) (vb : BitVec 8) (s : State) : Host.Outcome State Fault Refusal :=
  issue (opVscatter h vd ga vb) s

/-- R199 -/
def opVldb (h : VHead) (vd : BitVec 8) (ga : GReg) : SlotOp := 
  vLoad h vd (fun _ => .ok ()) fun s => .ok fun _ _ => s.g ga
def execVldb (h : VHead) (vd : BitVec 8) (ga : GReg) (s : State) : Host.Outcome State Fault Refusal :=
  issue (opVldb h vd ga) s

/-- R200 -/
def opVrget (h : VHead) (vd va vb : BitVec 8) : SlotOp := 
  vOp h.cl (usesV h vd) fun pre cur => do
    pre.maskOk h.m.toNat
    let vals ← (pre.clusters h.cl).mapM fun c => do
      let _ ← pre.vreg h.ind c 0 vd
      let a ← pre.vreg h.ind c 1 va
      let b ← pre.vreg h.ind c 2 vb
      (pre.activeLanes h c).mapM fun l => do
        let rt ← pre.tableLane a (lane (pre.v c b) l)
        .ok (c, l, lane (pre.v c rt.1) rt.2)
    pre.putLanes cur h vd vals.flatten
def execVrget (h : VHead) (vd va vb : BitVec 8) (s : State) : Host.Outcome State Fault Refusal :=
  issue (opVrget h vd va vb) s

/-- R200, R201 -/
def opVrput (h : VHead) (vd va vb : BitVec 8) : SlotOp := 
  vOp h.cl (usesFrom h vd) fun pre cur => do
    pre.maskOk h.m.toNat
    (pre.clusters h.cl).foldlM (fun t c => do
      let d ← pre.vreg h.ind c 0 vd
      let a ← pre.vreg h.ind c 1 va
      let b ← pre.vreg h.ind c 2 vb
      (pre.activeLanes h c).foldlM (fun u l => do
        let rt ← pre.tableLane d (lane (pre.v c a) l)
        .ok (u.setV c rt.1 (setElem 32 rt.2 (u.v c rt.1) (lane (pre.v c b) l)))) t) cur
def execVrput (h : VHead) (vd va vb : BitVec 8) (s : State) : Host.Outcome State Fault Refusal :=
  issue (opVrput h vd va vb) s

/-- R202 -/
def opVperm (h : VHead) (vd va vb : BitVec 8) : SlotOp := 
  vPermute h vd [(1, va), (2, vb)] fun _ _ l xs => lane (xs.getD 0 0) ((lane (xs.getD 1 0) l).toNat % 128)
def execVperm (h : VHead) (vd va vb : BitVec 8) (s : State) : Host.Outcome State Fault Refusal :=
  issue (opVperm h vd va vb) s

/-- R203 -/
def opVshuf (h : VHead) (p : ShufPat) (vd va vb : BitVec 8) : SlotOp := 
  vPermute h vd (if p.oneSource then [(1, va)] else [(1, va), (2, vb)]) fun _ _ l xs =>
    let i := shufIndex p l
    if i < 128 then lane (xs.getD 0 0) i else lane (xs.getD 1 0) (i - 128)
def execVshuf (h : VHead) (p : ShufPat) (vd va vb : BitVec 8) (s : State) : Host.Outcome State Fault Refusal :=
  issue (opVshuf h p vd va vb) s

/-- R202 -/
def opVrotl (h : VHead) (vd va : BitVec 8) (n : BitVec 7) : SlotOp := 
  vPermute h vd [(1, va)] fun _ _ l xs => lane (xs.getD 0 0) ((l + 128 - n.toNat) % 128)
def execVrotl (h : VHead) (vd va : BitVec 8) (n : BitVec 7) (s : State) : Host.Outcome State Fault Refusal :=
  issue (opVrotl h vd va n) s

/-- R202 -/
def opVxcl (h : VHead) (vd va : BitVec 8) (gb : GReg) : SlotOp := 
  { vPermute h vd [] (fun _ _ _ _ => 0) with
    splitOk := false
    fx := fun pre cur => do
      need (!pre.me.vBusy) waiting
      pre.maskOk h.m.toNat
      let t ← (pre.clusters h.cl).foldlM (fun t c => do
        let d ← pre.vreg h.ind c 0 vd
        let a ← pre.vreg h.ind c 1 va
        let q := fld (pre.g gb).toNat (2 * c) 2
        .ok (t.setV c d (mergeLanes (pre.mask c h.m.toNat) (pre.v c d) fun l => lane (pre.v q a) l))) cur
      .ok (t, .seq) }
def execVxcl (h : VHead) (vd va : BitVec 8) (gb : GReg) (s : State) : Host.Outcome State Fault Refusal :=
  issue (opVxcl h vd va gb) s

/-- R202 -/
def opVmovs (h : VHead) (vd : BitVec 8) (gb : GReg) : SlotOp := vPermute h vd [] fun s _ _ _ => (s.g gb).setWidth 32
def execVmovs (h : VHead) (vd : BitVec 8) (gb : GReg) (s : State) : Host.Outcome State Fault Refusal :=
  issue (opVmovs h vd gb) s

/-- R202 -/
def opVbcast (h : VHead) (vd va : BitVec 8) (gb : GReg) : SlotOp := 
  vOp h.cl (usesV h vd) fun pre cur => do
    pre.maskOk h.m.toNat
    (pre.clusters h.cl).foldlM (fun t c => do
      let d ← pre.vreg h.ind c 0 vd
      let a ← pre.vreg h.ind c 1 va
      let w := fld (pre.g gb).toNat 0 9
      let x := if pre.inSplit then lane (pre.v c a) (w % 128) else lane (pre.v (w / 128) a) (w % 128)
      .ok (t.setV c d (mergeLanes (pre.mask c h.m.toNat) (pre.v c d) fun _ => x))) cur
def execVbcast (h : VHead) (vd va : BitVec 8) (gb : GReg) (s : State) : Host.Outcome State Fault Refusal :=
  issue (opVbcast h vd va gb) s

/-- R202 -/
def opVzero (h : VHead) (vd : BitVec 8) : SlotOp := vPermute h vd [] fun _ _ _ _ => 0
def execVzero (h : VHead) (vd : BitVec 8) (s : State) : Host.Outcome State Fault Refusal := issue (opVzero h vd) s

/-- R204: g(B) is read unsigned, and the sum does not wrap. [DESIGN CHOICE, log 67] -/
def opKset (cl : BitVec 4) (kd : BitVec 3) (gb : GReg) (e : BitVec 8) : SlotOp := 
  vOp cl (fun _ => Uses.none) fun pre cur =>
    (pre.clusters cl).foldlM (fun t c =>
      let x := (pre.g gb).toNat + e.toNat * c
      if 511 < x then illop 0x0B else .ok (t.setK c kd.toNat (BitVec.ofNat 9 x))) cur
def execKset (cl : BitVec 4) (kd : BitVec 3) (gb : GReg) (e : BitVec 8) (s : State) : Host.Outcome State Fault Refusal :=
  issue (opKset cl kd gb e) s

/-- R72, R205: va of every executing cluster is checked, then vd of each. [DEDUCED, log 55] -/
def opVred (h : VHead) (op : RedOp) (t : Ty) (r : Rnd) (vd va : BitVec 8) : SlotOp := 
  vOp h.cl (usesV h vd) fun pre cur => do
    pre.maskOk h.m.toNat
    let xs ← pre.inputs h t va
    pre.putAll cur h vd (splat t.width (redAll op t (pre.rnd r) (xs.map (·.2))))
def execVred (h : VHead) (op : RedOp) (t : Ty) (r : Rnd) (vd va : BitVec 8) (s : State) : Host.Outcome State Fault Refusal :=
  issue (opVred h op t r vd va) s

/-- R206, its registers checked as those of vred. [DEDUCED, log 55] -/
def opVargmax (h : VHead) (t : Ty) (vd va : BitVec 8) : SlotOp := 
  vOp h.cl (usesV h vd) fun pre cur => do
    pre.maskOk h.m.toNat
    let xs ← pre.inputs h t va
    pre.putAll cur h vd (argmax t xs)
def execVargmax (h : VHead) (t : Ty) (vd va : BitVec 8) (s : State) : Host.Outcome State Fault Refusal :=
  issue (opVargmax h t vd va) s

/-- R207, its registers checked as those of vred. [DEDUCED, log 55] -/
def opVscan (h : VHead) (op : ScanOp) (t : Ty) (r : Rnd) (vd va : BitVec 8) : SlotOp := 
  vOp h.cl (usesV h vd) fun pre cur => do
    pre.maskOk h.m.toNat
    let xs ← pre.inputs h t va
    pre.putLanes cur h vd (pre.lanesOf h t (scanFrom op.red t (pre.rnd r) none xs))
def execVscan (h : VHead) (op : ScanOp) (t : Ty) (r : Rnd) (vd va : BitVec 8) (s : State) : Host.Outcome State Fault Refusal :=
  issue (opVscan h op t r vd va) s

/-- R208 -/
def opViota (h : VHead) (vd : BitVec 8) : SlotOp := 
  vOp h.cl (usesV h vd) fun pre cur => do
    pre.maskOk h.m.toNat
    let ls := pre.accessed h
    pre.putLanes cur h vd ((List.range ls.length).map fun i =>
      ((ls.getD i (0, 0)).1, (ls.getD i (0, 0)).2, BitVec.ofNat 32 i))
def execViota (h : VHead) (vd : BitVec 8) (s : State) : Host.Outcome State Fault Refusal := issue (opViota h vd) s

/-- R211 -/
def opVcmprSt (h : VHead) (t : Ty) (nf : Bool) (vd : BitVec 8) (ga gb : GReg) : SlotOp := 
  vOp h.cl (fun _ => { Uses.none with p := if nf then [6] else [] }) fun pre cur => do
    pre.maskOk h.m.toNat
    let ds ← (pre.clusters h.cl).mapM fun c => (pre.vreg h.ind c 0 vd).map fun d => (c, pre.v c d)
    let xs := ds.flatMap fun d => (pre.activeLanes h d.1).flatMap fun l =>
      (List.range (32 / t.width)).map fun e => laneElem t.width e (lane d.2 l)
    let base := pre.g ga
    need (base.toNat % 64 == 0) (alignFault (fld base.toNat 0 40))
    let bs := sparseBytes t xs
    if (pre.g gb).toNat < bs.length then (if nf then .ok (cur.setP 6 false) else faultWith 0x08 1)
    else do
      let s ← cur.writeChecked base bs
      .ok (if nf then s.setP 6 true else s)
def execVcmprSt (h : VHead) (t : Ty) (nf : Bool) (vd : BitVec 8) (ga gb : GReg) (s : State) : Host.Outcome State Fault Refusal :=
  issue (opVcmprSt h t nf vd ga gb) s

/-- R212 -/
def opVexpdLd (h : VHead) (t : Ty) (vd : BitVec 8) (ga : GReg) : SlotOp := 
  vOp h.cl (usesV h vd) fun pre cur => do
    pre.maskOk h.m.toNat
    let _ ← (pre.clusters h.cl).mapM fun c => pre.vreg h.ind c 0 vd
    let base := pre.g ga
    need (base.toNat % 64 == 0) (alignFault (fld base.toNat 0 40))
    let size := t.width / 8
    let count := (pre.accessed h).length * (32 / t.width)
    let hd ← cur.readChecked base 16
    let nnz := leAt hd 4 2
    need (leAt hd 0 1 == 1 && leAt hd 1 1 == t.code.toNat && leAt hd 2 2 == count &&
      leAt hd 6 2 == maskBytes count && leAt hd 8 4 == usedBytes count nnz size) (faultWith 0x08 2)
    let mb ← cur.readChecked (base + 16) (maskBytes count)
    let mask := leNat mb
    need (mask < 2 ^ count && ((List.range count).countP fun i => mask.testBit i) == nnz) (faultWith 0x08 3)
    let vb ← cur.readChecked (base + BitVec.ofNat 64 (16 + maskBytes count)) (nnz * size)
    let vals := (List.range nnz).map fun i => BitVec.ofNat 32 (leAt vb (size * i) size)
    pre.putLanes cur h vd (pre.lanesOf h t (expand mask 0 vals ((List.range count).map fun i => (i, 0))))
def execVexpdLd (h : VHead) (t : Ty) (vd : BitVec 8) (ga : GReg) (s : State) : Host.Outcome State Fault Refusal :=
  issue (opVexpdLd h t vd ga) s

/-- R213 [DEDUCED, log 26] -/
def opVqpop (h : VHead) (vd : BitVec 8) (ga : GReg) : SlotOp := 
  { vOp h.cl (fun s => { Uses.none with v := rowUses h vd s, iq := s.iqUse ga }) (fun pre cur => do
      let n := pre.portNo ga
      need (n < 16) (illop 0x06)
      pre.iqOk n
      pre.iqWait n
      let regs ← pre.rowRegs h vd
      let e ← pre.headTile n
      let s ← cur.beginPop n
      .ok (((List.range 4).foldl (fun t j =>
        let cr := regs.getD j (0, 0)
        t.setV cr.1 cr.2 (packN 4096 1024 4 fun i => popRow e (4 * j + i))) s).takeHead n)) with
    static := allClusters h.cl, begins := fun pre cur => State.beginsPop (pre.portNo ga) pre cur }
def execVqpop (h : VHead) (vd : BitVec 8) (ga : GReg) (s : State) : Host.Outcome State Fault Refusal :=
  issue (opVqpop h vd ga) s

/-- R214 -/
def opVqpush (h : VHead) (t : Ty) (close : Bool) (vd : BitVec 8) (ga gb : GReg) : SlotOp := 
  { vOp h.cl (fun s => { Uses.none with oq := s.oqUse ga }) (fun pre cur => do
      let p := pre.portNo ga
      need (16 ≤ p) (illop 0x06)
      let n := p - 16
      let rows := fld (pre.g gb).toNat 0 5
      pre.oqOk n
      if (pre.oq pre.focus n).atHead then pre.oqWait n else .ok ()
      let regs ← pre.rowRegs h vd
      need (1 ≤ rows && rows ≤ 16) (illop 0x0B)
      pre.vpushOk n t.code.toNat rows
      let s ← cur.openTile n true (mkHead 0 t.code.toNat 0 128 0 pre.ctx.charge 0 0 0)
      let s2 := s.appendWords n (pre.pushRows regs rows)
      .ok (if close then s2.closeTile n else s2)) with
    static := allClusters h.cl, begins := fun pre cur => State.beginsPush (pre.portNo ga - 16) pre cur }
def execVqpush (h : VHead) (t : Ty) (close : Bool) (vd : BitVec 8) (ga gb : GReg) (s : State) : Host.Outcome State Fault Refusal :=
  issue (opVqpush h t close vd ga gb) s

end Sys2Proof.Machine
end

