-- ==== Sys2Proof/Machine/Matrix.lean ====
section
/-! DEFINITION. The matrix array (spec/09): operands, weight fills, products (spec/02 R66 to R70), clearing and reading tiles,
and the completion of what has entered the array. -/

namespace Sys2Proof.Machine

/-- An operation of the MX form: compute cores in VLIW mode only, guarded by a predicate (R83, R92). -/
def mxOp (pg : PReg) (uses : Uses) (fx : State → State → Res State) : SlotOp :=
  { slot := .x, guard := { pg := pg, neg := false }, legal := .cmp, level := 0, splitOk := false,
    static := fun _ => none, uses := fun _ => uses, early := false
    fx := fun pre cur => do
      let s ← fx pre cur
      .ok (s, .seq) }

/-! ## Operations in the array -/

/-- The tile an operation names. -/
def ArrOp.tile : ArrOp → Option Nat
  | .pass t .. => some t
  | .read t .. => some t
  | _ => none
/-- The bat an operation fills. -/
def ArrOp.fills : ArrOp → Option Nat
  | .fillW b .. => some b
  | .fillS b .. => some b
  | _ => none
/-- The bat a pass reads. -/
def ArrOp.bat : ArrOp → Option Nat
  | .pass _ b .. => some b
  | _ => none
/-- A slice write still to be made; every slice read is made at issue (R224, R230, R331). -/
def ArrOp.slice : ArrOp → Bool
  | .read _ (.mem _) .. => true
  | _ => false
def ArrOp.oq : ArrOp → Option Nat
  | .read _ (.oq n) .. => some n
  | _ => none
def ArrOp.vreg : ArrOp → Bool
  | .read _ (.vreg _) .. => true
  | _ => false

/-- Two optional numbers are the same number. -/
def sameNum (a b : Option Nat) : Bool := a.isSome && a == b

/-- An earlier operation that a later one waits for (R218, R230). -/
def ArrOp.blocks (e o : ArrOp) : Bool :=
  sameNum e.tile o.tile || sameNum e.fills o.fills || sameNum e.bat o.fills || sameNum e.fills o.bat ||
  (e.slice && o.slice) || sameNum e.oq o.oq || (e.vreg && o.vreg)

/-- Operation i of the array may complete: no earlier one blocks it. -/
def Core.arrReady (k : Core) (i : Nat) : Option ArrOp :=
  match k.arr[i]? with
  | some o => if (k.arr.take i).any fun e => e.blocks o then none else some o
  | none => none

/-- As Core.arrReady, on a core whose clock runs (R435). -/
def State.arrReady (s : State) (c i : Nat) : Option ArrOp := if s.clocked c then (s.core c).arrReady i else none

def Core.enter (k : Core) (o : ArrOp) : Core := { k with arr := k.arr ++ [o] }
def Core.leave (k : Core) (i : Nat) : Core := { k with arr := k.arr.eraseIdx i }

/-- No operation in the array names a tile (R231). -/
def Core.tileIdle (k : Core) (t : Nat) : Bool := k.arr.all fun o => o.tile != some t
/-- No fill of a bat is under way (R218). -/
def Core.batIdle (k : Core) (b : Nat) : Bool := k.arr.all fun o => o.fills != some b
/-- No operation of the array has a slice write to make. -/
def Core.noSliceWrite (k : Core) : Bool := k.arr.all fun o => !o.slice

def Core.setBat (k : Core) (b : Nat) (f : Bat → Bat) : Core := { k with bats := smod Bat.reset k.bats b f }

/-- A tile or bat of the stage's declaration (R40). -/
def State.tileOk (s : State) (t : Nat) : Res Unit := need (s.stage.hasAcc t) (illop 0x08)
def State.batOk (s : State) (b : Nat) : Res Unit := need (s.stage.hasBat b) (illop 0x08)

/-! ## Operands (R215, R216, R225) -/

/-- Bank groups of a range, as physical address ÷ 8 MiB; only slices have them. -/
def groupsOf (pa len : Nat) : List Nat :=
  if pa < 0x480000000 then (List.range ((pa + len - 1) / 0x800000 + 1 - pa / 0x800000)).map fun i => pa / 0x800000 + i else []

/-- Bank groups of the source range that a stream port recorded (R261). -/
def StreamPort.groups (p : StreamPort) : List Nat :=
  if p.striped then (if p.base < 0x480000000 then (List.range 8).map fun j => p.base / 0x800000 + j else [])
  else groupsOf p.base p.len

/-- Where byte i of a stream lies (R261). -/
def StreamPort.addr (p : StreamPort) (i : Nat) : Nat :=
  if p.striped then p.base + (i / 256 % 8) * 0x800000 + i / 2048 * 256 + i % 256 else p.base + i

/-- Where the next n bytes of a stream lie. -/
def StreamPort.next (p : StreamPort) (n : Nat) : List Nat := (List.range n).map fun i => p.addr (p.len - p.left + i)

/-- The bytes of a stream's source range as memory lists them, from its base to the end of part 7 (R261). -/
def State.sourceBytes (s : State) (base len : Nat) (striped : Bool) : Store Byte :=
  s.mem.filter fun e => decide (base ≤ e.1) && decide (e.1 < base + if striped then 7 * 0x800000 + len / 8 else len)

/-- A byte that a stream port delivers: the byte in memory, or, where it has been overwritten since the dx.stream, its old
value; Config.freeOld chooses for each aligned 64-byte beat as a whole (R261, R322). [DESIGN CHOICE, log 8] -/
def State.streamByte (s : State) (p : StreamPort) (a : Nat) : Byte :=
  if Config.freeOld s.ticks (a / 64) then sget 0 p.old a else s.byte a

/-- A dx.drain of the stage that the stream's dx.stream follows is not satisfied yet (R262). -/
def Core.streamHeld (k : Core) (p : StreamPort) : Bool :=
  k.eng.any fun e => decide (e.id < p.order) && e.stage == p.stage && match e.op with
    | .drain _ => true
    | _ => false

/-- The port is OPEN with the extent remaining; a stream behind a drain has not begun. -/
def State.spOk (s : State) (n len : Nat) : Res Unit := do
  let p := s.me.port n
  need (p.isOpen && len ≤ p.left) (illop 0x44)
  need (!s.me.streamHeld p) waiting

/-- Consume an extent; at the end of the stream the port closes and its flag receives the length, an overflow being kept for the
stage's next dx.drain (R256, R261, R262). [DEDUCED, log 43] -/
def State.spTake (s : State) (n len : Nat) : State :=
  let p := s.me.port n
  let ovf := flagOver ((s.me.flag p.flag).value.toInt + p.len)
  if p.left = len then
    (s.modMe fun k => { (if ovf then k.modStage p.stage fun x => { x with drainErr := true } else k) with
      sp := sset StreamPort.reset k.sp n StreamPort.reset }).addFlag s.focus p.flag p.len false p.stage p.charge p.pc
  else s.modMe fun k => { k with sp := sset StreamPort.reset k.sp n { p with left := p.left - len } }

/-- Wide registers from n on that a number of bytes covers, in the declaration (Table 9.4). -/
def State.wideOk (s : State) (n bytes : Nat) : Res Unit :=
  need ((List.range (ceilDiv bytes 2048)).all fun i => decide (n + i ≤ 255) && s.stage.hasV (n + i)) (illop 0x46)

/-- A slice operand: its physical address. -/
def State.sliceAddr (s : State) (a : Access) (j : BitVec 4) (len : Nat) : Res Nat :=
  s.tr a (s.g (BitVec.ofNat 5 (16 + j.toNat))) 64 len

/-- The 64-byte beats of which an operand reads a byte whose word holds an uncorrectable error (R223, R306). -/
def State.badBeats (s : State) (l : List Nat) : List Nat := ((l.filter fun a => s.badIn a 1).map (· / 64)).eraseDups

/-- Bytes at a list of addresses, each with whether the operand meets an uncorrectable error in its 64-byte beat (R223). -/
def State.readAt (s : State) (val : Nat → Byte) (l : List Nat) : List (Byte × Bool) :=
  let bad := s.badBeats l
  l.map fun a => (val a, bad.contains (a / 64))

/-- The words that hold the bytes at a list of addresses hold an uncorrectable error (R220, R306). -/
def State.errAt (s : State) (l : List Nat) : Bool := l.any fun a => s.badIn a 1

/-- The addresses of len bytes from one on. -/
def addrsAt (pa len : Nat) : List Nat := (List.range len).map fun i => pa + i

/-- The ports that a source names (R93). -/
def srcUses : ASel → Uses
  | .iq n => { Uses.none with iq := [n.toNat] }
  | .sp n => { Uses.none with sp := [n.toNat] }
  | _ => Uses.none

/-- What an operand read at issue gives: its bytes, each with whether its beat holds an uncorrectable error, whether one lies in
the operand's own words, the bank groups of its stream, and the state with a stream port's extent consumed. -/
structure Source where
  bytes  : List (Byte × Bool)
  err    : Bool
  groups : List Nat
  st     : State

/-- What an operand of a v-register waits for (R95). -/
def State.srcWait (pre : State) (src : ASel) : Res Unit :=
  match src with
  | .v _ => need (!pre.me.vBusy) waiting
  | _ => .ok ()

/-- Read an operand of len bytes at issue (R216, R224, R331); a slice is read after every slice write of the array (R230).
[DEDUCED, log 27] -/
def State.readSource (pre cur : State) (src : ASel) (len : Nat) : Res Source :=
  match src with
  | .v n => do
    pre.wideOk n.toNat len
    .ok { bytes := (pre.wideBytes n.toNat len).map fun b => (b, false), err := false, groups := [], st := cur }
  | .sp n => do
    pre.spOk n.toNat len
    let p := pre.me.port n.toNat
    let l := p.next len
    .ok { bytes := cur.readAt (cur.streamByte p) l, err := cur.errAt l, groups := p.groups, st := cur.spTake n.toNat len }
  | .slice j => do
    let pa ← pre.sliceAddr .ld j len
    need pre.me.noSliceWrite waiting
    let l := addrsAt pa len
    .ok { bytes := cur.readAt cur.byte l, err := cur.errAt l, groups := groupsOf pa len, st := cur }
  | .iq _ => illop 0x06

/-- The bytes that a fill writes: those of a beat with an uncorrectable error are free (R220). [DESIGN CHOICE, log 56] -/
def Source.fillBytes (x : Source) (now : Nat) : List Byte :=
  x.bytes.mapIdx fun i b => if b.2 then Config.freeFill now i else b.1

/-- A bank group that a list shares with the streams an earlier operation keeps active: the lowest (R225).
[DEDUCED, log 52] -/
def sharedGroup (active : List (List Nat)) (groups : List Nat) : Option Nat :=
  (groups.filter fun g => active.any fun l => l.contains g).min?

/-- BGCONF with the bank group and slice in DETAIL. [DEDUCED, log 52] -/
def bgconf (shared : Option Nat) : Res Unit :=
  match shared with
  | some g => faultWith 0x06 (g % 8 + (g / 8) <<< 4)
  | none => .ok ()

/-- Active fill streams, and active A streams. [DEDUCED, log 52] -/
def Core.fillStreams (k : Core) : List (List Nat) :=
  k.arr.filterMap fun o => match o with
    | .fillW _ _ _ _ g => some g
    | _ => none
/-- [DEDUCED, log 52] -/
def Core.aStreams (k : Core) : List (List Nat) :=
  k.arr.filterMap fun o => match o with
    | .pass _ _ _ _ _ _ _ _ _ g => some g
    | _ => none

/-! ## Weight banks (R217 to R221) -/

/-- The plain image of a bat from an image of a form (Table 9.3). -/
def plainImage (form : BatForm) (bs : List Byte) : BitVec 98304 :=
  let x : BitVec 98304 := BitVec.ofNat 98304 (leNat bs)
  match form with
  | .plain => x
  | .t8 => packN 98304 8 12288 fun i => elem 8 (96 * (i % 128) + i / 128) x
  | .t16 => packN 98304 8 12288 fun i => elem 8 (192 * (i % 128 / 2) + 2 * (i / 128) + i % 2) x

/-- R217, R218: the source is read at issue, so that no later store of the core enters the weights (R331) -/
def opMbatLd (pg : PReg) (bat : Bool) (src : ASel) (t : Ty) (form : BatForm) : SlotOp :=
  mxOp pg (srcUses src) fun pre cur => do
    let b := bat.toNat
    pre.batOk b
    need (match src with
      | .sp _ | .slice _ => true
      | _ => false) (illop 0x06)
    let x ← pre.readSource cur src 12288
    bgconf (sharedGroup pre.me.aStreams x.groups)
    .ok (x.st.modMe fun k => (k.setBat b fun y => { y with fmt := t.code, werr := false }).enter
      (.fillW b form (x.fillBytes pre.ticks) x.err x.groups))
def execMbatLd (pg : PReg) (bat : Bool) (src : ASel) (t : Ty) (form : BatForm) (s : State) :
    Host.Outcome State Fault Refusal := issue (opMbatLd pg bat src t form) s

/-- R221 -/
def opMbatSel (pg : PReg) (bat : Bool) : SlotOp :=
  mxOp pg Uses.none fun pre cur => do
    pre.batOk bat.toNat
    .ok (cur.modMe fun k => { k with activeBat := bat })
def execMbatSel (pg : PReg) (bat : Bool) (s : State) : Host.Outcome State Fault Refusal := issue (opMbatSel pg bat) s

/-- Blocks per row of a weight format, for the scale store (R219). -/
def scaleBlocks (fmt : BitVec 4) : Option Nat :=
  if fmt = 3 || fmt = 4 || fmt = 10 || fmt = 11 then some 4
  else if fmt = 5 then some 8
  else if fmt = 1 then some 2
  else none

/-- R219 -/
def opMscale (pg : PReg) (bat : Bool) (src : ASel) : SlotOp :=
  mxOp pg (srcUses src) fun pre cur => do
    let b := bat.toNat
    pre.srcWait src
    pre.batOk b
    match scaleBlocks (pre.me.bat b).fmt with
    | none => illop 0x40
    | some n => do
      let x ← pre.readSource cur src (144 * n)
      .ok (x.st.modMe fun k => (k.setBat b fun y => { y with serr := false }).enter
        (.fillS b n (x.fillBytes pre.ticks) x.err))
def execMscale (pg : PReg) (bat : Bool) (src : ASel) (s : State) : Host.Outcome State Fault Refusal :=
  issue (opMscale pg bat src) s

/-- The scale store from the bytes of a source: pair p in bytes 3p..3p+2, so scale q is bits [12q+11:12q]; entries beyond
are zero (R219). -/
def scaleStore (bs : List Byte) : BitVec 9216 := BitVec.ofNat 9216 (leNat bs)

/-- Complete a fill of a bat. The error bit is set at this moment, also where a later fill of the kind has cleared it since.
[DEDUCED, log 56] -/
def State.endFill (s : State) (c i : Nat) (o : ArrOp) : State :=
  match o with
  | .fillW b form bytes err _ =>
    s.modCore c fun k => (k.setBat b fun x => { x with w := plainImage form bytes, werr := x.werr || err }).leave i
  | .fillS b _ bytes err =>
    s.modCore c fun k => (k.setBat b fun x => { x with sc := scaleStore bytes, serr := x.serr || err }).leave i
  | _ => s

/-- BAT_FILL_COMPLETE: fill i of the array of core c (R218 to R220). -/
def batFill (c i : Nat) (s : State) : Option State :=
  match s.arrReady c i with
  | some o => if o.fills.isSome then some (s.endFill c i o) else none
  | none => none
def execBatFillComplete (c i : Nat) (s : State) : Host.Outcome State Fault Refusal := happen (batFill c i) s

/-! ## Products (R66 to R69, R222 to R224) -/

/-- The pairing class of a format: 8-bit, f4 or bf16 (Table 2.10). -/
def pairClass : Ty → Option Nat
  | .f8e4 | .f8e5 | .i8 | .n8 => some 8
  | .f4 => some 4
  | .bf16 => some 16
  | _ => none

/-- Scale blocks per row of a format; bf16 has none. -/
def blocksOf (t : Ty) : Nat := if t = .f4 then 8 else if t = .bf16 then 0 else 4

/-- The exact value of an SC12 scale. -/
def scNum (x : BitVec 12) : Num :=
  match scValue x with
  | some v => .fin false v
  | none => .nan

/-- The exact sum of the products of elements [lo, lo + n) of a row and a column. -/
def dot (ta tb : Ty) (row col : BitVec 1024) (lo n : Nat) : Num :=
  (List.range n).foldl (fun a k => a.add .rne
    ((tyValue ta ((elem ta.width (lo + k) row).setWidth 32)).mul (tyValue tb ((elem tb.width (lo + k) col).setWidth 32))))
    (.fin false 0)

def f128Of (x : F128) : Num := Fmt.b128.value x.toNat
def f128Round (x : Num) : F128 := BitVec.ofNat 128 (Fmt.b128.round .rne x).1

/-- A value is NaN or infinite. -/
def Num.special (x : Num) : Bool := x.isNan || x.isInf

/-- One contribution to an entry, and whether it poisons the row (R67, R69). -/
def accAdd (e : F128 × Bool) (p : Num) : F128 × Bool :=
  let s := (f128Of e.1).add .rne p
  let y := f128Round s
  (y, e.2 || p.special || (f128Of y).special)

/-- The contributions of one row and one column, ascending (R67). -/
def accCell (ta tb : Ty) (row col : BitVec 1024) (scA scB : Nat → BitVec 12) (e : F128) : F128 × Bool :=
  if ta = .bf16 then
    (List.range 64).foldl (fun a k => accAdd a (dot ta tb row col k 1)) (e, false)
  else
    (List.range (blocksOf ta)).foldl (fun a b =>
      accAdd a (((dot ta tb row col (32 * b) 32).mul (scNum (scA b))).mul (scNum (scB b)))) (e, false)

def accKey (t i n : Nat) : Nat := 1536 * t + 96 * i + n

/-- Rows of a tile set to +0 with their poison bits clear. -/
def Core.clearRows (k : Core) (t : Nat) (mask : BitVec 16) : Core :=
  { k with
    acc := k.acc.filter fun e => !(e.1 / 1536 == t && mask.getLsbD (e.1 % 1536 / 96))
    poison := smod 0 k.poison t fun p => p &&& ~~~mask }

/-- One row of a pass. -/
def Core.passRow (k : Core) (t b : Nat) (ta tb : Ty) (i : Nat) (row : BitVec 1024) (scA : Nat → BitVec 12) (bad : Bool) : Core :=
  let w := (k.bat b).w
  let sc := (k.bat b).sc
  let nb := blocksOf ta
  let cells := (List.range 96).map fun n =>
    accCell ta tb row (elem 1024 n w) scA (fun x => elem 12 (n * nb + x) sc) (sget 0 k.acc (accKey t i n))
  { k with
    acc := (List.range 96).foldl (fun m n => sset 0 m (accKey t i n) (cells.getD n (0, false)).1) k.acc
    poison := if bad || cells.any (·.2) then smod 0 k.poison t fun p => p ||| (1#16 <<< i) else k.poison }

/-- The rows of a mask of m low bits. -/
def lowRows (m : Nat) : BitVec 16 := BitVec.ofNat 16 (2 ^ m - 1)

/-- Complete a pass: its rows in ascending order (R223). -/
def Core.endPass (k : Core) (o : ArrOp) : Core :=
  match o with
  | .pass t b m set ta tb rows scales poison _ =>
    let k1 := if set then k.clearRows t (lowRows m) else k
    let nb := blocksOf ta
    (List.range rows.length).foldl (fun q i =>
      q.passRow t b ta tb i (rows.getD i 0) (fun x => scales.getD (i * nb + x) 0x7F0) (poison.getLsbD i)) k1
  | _ => k

/-- MMA_PASS_COMPLETE: pass i of the array of core c (R67 to R69, R223). -/
def mmaPass (c i : Nat) (s : State) : Option State :=
  match s.arrReady c i with
  | some o => if o.bat.isSome then some (s.modCore c fun k => (k.endPass o).leave i) else none
  | none => none
def execMmaPassComplete (c i : Nat) (s : State) : Host.Outcome State Fault Refusal := happen (mmaPass c i) s

/-- A queue head that an mma cannot take (R222, R223, Tables 9.4, 10.4). -/
def mmaHeadFault (e : Entry) (ta : Ty) (m : Nat) : Option Nat :=
  let h := e.head
  let need := ceilDiv (ceilDiv (hRows h * blocksOf ta) 2) 21
  if hKind h != 0 then some 0x41
  else if hFmt h != ta.code.toNat then some 0x42
  else if m < hRows h then some 0x43
  else if hScb h != 0 && hScb h < need then some 0x4E
  else none

/-- What a pass takes from its source: rows, scales (none reads 1.0), poison, bank groups, and the state after it. -/
structure PassSource where
  rows   : List (BitVec 1024)
  scales : List (BitVec 12)
  poison : BitVec 16
  groups : List Nat
  st     : State

/-- An iq source: the whole head tile is popped (R223). [DEDUCED, log 26] -/
def State.passFromIq (pre cur : State) (n m : Nat) (ta : Ty) : Res PassSource := do
  let e ← pre.headTile n
  match mmaHeadFault e ta m with
  | some d => illop d
  | none => do
    let s ← cur.beginPop n
    let r := hRows e.head
    .ok { rows := (List.range r).map fun i => popRow e i
          scales := if hScb e.head = 0 || ta = .bf16 then [] else (List.range (r * blocksOf ta)).map fun q => e.scale q
          poison := hPoison e.head, groups := [], st := s.takeHead n }

/-- A register, stream-port or slice source: M rows of 128 bytes; a bad beat reads as zero and poisons its row (R223). -/
def State.passFromMem (pre cur : State) (src : ASel) (m : Nat) : Res PassSource := do
  let x ← pre.readSource cur src (128 * m)
  let row (i : Nat) : List (Byte × Bool) := (x.bytes.drop (128 * i)).take 128
  .ok { rows := (List.range m).map fun i => rowOf ((row i).map fun b => if b.2 then 0 else b.1)
        scales := [], poison := packN 16 1 16 fun i => BitVec.ofBool (decide (i < m) && (row i).any (·.2))
        groups := x.groups, st := x.st }

/-- What the source of a pass waits for, after the checks on its port (R95). -/
def State.passWait (pre : State) (src : ASel) : Res Unit :=
  match src with
  | .iq n => do
    pre.iqOk n.toNat
    pre.iqWait n.toNat
  | _ => pre.srcWait src

/-- The tile that a pass pops, counted where the pass faults (R238). -/
def ASel.begins : ASel → State → State → State
  | .iq n => State.beginsPop n.toNat
  | _ => fun _ cur => cur

/-- R222 to R225: what the pass waits for, then the checks that are ILLOP, then its source, its bat and its bank groups (R95, R98); a guarded-off
slot raises nothing for its types. [DEDUCED, log 55; DESIGN CHOICE, log 65] -/
def opMma (pg : PReg) (ac : BitVec 4) (bat : Bool) (src : ASel) (rows : BitVec 8) (ta tb : Ty) (set : Bool) : SlotOp :=
  { mxOp pg (srcUses src) (fun pre cur => do
      let b := bat.toNat
      need (pre.me.batIdle b) waiting
      pre.passWait src
      pre.tileOk ac.toNat
      pre.batOk b
      need ((pairClass ta).isSome && pairClass ta == pairClass tb) (illop 0x47)
      need ((pre.me.bat b).fmt == tb.code) (illop 0x40)
      let x ← (match src with
        | .iq n => pre.passFromIq cur n.toNat rows.toNat ta
        | _ => pre.passFromMem cur src rows.toNat : Res PassSource)
      need (!((pre.me.bat b).werr || (pre.me.bat b).serr)) (eccu b 0)
      bgconf (sharedGroup pre.me.fillStreams x.groups)
      .ok (x.st.modMe fun k => { (k.enter (.pass ac.toNat b rows.toNat set ta tb x.rows x.scales x.poison x.groups)) with
        activeBat := bat })) with begins := ASel.begins src }
def execMma (pg : PReg) (ac : BitVec 4) (bat : Bool) (src : ASel) (rows : BitVec 8) (ta tb : Ty) (set : Bool) (s : State) :
    Host.Outcome State Fault Refusal := issue (opMma pg ac bat src rows ta tb set) s

/-! ## Clearing tiles (R226) -/

/-- Clear rows of a tile once every earlier operation on it has completed (R230). -/
def clearTile (pg : PReg) (ac : BitVec 4) (mask : BitVec 16) : SlotOp :=
  mxOp pg Uses.none fun pre cur => do
    pre.tileOk ac.toNat
    need (pre.me.tileIdle ac.toNat) waiting
    .ok (cur.modMe fun k => k.clearRows ac.toNat mask)

/-- R226 -/
def opMacClr (pg : PReg) (ac : BitVec 4) : SlotOp := clearTile pg ac 0xFFFF
def execMacClr (pg : PReg) (ac : BitVec 4) (s : State) : Host.Outcome State Fault Refusal := issue (opMacClr pg ac) s

/-- R226 -/
def opMrows (pg : PReg) (ac : BitVec 4) (mask : BitVec 16) : SlotOp := clearTile pg ac mask
def execMrows (pg : PReg) (ac : BitVec 4) (mask : BitVec 16) (s : State) : Host.Outcome State Fault Refusal :=
  issue (opMrows pg ac mask) s

/-! ## Reading accumulators (R227 to R229) -/

/-- Bytes of an output row. -/
def rowLen (t : Ty) : Nat := 96 * t.width / 8

/-- The ports that a destination names, and its v-register writes in all four clusters (R93). -/
def dstUses (d : DSel) (bytes : Nat) : Uses :=
  match d with
  | .oq n => { Uses.none with oq := [n.toNat] }
  | .v n => { Uses.none with v := (List.range 4).flatMap fun c => (List.range (ceilDiv bytes 2048)).flatMap fun i => vUse c (n.toNat + i) }
  | .slice _ => Uses.none

/-- What a row of a read gives: bytes, scales, poison, CORE.SAT. -/
structure OutRow where
  bytes  : List Byte
  scales : List (BitVec 12)
  poison : Bool
  sat    : Bool

/-- Columns packed at the width of the target (R229). -/
def packRow (t : Ty) (ys : List Lane) : List Byte :=
  bytesOf (rowLen t) (packList (96 * t.width) t.width (ys.map fun y => y.setWidth t.width))

/-- One row of mac.rd (R227). -/
def plainRow (t : Ty) (r : Rnd) (xs : List Num) (poison : Bool) : OutRow :=
  let ys := xs.map fun x => tyRound t r x
  { bytes := packRow t (ys.map (·.1)), scales := []
    poison := poison || (!t.isInt && ys.any fun y => (tyValue t y.1).special), sat := ys.any (·.2) }

/-- One row of mac.rdq (R228). -/
def quantRow (q : Ty) (r : Rnd) (sc : Bool) (xs : List Num) (poison : Bool) : OutRow :=
  let blocks := (List.range 3).map fun b =>
    let x := (xs.drop (32 * b)).take 32
    let s : BitVec 12 × Bool := if sc then blockScale q x else (0x7F0, false)
    (s, x.map fun v => quantElem q r s.1 v)
  let ys := blocks.flatMap (·.2)
  { bytes := packRow q (ys.map (·.1))
    scales := blocks.map (·.1.1) ++ List.replicate (blocksOf q - 3) 0
    poison := poison || (!q.isInt && ys.any fun y => (tyValue q y.1).isNan)
    sat := (blocks.any (·.1.2)) || ys.any (·.2) }

/-- The rows of an accumulator read. -/
def Core.readRows (k : Core) (tile m : Nat) (t : Ty) (r : Rnd) (quant sc : Bool) : List OutRow :=
  let pz := sget 0 k.poison tile
  (List.range m).map fun i =>
    let xs := (List.range 96).map fun n => f128Of (sget 0 k.acc (accKey tile i n))
    if quant then quantRow t r sc xs (pz.getLsbD i) else plainRow t r xs (pz.getLsbD i)

/-- Write output bytes into wide registers from n on, the last filled with zeros (R229). -/
def Core.putWide (k : Core) (n : Nat) (bs : List Byte) : Core :=
  (List.range (ceilDiv bs.length 2048 * 4)).foldl (fun q j =>
    { q with v := sset 0 q.v (vkey (j % 4) (n + j / 4)) (BitVec.ofNat 4096 (leNat ((bs.drop (512 * j)).take 512))) }) k

/-- The tile of a read into an oq (R229). -/
def readTile (t : Ty) (sc : Bool) (charge : BitVec 16) (rows : List OutRow) : Entry :=
  let beats := if sc then scaleBeats (rows.flatMap (·.scales)) else []
  mkTile (mkHead 0 t.code.toNat rows.length (rowLen t) beats.length charge
    (packN 16 1 16 fun i => BitVec.ofBool (rows.getD i ⟨[], [], false, false⟩).poison) 0 0) beats
    (rows.map fun r => rowOf r.bytes)

/-- Complete an accumulator read (R65, R227 to R230). -/
def State.endRead (s : State) (c i : Nat) (o : ArrOp) : State :=
  match o with
  | .read tile dst m t mode quant sc st charge =>
    let rows := (s.core c).readRows tile m t (rmodeOf mode) quant sc
    let bs := rows.flatMap (·.bytes)
    let s1 := s.modCore c fun k =>
      (if rows.any (·.sat) then k.modCtx st fun x => { x with sat := true } else k).leave i
    match dst with
    | .vreg n => s1.modCore c fun k => k.putWide n bs
    | .oq n => s1.fillOut c n (readTile t sc charge rows)
    | .mem pa => s1.store pa bs
  | _ => s

/-- ACC_READ_COMPLETE: read i of the array of core c. -/
def accRead (c i : Nat) (s : State) : Option State :=
  match s.arrReady c i with
  | some o => match o with
    | .read .. => some (s.endRead c i o)
    | _ => none
  | none => none
def execAccReadComplete (c i : Nat) (s : State) : Host.Outcome State Fault Refusal := happen (accRead c i) s

/-- The destination of an accumulator read, checked and claimed (R216, R229); `bad` where the form is one that R228 does not allow, of
which a guarded-off slot raises nothing. [DESIGN CHOICE, log 65] -/
def State.readDst (pre cur : State) (dst : DSel) (m : Nat) (t : Ty) (bad : Bool) : Res (AccDst × State) :=
  match dst with
  | .v n => do
    need (!bad) (illop 0x4F)
    pre.wideOk n.toNat (m * rowLen t)
    .ok (.vreg n.toNat, cur)
  | .slice j => do
    need (!bad) (illop 0x4F)
    let pa ← pre.sliceAddr .st j (m * rowLen t)
    .ok (.mem pa, cur)
  | .oq n => do
    need (!bad && t.width ≤ 8) (illop 0x4F)
    need (pre.oq pre.focus n.toNat).atHead (illop 0x45)
    pre.creditOk n.toNat
    pre.pushRate n.toNat
    .ok (.oq n.toNat, (cur.takeCredit cur.focus n.toNat).modOq cur.focus n.toNat fun x =>
      { x with pushed := x.pushed + 1, outq := x.outq ++ [none] })

/-- What the destination of a read waits for, after the checks on its port (R95, R229). -/
def State.dstWait (pre : State) (dst : DSel) : Res Unit :=
  match dst with
  | .oq n => do
    pre.oqOk n.toNat
    pre.oqWait n.toNat
  | _ => .ok ()

/-- The tile that a read opens, counted where the read faults (R238). -/
def DSel.begins : DSel → State → State → State
  | .oq n => State.beginsPush n.toNat
  | _ => fun _ cur => cur

/-- An accumulator read enters the array; its rounding mode and charge are those at issue. -/
def accReadOp (pg : PReg) (ac : BitVec 4) (dst : DSel) (rows : BitVec 8) (t : Ty) (r : Rnd) (quant sc bad : Bool) : SlotOp :=
  { mxOp pg (dstUses dst (rows.toNat * rowLen t)) (fun pre cur => do
      pre.dstWait dst
      pre.tileOk ac.toNat
      let d ← pre.readDst cur dst rows.toNat t bad
      .ok (d.2.modMe fun k =>
        k.enter (.read ac.toNat d.1 rows.toNat t (pre.rnd r).code quant sc pre.stg pre.ctx.charge))) with
    begins := DSel.begins dst }

/-- R227, R229 -/
def opMacRd (pg : PReg) (ac : BitVec 4) (dst : DSel) (rows : BitVec 8) (t : Ty) (r : Rnd) : SlotOp :=
  accReadOp pg ac dst rows t r false false false
def execMacRd (pg : PReg) (ac : BitVec 4) (dst : DSel) (rows : BitVec 8) (t : Ty) (r : Rnd) (s : State) :
    Host.Outcome State Fault Refusal := issue (opMacRd pg ac dst rows t r) s

/-- The forms of mac.rdq that fault (R228). -/
def rdqBad (dst : DSel) (rows : Nat) (q : Ty) (sc : Bool) : Bool :=
  !q.isQuant || (sc && (q == .f4 && 10 < rows || match dst with
    | .oq _ => false
    | _ => true))

/-- R228, R229 -/
def opMacRdq (pg : PReg) (ac : BitVec 4) (dst : DSel) (rows : BitVec 8) (q : Ty) (r : Rnd) (sc : Bool) : SlotOp :=
  accReadOp pg ac dst rows q r true sc (rdqBad dst rows.toNat q sc)
def execMacRdq (pg : PReg) (ac : BitVec 4) (dst : DSel) (rows : BitVec 8) (q : Ty) (r : Rnd) (sc : Bool) (s : State) :
    Host.Outcome State Fault Refusal := issue (opMacRdq pg ac dst rows q r sc) s

/-! ## Ordering and status (R231, R232) -/

/-- R231 -/
def opMwait (pg : PReg) (ac : BitVec 4) : SlotOp :=
  mxOp pg Uses.none fun pre cur => do
    need (pre.me.tileIdle ac.toNat) waiting
    pre.tileOk ac.toNat
    .ok cur
def execMwait (pg : PReg) (ac : BitVec 4) (s : State) : Host.Outcome State Fault Refusal := issue (opMwait pg ac) s

/-- R232 -/
def opMstat (pg : PReg) (ac : BitVec 4) (vd : BitVec 7) : SlotOp :=
  mxOp pg (dstUses (.v vd) 2048) fun pre cur => do
    need (pre.me.tileIdle ac.toNat && pre.me.batIdle 0 && pre.me.batIdle 1 && !pre.me.vBusy) waiting
    pre.tileOk ac.toNat
    pre.wideOk vd.toNat 2048
    let bs := bytesOf 4 ((sget 0 pre.me.poison ac.toNat).setWidth 32) ++ bytesOf 4 (pre.me.batStatus.setWidth 32)
    .ok (cur.modMe fun k => k.putWide vd.toNat (takeFill 2048 0 bs))
def execMstat (pg : PReg) (ac : BitVec 4) (vd : BitVec 7) (s : State) : Host.Outcome State Fault Refusal :=
  issue (opMstat pg ac vd) s

end Sys2Proof.Machine
end

