-- ==== Sys2Proof/Machine/Remote.lean ====
section
/-! DEFINITION. Remote commands between a core and a package: circuit table entries (spec/17 Table 17.5), the window checks of
a request packet (spec/11 Table 11.3, spec/13 R313 to R315), its application at the target (R265 to R269) and what an
answer does at the requester (R267, R268, R270). -/

namespace Sys2Proof.Machine

/-! ## Circuit table entries (Table 17.5) -/

def Circ.tag (x : Circ) : BitVec 32 := x.w0.extractLsb' 32 32
def Circ.remote (x : Circ) : Byte := x.w0.extractLsb' 24 8
def Circ.owner (x : Circ) : BitVec 4 := x.w0.extractLsb' 16 4
def Circ.world (x : Circ) : Bool := x.w0.getLsbD 15
def Circ.mode (x : Circ) : Nat := fld x.w0.toNat 13 2
/-- 0 STREAM, 1 MEMORY, 2 CONTROL. -/
def Circ.kind (x : Circ) : Nat := fld x.w0.toNat 10 2
/-- 0 port, 1 remote engine, 2 window table and Kiln, 3 hub, 4 relay. -/
def Circ.ends (x : Circ) : Nat := fld x.w0.toNat 7 3
def Circ.link (x : Circ) : Nat := fld x.w0.toNat 0 7
def Circ.keyslot (x : Circ) : Nat := fld x.w1.toNat 56 8
def Circ.res (x : Circ) : Nat := fld x.w1.toNat 40 8
def Circ.bondn (x : Circ) : Nat := fld x.w1.toNat 24 8
def Circ.bondi (x : Circ) : Nat := fld x.w1.toNat 16 8
def Circ.index (x : Circ) : Nat := fld x.w1.toNat 0 4
def Circ.outidx (x : Circ) : Nat := fld x.w2.toNat 40 4
def Circ.outlink (x : Circ) : Nat := fld x.w2.toNat 32 7
def Circ.rv (x : Circ) : Bool := x.w2.getLsbD 28
def Circ.riq (x : Circ) : Nat := fld x.w2.toNat 24 4
def Circ.port (x : Circ) : Nat := fld x.w2.toNat 16 5
/-- The core that an entry names: bit 9 a hub core (R276). -/
def Circ.core (x : Circ) : Nat :=
  if x.w2.getLsbD 9 then 512 + fld x.w2.toNat 0 3 else fld x.w2.toNat 0 9

/-- The circuit id of a link and an index (R378). -/
def circId (link index : Nat) : Nat := link * 16 + index

/-- The MEMORY circuit of core c to a package (R264). -/
def State.memCirc (s : State) (c : Nat) (pkg : Byte) : Option (Nat × Circ) :=
  s.circs.find? fun e => e.2.state != .free && e.2.kind == 1 && e.2.ends == 1 && e.2.core == c && e.2.remote == pkg

/-! ## The window checks (Table 11.3, R313, R314) -/

/-- The right a request needs. -/
inductive Right where
  | rd | wr | at_
  deriving DecidableEq, Repr

def Window.has (w : Window) : Right → Bool
  | .rd => w.rd
  | .wr => w.wr
  | .at_ => w.at_

/-- Fields of a domain address (R264). -/
def daPkg (da : Word) : Byte := da.extractLsb' 48 8
def daWin (da : Word) : Nat := fld da.toNat 40 8
def daOff (da : Word) : Nat := fld da.toNat 0 40

/-- Answer codes (Table 17.8). -/
def codeOk : Byte := 0
def codeRange : Byte := 5
def codeEcc : Byte := 6
def codeUnmatched : Byte := 7
/-- Not a code of Table 17.8: the circuit failed before the answer (R381). -/
def codeFailed : Byte := 0x80

/-- The first failing check of a request for n bytes at an offset of a window, or the physical address. -/
def State.accessWin (s : State) (w off n : Nat) (r : Right) (owner : BitVec 4) (world : Bool) : Byte × Nat :=
  let x := s.win w
  if x.state = .free then (1, 0)
  else if x.state = .revoking then (2, 0)
  else if owner != x.owner || (x.world && !world) then (3, 0)
  else if !x.has r then (4, 0)
  else if x.size.toNat * 65536 < off + n || inLogbook (x.base.toNat * 65536 + off) n then (5, 0)
  else (0, x.base.toNat * 65536 + off)

/-! ## Applying a request at its target -/

/-- The value that a ramo stores; none when a cas fails (R268). -/
def ramoNew (op : RamoOp) (size : Nat) (old x c : Nat) : Option Nat :=
  let s (v : Nat) : Int := (BitVec.ofNat (8 * size) v).toInt
  match op with
  | .add => some ((old + x) % 2 ^ (8 * size))
  | .min => some (if s x < s old then x else old)
  | .max => some (if s old < s x then x else old)
  | .swap => some x
  | .cas => if old = c then some x else none

/-- A flag add that arrived in a packet: an overflow is logged on the core that holds the flag (R256, R269).
[DESIGN CHOICE, log 14] -/
def State.foreignAdd (s : State) (c i : Nat) (n : Int) : State :=
  let f := Config.foreignLog s.logSeq.toNat
  s.addFlag c i n false (f % 8) (BitVec.ofNat 16 (f / 8)) (BitVec.ofNat 40 (f / 2 ^ 19))

/-- What applying a packet gives: the answer code, the data of the answer, the state. -/
structure Applied where
  code : Byte
  data : List Byte
  st   : State

/-- WRITE (R266). -/
def State.applyWrite (s : State) (da : Word) (off : Nat) (bs : List Byte) (owner : BitVec 4) (world : Bool) : Applied :=
  let r := s.accessWin (daWin da) (daOff da + off) bs.length .wr owner world
  if r.1 = 0 then ⟨0, [], s.store r.2 bs⟩ else ⟨r.1, [], s⟩

/-- READ (R267); an uncorrectable error answers ECC. -/
def State.applyRead (s : State) (da : Word) (off n : Nat) (owner : BitVec 4) (world : Bool) : Applied :=
  let r := s.accessWin (daWin da) (daOff da + off) n .rd owner world
  if r.1 = 0 then (if s.badIn r.2 n then ⟨codeEcc, [], s⟩ else ⟨0, s.bytes r.2 n, s⟩) else ⟨r.1, [], s⟩

/-- ATOMIC (R268, Table 13.3); a request not aligned to its size is one with a bad field. -/
def State.applyAtomic (s : State) (da : Word) (op : RamoOp) (wide : Bool) (x c : Word) (owner : BitVec 4) (world : Bool) :
    Applied :=
  let size := if wide then 8 else 4
  let r := s.accessWin (daWin da) (daOff da) size .at_ owner world
  if r.1 != 0 then ⟨r.1, [], s⟩
  else if daOff da % size != 0 then ⟨codeRange, [], s⟩
  else if s.badIn r.2 size then ⟨codeEcc, [], s⟩
  else
    let old := s.load r.2 size
    let bytes (v : Nat) := bytesOf size (BitVec.ofNat 64 v)
    match ramoNew op size old (x.toNat % 2 ^ (8 * size)) (c.toNat % 2 ^ (8 * size)) with
    | some v => ⟨0, bytes old, s.store r.2 (bytes v)⟩
    | none => ⟨0, bytes old, s⟩

/-- FLAG and FENCE: the core whose slice holds the byte; hub SRAM is refused RANGE (R269, R315). -/
def State.applyFlag (s : State) (da : Word) (cf : Nat) (addend : BitVec 32) (owner : BitVec 4) (world : Bool) : Applied :=
  let r := s.accessWin (daWin da) (daOff da) 1 .at_ owner world
  if r.1 != 0 then ⟨r.1, [], s⟩
  else if rangeOf r.2 != .slice then ⟨codeRange, [], s⟩
  else ⟨0, [], s.foreignAdd (sliceOf r.2) cf addend.toInt⟩

/-! ## Pieces of a range and of a command (R265, R384) -/

/-- A range cut at the multiples of b: offset from the start, and length, of each piece. -/
def pieces (b start len : Nat) : List (Nat × Nat) :=
  if len = 0 then []
  else (List.range (ceilDiv (start % b + len) b)).map fun i =>
    let lo := if i = 0 then 0 else i * b - start % b
    (lo, min len ((i + 1) * b - start % b) - lo)

/-- The packets of a command: offset and length; for rld.iq cut at its tiles too (R267). -/
def Remote.pieces (r : Remote) : List (Nat × Nat) :=
  match r.kind with
  | .rst | .rld => Machine.pieces 64 (daOff r.da) r.len
  | .rldIq => (Machine.pieces 2048 0 r.len).flatMap fun t =>
      (Machine.pieces 64 (daOff r.da + t.1) t.2).map fun p => (t.1 + p.1, p.2)
  | .kret => Machine.pieces 64 0 r.len
  | .ramo | .rcfAdd | .fenceF => [(0, r.len)]

/-- The packets not sent yet, in order. -/
def Remote.unsent (r : Remote) : List (Nat × Nat) := r.pieces.filter fun p => decide (r.sent ≤ p.1)

/-- Every packet has been sent and answered, and every tile delivered (R255). -/
def Remote.finished (r : Remote) : Bool :=
  r.unsent.isEmpty && r.out.isEmpty && (r.kind != .rldIq || decide (r.len ≤ r.given))

/-! ## Answers at the requester (R267, R268, R270) -/

/-- A failing answer that the logbook reports: not the ECC of an rld (Table 13.3), not UNMATCHED (R279). [DEDUCED, log 30] -/
def reported (k : RemKind) (code : Byte) : Bool :=
  !(code == codeEcc && (k == .rld || k == .rldIq)) && !(code == codeUnmatched)

/-- Keep the failing answer with the lowest offset. -/
def lowestBad (x : Option (Nat × Byte)) (off : Nat) (code : Byte) : Option (Nat × Byte) :=
  match x with
  | some (o, c) => if off < o then some (off, code) else some (o, c)
  | none => some (off, code)

/-- Command `id` of core c, changed. -/
def Core.modCmd (k : Core) (id : Nat) (f : EngCmd → EngCmd) : Core :=
  { k with eng := k.eng.map fun e => if e.id = id then f e else e }

/-- Enter the bytes of a reply. -/
def putReply (m : Store Byte) (off : Nat) : List Byte → Store Byte
  | [] => m
  | b :: t => putReply (sset 0 m off b) (off + 1) t

/-- A command's record of the answer to its packet of n bytes at an offset. [DEDUCED, log 30] -/
def Remote.answered (r : Remote) (off n : Nat) (code : Byte) (data : List Byte) : Remote :=
  let r1 := { r with out := r.out.filter fun p => p.off != off }
  if code = 0 then (if r.kind = .rldIq then { r1 with reply := putReply r.reply off data } else r1)
  else
    { r1 with
      bad := if reported r.kind code then lowestBad r.bad off code else r.bad
      badOffs := if r.kind = .rldIq then r.badOffs ++ [(off, n)] else r.badOffs }

/-- The answer to a packet of command `id` of core c: local effects, and the command's record. -/
def State.answer (s : State) (c id off n : Nat) (code : Byte) (data : List Byte) : State :=
  match (s.core c).eng.find? fun e => e.id == id with
  | some e =>
    match e.op with
    | .remote r =>
      let s1 := if code = 0 && (r.kind == .rld || r.kind == .ramo) then s.store (r.pa + off) data else s
      s1.modCore c fun k => k.modCmd id fun x =>
        { x with err := x.err || code != 0, op := .remote (r.answered off n code data) }
    | _ => s
  | none => s

/-- The logbook entry of a command with a failing answer (R270); its ADDR is 0, also where the cause is SEGV, since a remote command has no
effective address at its target. [DEDUCED, log 30; DESIGN CHOICE, log 70] -/
def State.reportRemote (s : State) (c : Nat) (e : EngCmd) (r : Remote) : State :=
  match r.bad with
  | none => s
  | some (_, code) =>
    let k := s.core c
    let cause := if code = 2 then 0x0B else if code = codeFailed then 0x0C else 0x03
    let shown := if code = codeFailed then 0 else code.toNat
    s.log cause 5 e.stage k.ctxWorld k.ctxOwner (logNum c) e.charge e.pc.toNat (2 ^ 31 + r.pkg.toNat <<< 8 + shown) 0

/-- Every packet of core c's commands to a package that has no answer counts as answered CIRCFAIL (R270, R381).
[DEDUCED, log 33] -/
def State.failRemote (s : State) (c : Nat) (pkg : Byte) : State :=
  s.modCore c fun k => { k with eng := k.eng.map fun e =>
    match e.op with
    | .remote r =>
      if r.pkg = pkg && !(r.unsent.isEmpty && r.out.isEmpty) then
        let lost := r.unsent ++ r.out.map fun p => (p.off, p.len)
        let r1 := lost.foldl (fun q p => q.answered p.1 p.2 codeFailed []) r
        { e with err := true, op := .remote { r1 with sent := r.len + 1 } }
      else e
    | _ => e }

end Sys2Proof.Machine
end

