-- ==== Sys2Proof/Machine/Engine.lean ====
section
/-! DEFINITION. The copy and remote engines (spec/11): local checks of a command, the commands themselves, dx.drain, cf.add and the
fences, and the completion of what has entered an engine. -/

namespace Sys2Proof.Machine

/-- An operation of the EN form: guarded by a predicate, not in a split stream (R83, R92). -/
def enOp (legal : Legal) (level : Nat) (pg : PReg) (uses : Uses) (fx : State → State → Res State) : SlotOp :=
  { slot := .x, guard := { pg := pg, neg := false }, legal := legal, level := level, splitOk := false,
    static := fun _ => none, uses := fun _ => uses, early := false
    fx := fun pre cur => do
      let s ← fx pre cur
      .ok (s, .seq) }

/-- An engine command, legal on both kinds of core. -/
def dxOp (pg : PReg) (fx : State → State → Res State) : SlotOp := enOp .both 0 pg Uses.none fx

/-! ## Local checks (R253, R254) -/

/-- The flag is assigned to the firing stage; a hub core's flags are its one stage's (R41, R253). [DEDUCED, log 15] -/
def State.flagOk (s : State) (cf : BitVec 6) : Res Unit :=
  need (s.hub || (s.me.flag cf.toNat).owner == some s.stg) (illop 0x51)

/-- A length operand (R253). -/
def lenOk (x : Word) : Res Nat := if 2 ^ 31 ≤ x.toNat then illop 0x53 else .ok x.toNat

/-- A local range of an engine command; an empty one is not checked (R254, R255). -/
def State.range (s : State) (a : Access) (x : Word) (align len : Nat) : Res Nat :=
  if len = 0 then .ok 0 else s.tr a x align len

/-- Two ranges share a byte. -/
def overlap (a n b m : Nat) : Bool := decide (0 < n) && decide (0 < m) && decide (a < b + m) && decide (b < a + n)

/-- ILLOP 0x52 where ranges overlap. -/
def apart (bad : Bool) : Res Unit := need (!bad) (illop 0x52)

/-- Where an operand lies, whatever rights its segment gives; none where nothing is mapped. -/
def State.spot (s : State) (x : Word) : Option Nat :=
  let d := s.me.segment (x.toNat / 2 ^ 36)
  if 2 ^ 40 ≤ x.toNat || segLimit d * 65536 ≤ x.toNat % 2 ^ 36 then none else some (segBase d * 65536 + x.toNat % 2 ^ 36)

/-- Two ranges of operands share a byte, also where one of them faults (R98). -/
def State.meet (s : State) (x : Word) (n : Nat) (y : Word) (m : Nat) : Bool :=
  match s.spot x, s.spot y with
  | some a, some b => overlap a n b m
  | _, _ => false

/-- A command enters an engine at the commit of its bundle (R99); what it names is fixed (R254). -/
def State.enter (s pre : State) (eng : Nat) (flag : Option Nat) (op : EngOp) : State :=
  s.modMe fun k =>
    { k with
      eng := k.eng ++ [{ id := k.nextId, eng := eng, stage := pre.stg, pc := pre.pc, charge := pre.ctx.charge, flag := flag,
                         err := false, op := op }]
      nextId := k.nextId + 1 }

/-! ## Copies (R258 to R261) -/

/-- R258 -/
def opDxCopy (pg : PReg) (cf : BitVec 6) (ga gb gc : GReg) : SlotOp :=
  dxOp pg fun pre cur => do
    pre.flagOk cf
    let n ← lenOk (pre.g gc)
    apart (pre.meet (pre.g ga) n (pre.g gb) n)
    let dst ← pre.range .engWr (pre.g ga) 1 n
    let src ← pre.range .engRd (pre.g gb) 1 n
    .ok (cur.enter pre 0 (some cf.toNat) (.copy dst src n))
def execDxCopy (pg : PReg) (cf : BitVec 6) (ga gb gc : GReg) (s : State) : Host.Outcome State Fault Refusal :=
  issue (opDxCopy pg cf ga gb gc) s

/-- A pattern record: element size and, per dimension, length and strides (Table 11.2). -/
structure Pattern where
  elem : Nat
  dims : List (Nat × Int × Int)
  bad  : Bool

/-- Read a pattern record from its bytes. -/
def patternOf (bs : List Byte) : Pattern :=
  let n := leAt bs 0 4
  let w (o : Nat) : Int := (BitVec.ofNat 32 (leAt bs o 4)).toInt
  let dims := (List.range (min n 14)).map fun d => (leAt bs (16 + 12 * d) 4, w (20 + 12 * d), w (24 + 12 * d))
  let e := leAt bs 4 4
  { elem := e, dims := dims
    bad := n == 0 || decide (14 < n) || e == 0 || decide (4096 < e) || leAt bs 8 8 != 0 ||
      decide (2 ^ 31 ≤ dims.foldl (fun t d => t * d.1) e) }

/-- Bytes that a pattern moves. -/
def Pattern.total (p : Pattern) : Nat := p.dims.foldl (fun t d => t * d.1) p.elem

/-- Lowest offset of an element under strides, and the bytes from it to the end of the highest. -/
def hull (elem : Nat) (l : List (Nat × Int)) : Int × Nat :=
  let lo : Int := l.foldl (fun a d => a + if d.2 < 0 then (d.1 - 1 : Int) * d.2 else 0) 0
  let hi : Int := l.foldl (fun a d => a + if d.2 < 0 then 0 else (d.1 - 1 : Int) * d.2) 0
  (lo, (hi - lo).toNat + elem)

/-- The record at an address, read by the bundle: 16 + 12 x NDIM bytes (R259). The entry of an ECCU it meets names the record's EA as
ADDR, as a load's does. [DEDUCED, log 29] -/
def State.readPattern (pre cur : State) (x : Word) : Res Pattern := do
  let pa ← pre.tr .engRd x 64 16
  let n := cur.load pa 4
  let len := 16 + 12 * (if 1 ≤ n && n ≤ 14 then n else 0)
  let _ ← pre.tr .engRd x 64 len
  need (!cur.badIn pa len) (eccu 0 (fld x.toNat 0 40))
  let p := patternOf (cur.bytes pa len)
  need (!p.bad) (illop 0x53)
  .ok p

/-- R259 -/
def opDxPat (pg : PReg) (cf : BitVec 6) (ga gb gc : GReg) : SlotOp :=
  dxOp pg fun pre cur => do
    pre.flagOk cf
    let p ← pre.readPattern cur (pre.g gc)
    if p.total = 0 then .ok (cur.enter pre 0 (some cf.toNat) (.count 0))
    else do
      let hs := hull p.elem (p.dims.map fun d => (d.1, d.2.1))
      let hd := hull p.elem (p.dims.map fun d => (d.1, d.2.2))
      let from_ := pre.g gb + BitVec.ofInt 64 hs.1
      let into := pre.g ga + BitVec.ofInt 64 hd.1
      apart (pre.meet from_ hs.2 into hd.2)
      let src ← pre.tr .engRd from_ 1 hs.2
      let dst ← pre.tr .engWr into 1 hd.2
      .ok (cur.enter pre 0 (some cf.toNat) (.pat (dst - hd.1) (src - hs.1) p.elem p.dims))
def execDxPat (pg : PReg) (cf : BitVec 6) (ga gb gc : GReg) (s : State) : Host.Outcome State Fault Refusal :=
  issue (opDxPat pg cf ga gb gc) s

/-- The entries of a page list (R260). -/
def pageList (bs : List Byte) (n : Nat) : List Nat := (List.range n).map fun j => leAt bs (4 * j) 4

/-- Frame and slot operands of each entry that is not skipped. -/
def frameOps (base buf : Word) (size : Nat) (l : List Nat) : List (Word × Word) :=
  ((List.range l.length).filter fun j => !(l.getD j 0).testBit 31).map fun j =>
    (base + BitVec.ofNat 64 (l.getD j 0 % 2 ^ 20 * size), buf + BitVec.ofNat 64 (j * size))

/-- Their physical addresses. -/
def State.frames (s : State) (fa sa : Access) (size : Nat) (l : List (Word × Word)) : Res (List (Nat × Nat)) :=
  l.mapM fun x => do
    let f ← s.tr fa x.1 1 size
    let b ← s.tr sa x.2 1 size
    .ok (f, b)

/-- What dx.gat and dx.sct check before their frames: flag, fields, list (R260). fsh and n are in the encoding, but Table 11.5 lists
their faults as run-time: a guarded-off slot raises none of them (R79, R83). The list's EA is the ADDR of an ECCU.
[DEDUCED, log 29; DESIGN CHOICE, log 65] -/
def State.pageOperands (pre cur : State) (cf : BitVec 6) (x : Word) (fsh : BitVec 5) (n : BitVec 9) : Res (Nat × List Nat) := do
  pre.flagOk cf
  need (6 ≤ fsh.toNat && fsh.toNat ≤ 20 && n.toNat ≤ 256) (illop 0x53)
  let pa ← pre.range .engRd x 4 (4 * n.toNat)
  need (n = 0 || !cur.badIn pa (4 * n.toNat)) (eccu 0 (fld x.toNat 0 40))
  let l := pageList (cur.bytes pa (4 * n.toNat)) n.toNat
  need (l.all fun e => fld e 20 11 == 0) (illop 0x53)
  .ok (pa, l)

/-- R260 -/
def opDxGat (pg : PReg) (cf : BitVec 6) (ga gb gc : GReg) (fsh : BitVec 5) (n : BitVec 9) : SlotOp :=
  dxOp pg fun pre cur => do
    let l ← pre.pageOperands cur cf (pre.g gc) fsh n
    let size := 2 ^ fsh.toNat
    let ops := frameOps (pre.g gb) (pre.g ga) size l.2
    apart (ops.any fun x => pre.meet x.2 size (pre.g gc) (4 * n.toNat))
    let m ← pre.frames .engRd .engWr size ops
    .ok (cur.enter pre 0 (some cf.toNat) (.frames (m.map fun x => (x.2, x.1)) size))
def execDxGat (pg : PReg) (cf : BitVec 6) (ga gb gc : GReg) (fsh : BitVec 5) (n : BitVec 9) (s : State) :
    Host.Outcome State Fault Refusal := issue (opDxGat pg cf ga gb gc fsh n) s

/-- R260 -/
def opDxSct (pg : PReg) (cf : BitVec 6) (ga gb gc : GReg) (fsh : BitVec 5) (n : BitVec 9) : SlotOp :=
  dxOp pg fun pre cur => do
    let l ← pre.pageOperands cur cf (pre.g gc) fsh n
    let size := 2 ^ fsh.toNat
    let ops := frameOps (pre.g ga) (pre.g gb) size l.2
    apart (ops.any fun x => ops.any fun y => pre.meet x.1 size y.2 size)
    let m ← pre.frames .engWr .engRd size ops
    .ok (cur.enter pre 0 (some cf.toNat) (.frames m size))
def execDxSct (pg : PReg) (cf : BitVec 6) (ga gb gc : GReg) (fsh : BitVec 5) (n : BitVec 9) (s : State) :
    Host.Outcome State Fault Refusal := issue (opDxSct pg cf ga gb gc fsh n) s

/-- The source of a dx.stream: its physical address (R261). A striped one in hub SRAM, or whose parts run past a bank group, is one like
any other where its segment holds it. [DESIGN CHOICE, log 69] -/
def State.streamSource (s : State) (x : Word) (n : Nat) (bg8 : Bool) : Res Nat :=
  if n = 0 then .ok 0
  else if bg8 then
    if n % 2048 != 0 then alignFault (fld x.toNat 0 40)
    else do
      let pa ← s.tr .engRd x 256 (7 * 0x800000 + n / 8)
      need (pa % 0x4000000 / 0x800000 = 0) (alignFault (fld x.toNat 0 40))
      .ok pa
  else if n % 64 != 0 then alignFault (fld x.toNat 0 40)
  else s.tr .engRd x 64 n

/-- R261 -/
def opDxStream (pg : PReg) (cf : BitVec 6) (ga gb : GReg) (sp : BitVec 2) (bg8 : Bool) : SlotOp :=
  enOp .cmp 0 pg { Uses.none with sp := [sp.toNat] } fun pre cur => do
    pre.flagOk cf
    let n ← lenOk (pre.g gb)
    need (!(pre.me.port sp.toNat).isOpen) (illop 0x54)
    let pa ← pre.streamSource (pre.g ga) n bg8
    if n = 0 then .ok (cur.enter pre 0 (some cf.toNat) (.count 0))
    else .ok (cur.modMe fun k =>
      { k with
        sp := sset StreamPort.reset k.sp sp.toNat
          { isOpen := true, base := pa, striped := bg8, len := n, left := n, flag := cf.toNat, stage := pre.stg, pc := pre.pc,
            charge := pre.ctx.charge, order := k.nextId, old := cur.sourceBytes pa n bg8 }
        nextId := k.nextId + 1 })
def execDxStream (pg : PReg) (cf : BitVec 6) (ga gb : GReg) (sp : BitVec 2) (bg8 : Bool) (s : State) :
    Host.Outcome State Fault Refusal := issue (opDxStream pg cf ga gb sp bg8) s

/-! ## dx.drain, cf.add, fences -/

/-- R262 -/
def opDxDrain (pg : PReg) : SlotOp :=
  dxOp pg fun pre cur => do
    need (pre.me.rqFree 0) waiting
    let r := cur.reserve 0
    .ok (r.1.enter pre 0 none (.drain r.2))
def execDxDrain (pg : PReg) (s : State) : Host.Outcome State Fault Refusal := issue (opDxDrain pg) s

/-- A dx.drain of the firing stage is not satisfied (R262). -/
def State.drainHeld (s : State) : Bool :=
  s.me.eng.any fun e => e.stage == s.stg && match e.op with
    | .drain _ => true
    | _ => false

/-- R263: the add lands before the next bundle; behind a dx.drain it waits its turn (R262) -/
def opCfAdd (pg : PReg) (cf : BitVec 6) (imm : BitVec 32) : SlotOp :=
  dxOp pg fun pre cur => do
    pre.flagOk cf
    need (!flagOver ((pre.me.flag cf.toNat).value.toInt + imm.toInt)) (faultWith 0x09 cf.toNat)
    .ok (if pre.drainHeld then cur.enter pre 0 (some cf.toNat) (.addFlag imm)
      else cur.modMe fun k => k.modFlag cf.toNat fun f => f.add imm.toInt false)
def execCfAdd (pg : PReg) (cf : BitVec 6) (imm : BitVec 32) (s : State) : Host.Outcome State Fault Refusal :=
  issue (opCfAdd pg cf imm) s

/-- A fence: every earlier store of the core has been performed, since stores reach memory at their commit (R271, log 2).
[DESIGN CHOICE, log 2] -/
def fenceOp (pg : PReg) : SlotOp := dxOp pg fun _ cur => .ok cur

/-- R271 -/
def opFenceCore (pg : PReg) : SlotOp := fenceOp pg
def execFenceCore (pg : PReg) (s : State) : Host.Outcome State Fault Refusal := issue (opFenceCore pg) s

/-- R271 -/
def opFencePkg (pg : PReg) : SlotOp := fenceOp pg
def execFencePkg (pg : PReg) (s : State) : Host.Outcome State Fault Refusal := issue (opFencePkg pg) s

/-- R271 -/
def opFenceDom (pg : PReg) : SlotOp := fenceOp pg
def execFenceDom (pg : PReg) (s : State) : Host.Outcome State Fault Refusal := issue (opFenceDom pg) s

/-! ## Remote commands (R264, R266 to R269) -/

/-- The target package of a domain address: the core's MEMORY circuit to it, the address's form, the circuit not FAILED (R98,
R264). A domain address is no effective address: the entry of a SEGV or ALIGN of one names its low 40 bits as ADDR.
[DESIGN CHOICE, log 70] -/
def State.target (s : State) (da : Word) : Res Byte := do
  let p := daPkg da
  let x := s.memCirc s.focus p
  need (p == s.pkgNo || x.isSome) (illop 0x50)
  need (decide (da.toNat < 2 ^ 56)) (segv 1 (fld da.toNat 0 40))
  need (p == s.pkgNo || !(x.any fun y => y.2.state == .failed)) (faultWith 0x0C (2 ^ 31 + p.toNat <<< 8))
  .ok p

/-- A remote command before anything of it is sent. -/
def remoteCmd (kind : RemKind) (pkg : Byte) (da : Word) (len pa : Nat) : Remote :=
  { kind := kind, pkg := pkg, da := da, len := len, pa := pa, iqCore := 0, iqPort := 0, op := .add, wide := false, opnd := 0,
    cmp := 0, cf := 0, inst := 0, sent := 0, out := [], bad := none, badOffs := [], reply := [], given := 0 }

/-- R266 -/
def opRst (pg : PReg) (cf : BitVec 6) (ga gb gc : GReg) : SlotOp :=
  dxOp pg fun pre cur => do
    pre.flagOk cf
    let n ← lenOk (pre.g gc)
    let p ← pre.target (pre.g ga)
    let pa ← pre.range .engRd (pre.g gb) 1 n
    .ok (cur.enter pre 1 (some cf.toNat) (if n = 0 then .count 0 else .remote (remoteCmd .rst p (pre.g ga) n pa)))
def execRst (pg : PReg) (cf : BitVec 6) (ga gb gc : GReg) (s : State) : Host.Outcome State Fault Refusal :=
  issue (opRst pg cf ga gb gc) s

/-- R267, local form -/
def opRld (pg : PReg) (cf : BitVec 6) (ga gb gc : GReg) : SlotOp :=
  dxOp pg fun pre cur => do
    pre.flagOk cf
    let n ← lenOk (pre.g gc)
    let p ← pre.target (pre.g gb)
    let pa ← pre.range .engWr (pre.g ga) 1 n
    .ok (cur.enter pre 1 (some cf.toNat) (if n = 0 then .count 0 else .remote (remoteCmd .rld p (pre.g gb) n pa)))
def execRld (pg : PReg) (cf : BitVec 6) (ga gb gc : GReg) (s : State) : Host.Outcome State Fault Refusal :=
  issue (opRld pg cf ga gb gc) s

/-- R267, queue form. The port that g(D) names is no named port of its slot (R93). [DESIGN CHOICE, log 66] -/
def opRldIq (pg : PReg) (cf : BitVec 6) (ga gb gc : GReg) : SlotOp :=
  dxOp pg fun pre cur => do
    pre.flagOk cf
    let n ← lenOk (pre.g gc)
    let d := (pre.g ga).toNat
    need (d == fld d 0 9 + fld d 16 4 <<< 16 && fld d 0 9 ≤ 287) (illop 0x53)
    need ((pre.iq (fld d 0 9) (fld d 16 4)).bind == .reply pre.focus) (illop 0x50)
    let p ← pre.target (pre.g gb)
    .ok (cur.enter pre 1 (some cf.toNat) (if n = 0 then .count 0
      else .remote { remoteCmd .rldIq p (pre.g gb) n 0 with iqCore := fld d 0 9, iqPort := fld d 16 4 }))
def execRldIq (pg : PReg) (cf : BitVec 6) (ga gb gc : GReg) (s : State) : Host.Outcome State Fault Refusal :=
  issue (opRldIq pg cf ga gb gc) s

/-- R268: the compare value of a cas is read at issue; an ECCU there has the consumer's EA as ADDR [DEDUCED, log 29] -/
def opRamo (pg : PReg) (cf : BitVec 6) (ga gb gc : GReg) (op : RamoOp) (wide : Bool) : SlotOp :=
  dxOp pg fun pre cur => do
    pre.flagOk cf
    let size := if wide then 8 else 4
    let p ← pre.target (pre.g gb)
    need (daOff (pre.g gb) % size = 0) (alignFault (daOff (pre.g gb)))
    let pa ← pre.tr .engRw (pre.g ga) size size
    need (op != .cas || !cur.badIn pa size) (eccu 0 (fld (pre.g ga).toNat 0 40))
    .ok (cur.enter pre 1 (some cf.toNat) (.remote { remoteCmd .ramo p (pre.g gb) size pa with
      op := op, wide := wide, opnd := pre.g gc, cmp := if op = .cas then BitVec.ofNat 64 (cur.load pa size) else 0 }))
def execRamo (pg : PReg) (cf : BitVec 6) (ga gb gc : GReg) (op : RamoOp) (wide : Bool) (s : State) :
    Host.Outcome State Fault Refusal := issue (opRamo pg cf ga gb gc op wide) s

/-- A flag add at the target (R269). A guarded-off slot raises nothing for cf below 32. [DESIGN CHOICE, log 65] -/
def remoteAdd (kind : RemKind) (pg : PReg) (cf : BitVec 6) (ga gb : GReg) : SlotOp :=
  dxOp pg fun pre cur => do
    need (32 ≤ cf.toNat) (illop 0x55)
    let p ← pre.target (pre.g ga)
    .ok (cur.enter pre 1 none (.remote { remoteCmd kind p (pre.g ga) 1 0 with opnd := pre.g gb, cf := cf.toNat }))

/-- R269 -/
def opRcfAdd (pg : PReg) (cf : BitVec 6) (ga gb : GReg) : SlotOp := remoteAdd .rcfAdd pg cf ga gb
def execRcfAdd (pg : PReg) (cf : BitVec 6) (ga gb : GReg) (s : State) : Host.Outcome State Fault Refusal :=
  issue (opRcfAdd pg cf ga gb) s

/-- R269 -/
def opFenceF (pg : PReg) (cf : BitVec 6) (ga gb : GReg) : SlotOp := remoteAdd .fenceF pg cf ga gb
def execFenceF (pg : PReg) (cf : BitVec 6) (ga gb : GReg) (s : State) : Host.Outcome State Fault Refusal :=
  issue (opFenceF pg cf ga gb) s

/-! ## Moving bytes (R258 to R260) -/

/-- Runs of consecutive good pieces: offset and length. -/
def goodRuns : List (Nat × Nat × Bool) → List (Nat × Nat)
  | [] => []
  | (o, n, good) :: t =>
    if good then
      match goodRuns t with
      | (o2, m) :: r => if o + n = o2 then (o, n + m) :: r else (o, n) :: (o2, m) :: r
      | [] => [(o, n)]
    else goodRuns t

/-- The beats of a source, each with whether it can be read (R258). -/
def State.sourceBeats (s : State) (src len : Nat) : List (Nat × Nat × Bool) :=
  (pieces 64 src len).map fun p => (p.1, p.2, !s.badIn (src + p.1) p.2)

/-- Copy bytes; a source beat with an uncorrectable error leaves its destination bytes unwritten (R258).
[DESIGN CHOICE, log 32] -/
def State.copyBytes (s : State) (src dst len : Nat) : State × Bool :=
  let ps := s.sourceBeats src len
  ((goodRuns ps).foldl (fun t p => t.store (dst + p.1) (s.bytes (src + p.1) p.2)) s, ps.any fun p => !p.2.2)

/-- Source and destination offsets of every element, in ascending order of the index vector, i0 fastest (R259). -/
def patOffsets : List (Nat × Int × Int) → List (Int × Int)
  | [] => [(0, 0)]
  | (n, ss, ds) :: t =>
    (patOffsets t).flatMap fun o => (List.range n).map fun (i : Nat) => (o.1 + (i : Int) * ss, o.2 + (i : Int) * ds)

/-- Copy a list of ranges (source, destination) of one length, in order. [DESIGN CHOICE, log 32] -/
def State.copyAll (s : State) (l : List (Nat × Nat)) (len : Nat) : State × Bool :=
  l.foldl (fun a m => let r := a.1.copyBytes m.1 m.2 len; (r.1, a.2 || r.2)) (s, false)

/-! ## Completion (R255, R262) -/

def EngOp.isDrain : EngOp → Bool
  | .drain _ => true
  | _ => false

/-- A command that has begun: no dx.drain of its stage stands before it (R262); the system engine is not ordered so. -/
def Core.begun (k : Core) (i : Nat) : Option EngCmd :=
  match k.eng[i]? with
  | some e => if decide (e.eng < 2) && (k.eng.take i).any (fun d => d.op.isDrain && d.stage == e.stage) then none else some e
  | none => none

/-- No remote command to the same package stands before command i: they leave in issue order (R264). [DEDUCED, log 31] -/
def Core.firstTo (k : Core) (i : Nat) (pkg : Byte) : Bool :=
  (k.eng.take i).all fun e => match e.op with
    | .remote r => r.pkg != pkg || r.unsent.isEmpty
    | _ => true

/-- A command ends: it leaves its engine, its count is added once to its flag, an error is kept for the next drain. -/
def State.endCmd (s : State) (c : Nat) (e : EngCmd) (n : Int) (err : Bool) : State :=
  let ovf := match e.flag with
    | some f => flagOver (((s.core c).flag f).value.toInt + n)
    | none => false
  let s1 := s.modCore c fun k =>
    let k1 := { k with eng := k.eng.filter fun x => x.id != e.id }
    if (err || ovf) && decide (e.eng < 2) then k1.modStage e.stage fun x => { x with drainErr := true } else k1
  match e.flag with
  | some f => (s1.addFlag c f n err e.stage e.charge e.pc).settleHaltq c 9
  | none => s1.settleHaltq c 9

/-- Apply one packet of a command to the core's own package, with the owner and world that CORE.CTX has when the packet is served (R264,
R314). [DESIGN CHOICE, log 71] -/
def State.applyOwn (s : State) (c : Nat) (r : Remote) (off n : Nat) : Applied :=
  let o := (s.core c).ctxOwner
  let w := (s.core c).ctxWorld
  match r.kind with
  | .rst => s.applyWrite r.da off (s.bytes (r.pa + off) n) o w
  | .rld | .rldIq => s.applyRead r.da off n o w
  | .ramo => s.applyAtomic r.da r.op r.wide r.opnd r.cmp o w
  | .rcfAdd | .fenceF => s.applyFlag r.da r.cf (r.opnd.setWidth 32) o w
  | .kret => ⟨0, [], s⟩

/-- A packet whose source holds an uncorrectable error is not sent (Table 13.3). -/
def State.spoiled (s : State) (r : Remote) (off n : Nat) : Bool := r.kind == .rst && s.badIn (r.pa + off) n

/-- Command `id` keeps that an unsent packet was spoiled, or that a packet was sent. -/
def State.markSent (s : State) (c id off : Nat) (err : Bool) : State :=
  s.modCore c fun k => k.modCmd id fun e => match e.op with
    | .remote r => { e with err := e.err || err, op := .remote { r with sent := off + 1 } }
    | _ => e

/-- Serve packets of a command to the core's own package, in order. [DEDUCED, log 31] -/
def State.serveOwn (s : State) (c id : Nat) (r : Remote) (l : List (Nat × Nat)) : State :=
  l.foldl (fun t p =>
    if t.spoiled r p.1 p.2 then t.markSent c id p.1 true
    else
      let a := t.applyOwn c r p.1 p.2
      (a.st.answer c id p.1 p.2 a.code a.data).markSent c id p.1 false) s

/-- The count that a remote command adds to its flag. -/
def Remote.count (r : Remote) : Int :=
  match r.kind with
  | .rcfAdd | .fenceF => 0
  | _ => r.len

/-- End a remote command whose packets are all answered (R255, R270). -/
def State.endRemote (s : State) (c id : Nat) : Option State :=
  match (s.core c).eng.find? fun e => e.id == id with
  | some e =>
    match e.op with
    | .remote r => if r.finished then some ((s.reportRemote c e r).endCmd c e r.count e.err) else none
    | _ => none
  | none => none

/-- ENGINE_COMMAND_COMPLETE: command i of core c (R255). [DESIGN CHOICE, log 2; DESIGN CHOICE, log 32] -/
def engineComplete (c i : Nat) (s : State) : Option State :=
  match (s.core c).begun i with
  | none => none
  | some e =>
    match e.op with
    | .copy dst src n => let r := s.copyBytes src dst n; some (r.1.endCmd c e n r.2)
    | .pat dst src n dims =>
      let r := s.copyAll ((patOffsets dims).map fun o => ((src + o.1).toNat, (dst + o.2).toNat)) n
      some (r.1.endCmd c e ((n : Int) * dims.foldl (fun (t : Int) d => t * d.1) 1) r.2)
    | .frames moves size =>
      let r := s.copyAll (moves.map fun m => (m.2, m.1)) size
      some (r.1.endCmd c e (size * moves.length) r.2)
    | .count n => some (s.endCmd c e n false)
    | .addFlag n => some (s.endCmd c e n.toInt false)
    | .drain _ => none
    | .remote r =>
      if r.pkg = s.pkgNo && r.kind != .rldIq && r.kind != .kret then
        if (s.core c).firstTo i r.pkg then (s.serveOwn c e.id r r.unsent).endRemote c e.id else none
      else s.endRemote c e.id
    | .kret _ total left => if left = 0 then some (s.endCmd c e (8 * total) e.err) else none
def execEngineCommandComplete (c i : Nat) (s : State) : Host.Outcome State Fault Refusal := happen (engineComplete c i) s

/-- Streams that a drain of their stage held begin once it is satisfied: what they may deliver as old is what memory then holds (R261,
R262). -/
def State.beginStreams (s : State) (c : Nat) (e : EngCmd) : State :=
  s.modCore c fun k => { k with sp := k.sp.map fun x =>
    (x.1, if x.2.isOpen && decide (e.id < x.2.order) && x.2.stage == e.stage && !k.streamHeld x.2
      then { x.2 with old := s.sourceBytes x.2.base x.2.len x.2.striped } else x.2) }

/-- DX_DRAIN_SATISFIED: drain i of core c (R262). -/
def drainSatisfied (c i : Nat) (s : State) : Option State :=
  let k := s.core c
  match k.eng[i]? with
  | some e =>
    match e.op with
    | .drain rq =>
      if (k.eng.take i).any fun x => x.stage == e.stage && decide (x.eng < 2) then none
      else
        let err := (k.stage e.stage).drainErr
        let s1 := s.modCore c fun q =>
          { q with eng := q.eng.filter fun x => x.id != e.id }.modStage e.stage fun x => { x with drainErr := false }
        some (((s1.beginStreams c e).fill rq (if err then 1 else 0)).settleHaltq c 9)
    | _ => none
  | none => none
def execDxDrainSatisfied (c i : Nat) (s : State) : Host.Outcome State Fault Refusal := happen (drainSatisfied c i) s

end Sys2Proof.Machine
end

