-- ==== Sys2Proof/Machine/Kiln.lean ====
section
/-! DEFINITION. The Kiln (spec/16) and the instructions that drive it (spec/12 R273 to R283): request records, pages and slots,
the step algorithm, the charge header, returns, charge aborts. -/

namespace Sys2Proof.Machine

/-! ## Records, pages, slots (R353 to R356) -/

def State.setRec (s : State) (i : Nat) (r : Rec) : State :=
  { s with kiln := { s.kiln with recs := sset Rec.reset s.kiln.recs i r } }
def State.modRec (s : State) (i : Nat) (f : Rec → Rec) : State := s.setRec i (f (s.recd i))

/-- Lp (R354). -/
def Rec.lp (r : Rec) : Nat := r.plen + r.gen

/-- Insert by an order, after its equals. -/
def insertBy {α : Type} (le : α → α → Bool) (x : α) : List α → List α
  | [] => [x]
  | y :: t => if le y x then y :: insertBy le x t else x :: y :: t

/-- Sort by an order; equals keep their order. [DESIGN CHOICE, log 54] -/
def sortBy {α : Type} (le : α → α → Bool) : List α → List α
  | [] => []
  | x :: t =>
    let rec go (acc : List α) : List α → List α
      | [] => acc
      | y :: u => go (insertBy le y acc) u
    go [x] t

/-- The records of an instance in a state, in ascending index. -/
def State.recsIn (s : State) (inst : Nat) (st : RecState) : List Nat :=
  (s.kiln.recs.filter fun e => e.2.inst == inst && e.2.state == st).map (·.1)

/-- Pages and slots that records of an instance hold. -/
def State.heldPages (s : State) (inst : Nat) : List Nat :=
  (s.kiln.recs.filter fun e => e.2.inst == inst).flatMap fun e => e.2.pages
def State.heldSlots (s : State) (inst : Nat) : List Nat :=
  (s.kiln.recs.filter fun e => e.2.inst == inst).filterMap fun e => e.2.slot

/-- Free pages of an instance, ascending (R357). -/
def State.freePages (s : State) (inst : Nat) : List Nat :=
  let held := s.heldPages inst
  (List.range (s.inst inst).pool).filter fun p => !held.contains p
/-- The lowest free slot. -/
def State.freeSlot (s : State) (inst : Nat) : Option Nat :=
  let held := s.heldSlots inst
  (List.range (s.inst inst).slots).find? fun p => !held.contains p

/-- The notice of a record's end (R363, R366, Table 18.4). -/
def State.endNotice (s : State) (i : Nat) (kind : Nat) : State :=
  let r := s.recd i
  s.notify
    { w0 := noticeW0 r.hostid.toNat kind r.owner r.world
      w1 := BitVec.ofNat 64 (r.fault <<< 32 + r.reason <<< 24 + r.state.code <<< 20 + r.inst <<< 16 + i)
      w2 := BitVec.ofNat 64 (r.gen % 2 ^ 24)
      w3 := 0 }

/-- End(r, s, reason) (R362). -/
def State.endRec (s : State) (i : Nat) (st : RecState) (reason : Nat) : State :=
  (s.modRec i fun r => { r with pages := [], slot := none, state := st, reason := reason, inrows := 0 }).endNotice i
    (if st = .failed then 3 else 2)

/-- Evict(r) (R356). -/
def State.evict (s : State) (i : Nat) : State :=
  let r := s.recd i
  let n := min 0xFFFF (r.evcnt + 1)
  let lim := (s.inst r.inst).evlim
  let r1 := { r with pages := [], slot := none, position := 0, pcons := 0, pfdone := false, evcnt := n, evd := true,
                     evmark := false }
  if lim != 0 && decide (lim ≤ n) then (s.setRec i { r1 with state := .evicted, reason := 5 }).endNotice i 2
  else s.setRec i { r1 with state := .pending, wait := 0 }

/-! ## The step algorithm (R357) -/

/-- A unit: a record, its rows, and whether it is a decode row. -/
structure KUnit where
  rcd  : Nat
  k    : Nat
  dec  : Bool
  deriving DecidableEq, Repr

/-- New page indices that k rows of a record need. -/
def Rec.newPages (r : Rec) (k : Nat) : Nat := if k = 0 then 0 else (r.position + k - 1) / 64 + 1 - r.pages.length

/-- Step 1: the continuing records, in order. -/
def State.continuing (s : State) (inst : Nat) : List Nat :=
  let act := s.recsIn inst .active
  let last := (s.inst inst).lastslot
  let key (i : Nat) : Nat :=
    let n := (s.recd i).slot.getD 0
    if last < (n : Int) then n else n + (s.inst inst).slots
  sortBy (fun a b => key a ≤ key b) (act.filter fun i => (s.recd i).pfdone) ++
    sortBy (fun a b => (s.recd a).seq.toNat ≤ (s.recd b).seq.toNat) (act.filter fun i => !(s.recd i).pfdone)

/-- Step 1: rows for a list of continuing records, given the rows already taken. -/
def State.takeRows (s : State) (inst rows : Nat) : List Nat → List KUnit
  | [] => []
  | i :: t =>
    let r := s.recd i
    let p := s.inst inst
    let k := min (if r.pfdone then 1 else min p.chunk (r.lp - r.pcons)) (p.rmax - rows)
    if k = 0 then s.takeRows inst rows t else ⟨i, k, r.pfdone⟩ :: s.takeRows inst (rows + k) t

/-- The eviction candidate: lowest EPRIO, then highest SEQ. -/
def State.victim (s : State) (inst : Nat) : Option Nat :=
  (sortBy (fun a b =>
    let x := s.recd a
    let y := s.recd b
    decide (x.eprio < y.eprio) || (x.eprio == y.eprio && decide (y.seq.toNat ≤ x.seq.toNat))) (s.recsIn inst .active)).head?

/-- Step 2: evict until the continuing rows have their pages; the state, the units left, the records evicted. -/
def State.makeRoom (s : State) (inst : Nat) (units : List KUnit) (ev : List Nat) : Nat → State × List KUnit × List Nat
  | 0 => (s, units, ev)
  | fuel + 1 =>
    if (s.freePages inst).length < (units.map fun u => (s.recd u.rcd).newPages u.k).sum then
      match s.victim inst with
      | some v => (s.evict v).makeRoom inst (units.filter fun u => u.rcd != v) (v :: ev) fuel
      | none => (s, units, ev)
    else (s, units, ev)

/-- GrantPages of one unit: pages in ascending number; each is written to the page list (R357). -/
def State.grant (s : State) (u : KUnit) : State × List Nat :=
  let r := s.recd u.rcd
  let got := (s.freePages r.inst).take (r.newPages u.k)
  let base := s.pladdr r + 4 * r.pages.length
  let s1 := (List.range got.length).foldl (fun t j =>
    t.store (base + 4 * j) (bytesOf 4 (BitVec.ofNat 32 (got.getD j 0)))) s
  (s1.setRec u.rcd { r with pages := r.pages ++ got }, got)

/-- PAGE_MAPPED for a record that takes its first rows: an earlier one still queued is rewritten (R397). -/
def State.pageMapped (s : State) (i : Nat) (got : List Nat) : State :=
  let r := s.recd i
  let w1 : Word := BitVec.ofNat 64 (r.inst <<< 28 + r.slot.getD 0 <<< 16 + i)
  let w2 : Word := BitVec.ofNat 64 (got.length <<< 32 + got.headD 0)
  let mine (n : Notice) : Bool := fld n.w0.toNat 0 8 == 7 && fld n.w1.toNat 0 12 == i && n.w0.extractLsb' 32 32 == r.hostid
  if s.notices.any mine then
    { s with notices := s.notices.map fun n => if mine n then { n with w1 := w1, w2 := w2 } else n }
  else s.notify { w0 := noticeW0 r.hostid.toNat 7 r.owner r.world, w1 := w1, w2 := w2, w3 := 0 }

/-- Step 3: over-long requests fail. -/
def State.failLong (s : State) (inst : Nat) : State :=
  let l := sortBy (fun a b => (s.recd a).seq.toNat ≤ (s.recd b).seq.toNat)
    ((s.recsIn inst .pending).filter fun i => decide ((s.inst inst).maxpos < (s.recd i).lp))
  l.foldl (fun t i => (t.modRec i fun r => { r with fault := 4 }).endRec i .failed 0) s

/-- Step 3: admissions over the pending records in order, until rows, slots or pages run out. -/
def State.admitRows (s : State) (inst rows : Nat) : List Nat → State × List KUnit
  | [] => (s, [])
  | i :: t =>
    let p := s.inst inst
    let r := s.recd i
    match s.freeSlot inst with
    | none => (s, [])
    | some slot =>
      let k0 := min (min p.chunk (r.lp - r.pcons)) (p.rmax - rows)
      let k := min k0 ((r.pages.length + (s.freePages inst).length) * 64 - r.position)
      if rows = p.rmax || k = 0 then (s, [])
      else
        let u : KUnit := ⟨i, k, false⟩
        let g := (s.setRec i { r with slot := some slot }).grant u
        let x := (g.1.pageMapped i g.2).admitRows inst (rows + k) t
        (x.1, u :: x.2)

/-- The token fed at a position: its address (R354). R277 checks only where a prompt and a sink start: what runs past the end of hub SRAM
is read and written as plain memory there. [DESIGN CHOICE, log 62] -/
def Rec.tokenAddr (r : Rec) (q : Nat) : Nat := if q < r.plen then r.prompt + 4 * q else r.sink + 4 * (q - r.plen)

/-- Header row of a record's position (R360), and its poison (R365). PAGE is the page that the Kiln gave the record; no rule says whether
it reads it back from the page-list word. [DESIGN CHOICE, log 62] -/
def State.headerRow (s : State) (r : Rec) (q : Nat) (first : Bool) : BitVec 128 × Bool :=
  let bad := s.badIn (r.tokenAddr q) 4
  let tok := if bad then 0 else s.load (r.tokenAddr q) 4
  let b (x : Bool) (n : Nat) : Nat := if x then 2 ^ n else 0
  (BitVec.ofNat 128 (tok <<< 64 + r.owner.toNat <<< 60 + (r.pages.getD (q / 64) 0 % 2 ^ 20) <<< 40 + (q % 2 ^ 24) <<< 16 +
    b bad 15 + b (q == 0) 14 + b (q + 1 == r.lp) 13 + b first 12 + r.slot.getD 0), bad)

/-- The rows of a unit, in ascending position. -/
def State.unitRows (s : State) (u : KUnit) : List (BitVec 128 × Bool) :=
  let r := s.recd u.rcd
  (List.range u.k).map fun j => s.headerRow r (r.position + j) (j == 0)

/-- Header tile j of a charge (R359). -/
def headerTile (inst j : Nat) (num : BitVec 16) (rows : List (BitVec 128 × Bool)) : Entry :=
  let part := (rows.drop (128 * j)).take 128
  let n := ceilDiv part.length 8
  let tileRow (t : Nat) := (part.drop (8 * t)).take 8
  mkTile (mkHead 1 11 n 128 0 num (packN 16 1 16 fun t => BitVec.ofBool ((tileRow t).any (·.2))) (128 * j)
      (rows.length + inst <<< 9)) []
    ((List.range n).map fun t => packList 1024 128 ((tileRow t).map (·.1)))

/-- The CB marker and the header tiles (R359). -/
def chargeEntries (inst rmax : Nat) (num : BitVec 16) (rows : List (BitVec 128 × Bool)) : List Entry :=
  mkMarker 9 num (BitVec.ofNat 32 (rows.length + inst <<< 9)) ::
    (List.range (ceilDiv rmax 128)).map fun j => headerTile inst j num rows

/-- Units in emission order: decode units by slot, then prefill units by SEQ. -/
def State.emitOrder (s : State) (units : List KUnit) : List KUnit :=
  sortBy (fun a b => (s.recd a.rcd).slot.getD 0 ≤ (s.recd b.rcd).slot.getD 0) (units.filter (·.dec)) ++
    sortBy (fun a b => (s.recd a.rcd).seq.toNat ≤ (s.recd b.rcd).seq.toNat) (units.filter fun u => !u.dec)

/-- A record's rows go in flight. -/
def Rec.launch (r : Rec) (k : Nat) (num : BitVec 32) (poison : Bool) : Rec :=
  let pc := if r.pfdone then r.pcons else r.pcons + k
  { r with
    state := .inflight, inrows := k, infchg := num, position := r.position + k, pcons := pc
    pfdone := r.pfdone || pc == r.lp, wait := 0
    fault := if poison && r.fault == 0 then 3 else r.fault }

/-- A pending record waits through a formed charge (R358). -/
def Rec.age (r : Rec) : Rec :=
  if r.wait + 1 = 64 then { r with eprio := min 7 (r.eprio + 1), wait := 0 } else { r with wait := r.wait + 1 }

/-- Step 4: emission; the state and the result entry. -/
def State.emitCharge (s : State) (inst : Nat) (units : List KUnit) (ev : List Nat) : State × Word :=
  let p := s.inst inst
  let num16 : BitVec 16 := p.next.setWidth 16
  let rows := (s.emitOrder units).flatMap s.unitRows
  let n := rows.length
  let poisoned (u : KUnit) : Bool := (s.unitRows u).any (·.2)
  let s1 := units.foldl (fun t u => t.modRec u.rcd fun r => r.launch u.k p.next (poisoned u)) s
  let s2 := (s1.recsIn inst .pending).foldl (fun t i => if ev.contains i then t else t.modRec i Rec.age) s1
  let decs := (units.filter (·.dec)).map fun u => (s.recd u.rcd).slot.getD 0
  (s2.modInst inst fun x =>
    { x with
      next := x.next + 1
      charges := x.charges ++ [{ num := p.next, left := n }]
      lastslot := match decs.max? with
        | some d => d
        | none => x.lastslot
      out := x.out ++ chargeEntries inst p.rmax num16 rows },
   rEntry (n <<< 16 + num16.toNat))

/-- Step(i) (R357): the state and the result entry. -/
def State.kilnStep (s : State) (inst : Nat) : State × Word :=
  let p := s.inst inst
  if p.pool = 0 then (s, rRefused 2)
  else if p.d ≤ p.charges.length then (s, rRefused 12 1)
  else
    let u1 := s.takeRows inst 0 (s.continuing inst)
    let m := s.makeRoom inst u1 [] ((s.recsIn inst .active).length + 1)
    let s2 := m.2.1.foldl (fun t u => (t.grant u).1) m.1
    let s3 := s2.failLong inst
    let pend := sortBy (fun a b =>
        let x := s3.recd a
        let y := s3.recd b
        decide (y.eprio < x.eprio) || (x.eprio == y.eprio && decide (x.seq.toNat ≤ y.seq.toNat)))
      ((s3.recsIn inst .pending).filter fun i => !m.2.2.contains i)
    let a := s3.admitRows inst (m.2.1.map (·.k)).sum pend
    let units := m.2.1 ++ a.2
    if units.isEmpty then (a.1, rRefused 12) else a.1.emitCharge inst units m.2.2

/-! ## Returns (R362) -/

/-- One row of a charge has returned; an empty charge is no longer in flight. -/
def returnRow (num : BitVec 32) : List Charge → List Charge
  | [] => []
  | c :: t =>
    if c.num = num then (if c.left ≤ 1 then t else { c with left := c.left - 1 } :: t) else c :: returnRow num t

/-- The end of a unit that returned whole; where its token goes past the end of hub SRAM, it is stored there all the same.
[DESIGN CHOICE, log 62] -/
def State.settle (s : State) (i : Nat) (tok : BitVec 32) : State :=
  let r := s.recd i
  let p := s.inst r.inst
  if r.cnmark then s.endRec i .done 4
  else if r.fault != 0 then s.endRec i .failed 0
  else
    let last := r.position == r.lp
    let s1 := if last then
        (s.store (r.sink + 4 * r.gen) (bytesOf 4 tok)).setRec i { r with gen := r.gen + 1 } else s
    let stop := (p.stop.getD r.stopt []).any fun x => x == tok && x != 0xFFFFFFFF#32
    if last && stop then s1.endRec i .done 1
    else if last && r.gen + 1 == r.maxnew then s1.endRec i .done 2
    else if last && decide (p.maxpos ≤ r.position) then s1.endRec i .done 3
    else
      let s2 := s1.modRec i fun x => { x with state := .active }
      if r.evmark then s2.evict i else s2

/-- Return(i, e): the state, and whether a record matched. Bits [47:45] of the entry, which R279 gives as zero, are not looked at
[DESIGN CHOICE, log 34]. The row comes off the charge that the record is in, whatever other
charge shares its low 16 bits (R282). -/
def State.kilnReturn (s : State) (inst : Nat) (e : Word) : State × Bool :=
  let slot := fld e.toNat 32 12
  let num : BitVec 16 := e.extractLsb' 48 16
  match (s.recsIn inst .inflight).find? fun i => (s.recd i).slot == some slot && (s.recd i).infchg.setWidth 16 == num with
  | none => (s, false)
  | some i =>
    let s1 := s.modRec i fun r =>
      { r with fault := if e.getLsbD 44 && r.fault == 0 then 1 else r.fault, inrows := r.inrows - 1 }
    let s2 := s1.modInst inst fun x => { x with charges := returnRow (s.recd i).infchg x.charges }
    (if (s2.recd i).inrows = 0 then s2.settle i (e.extractLsb' 0 32) else s2, true)

/-! ## Charge aborts (R282, R368) -/

/-- The charge in flight that a 16-bit number names: the older of two. -/
def State.chargeOf (s : State) (inst : Nat) (num : BitVec 16) : Option Charge :=
  (s.inst inst).charges.find? fun c => c.num.setWidth 16 == num

/-- The records with rows in a charge. -/
def State.rowsIn (s : State) (inst : Nat) (c : Charge) : List Nat :=
  (s.recsIn inst .inflight).filter fun i => (s.recd i).infchg == c.num

/-- Settle the records of an aborted charge, and drop the charge (R368). -/
def State.settleCharge (s : State) (inst : Nat) (fail : Bool) (c : Charge) : State :=
  let s1 := (s.rowsIn inst c).foldl (fun t i =>
    if (t.recd i).cnmark then t.endRec i .done 4
    else if fail then (t.modRec i fun r => { r with fault := 2 }).endRec i .failed 0
    else (t.modRec i fun r => { r with inrows := 0 }).evict i) s
  s1.modInst inst fun x => { x with charges := x.charges.erase c }

/-! ## The instructions -/

/-- A command of the system engine that fills its entry when it commits: it waits for an entry (R24, R274).
[DEDUCED, log 29; DEDUCED, log 34] -/
def sysOp (level : Nat) (pg : PReg) (check : State → State → Res (State → State × Word)) : SlotOp :=
  enOp .hub level pg Uses.none fun pre cur => do
    need (pre.me.rqFree 2) waiting
    let act ← check pre cur
    let r := cur.reserve 2
    let x := act r.1
    .ok (x.1.fill r.2 x.2)

/-- A caller that acts on secure resources where the instruction's own rule does not say otherwise: its world is secure, or it
is at level M (R273). [DEDUCED, log 35] -/
def Core.secureCaller (k : Core) : Bool := k.ctxWorld || k.hub.priv == .m

/-- ILLOP 0x59 (Table 12.8). -/
def field59 (ok : Bool) : Res Unit := need ok (illop 0x59)

/-- The admission descriptor is out of range (R277). -/
def badDescriptor (bs : List Byte) : Bool :=
  let u (o n : Nat) := leAt bs o n
  u 8 4 == 0 || decide (2 ^ 24 < u 8 4 + u 12 4) || decide (2 ^ 3 ≤ u 4 1) || decide (2 ^ 3 ≤ u 5 1) || decide (2 ^ 5 ≤ u 6 1) ||
  decide (2 ^ 4 ≤ u 7 1) || decide (2 ^ 24 ≤ u 8 4) || decide (2 ^ 24 ≤ u 12 4) || decide (2 ^ 40 ≤ u 16 8) ||
  decide (2 ^ 40 ≤ u 24 8) || (bs.drop 32).any (· != 0)

/-- The record that a descriptor asks for (Table 12.4, R355). -/
def recordOf (bs : List Byte) (seq : BitVec 32) : Rec :=
  let u (o n : Nat) := leAt bs o n
  { Rec.reset with
    state := .pending, hostid := BitVec.ofNat 32 (u 0 4), inst := u 4 1, dprio := u 5 1, eprio := u 5 1
    owner := BitVec.ofNat 4 (u 6 1), world := (u 6 1).testBit 4, stopt := u 7 1, plen := u 8 4, maxnew := u 12 4
    prompt := u 16 8, sink := u 24 8, seq := seq }

/-- The admission command at the Kiln (R277). -/
def State.admitReq (s : State) (bs : List Byte) (world : Bool) : State × Word :=
  let i := leAt bs 4 1 % 8
  match (List.range 4096).find? fun n => (s.recd n).state == .free with
  | none => (s, rRefused 1)
  | some n =>
    if (s.inst i).pool = 0 then (s, rRefused 2)
    else if badDescriptor bs then (s, rRefused 3)
    else if !(rangeOf (leAt bs 16 8)).isHubMem || !(rangeOf (leAt bs 24 8)).isHubMem then (s, rRefused 5)
    else if (leAt bs 6 1).testBit 4 && !world then (s, rRefused 4)
    else
      let q := (s.inst i).seq
      ((s.setRec n (recordOf bs q)).modInst i fun x => { x with seq := q + 1 }, rEntry (q.toNat <<< 12 + n))

/-- R277 -/
def opKilnAdmit (pg : PReg) (ga : GReg) : SlotOp :=
  sysOp 1 pg fun pre cur => do
    let pa ← pre.tr .engRd (pre.g ga) 64 64
    let bs := cur.bytes pa 64
    .ok fun t => t.admitReq bs pre.me.ctxWorld
def execKilnAdmit (pg : PReg) (ga : GReg) (s : State) : Host.Outcome State Fault Refusal := issue (opKilnAdmit pg ga) s

/-- Resident stages of a core that name an instance (R278). -/
def Core.namesInst (k : Core) (i : BitVec 3) : Option Stage :=
  ((List.range 8).map k.stage).find? fun t => t.state != .none && t.inst == some i

/-- The iq is the port that the instance's KPORT names on core c; no iq is wrong for an instance to which no image gives a KPORT,
and the step is then refused with NOCONF. [DEDUCED, log 34] -/
def Inst.portIs (p : Inst) (c iq : Nat) : Bool := !p.placed || (p.kcore == c && p.kiq == iq)

/-- R278: the request goes to the Kiln, which fills the entry -/
def opKilnStep (pg : PReg) (iq : BitVec 4) (inst : BitVec 3) : SlotOp :=
  enOp .cmp 0 pg { Uses.none with iq := [iq.toNat] } fun pre cur => do
    need (pre.me.rqFree 2) waiting
    match pre.me.namesInst inst with
    | none => illop 0x57
    | some t => do
      need (t.instPkg == pre.pkgNo && (pre.inst inst.toNat).portIs pre.focus iq.toNat) (illop 0x56)
      let r := cur.reserve 2
      .ok { r.1 with kiln := { r.1.kiln with queue := r.1.kiln.queue ++ [.step inst.toNat r.2] } }
/-- [DEDUCED, log 34] -/
def execKilnStep (pg : PReg) (iq : BitVec 4) (inst : BitVec 3) (s : State) : Host.Outcome State Fault Refusal :=
  issue (opKilnStep pg iq inst) s

/-- The package of the Kiln that a core's kiln.ret names: the one its configuration gives, else its own (R279).
[DEDUCED, log 33] -/
def State.kilnPkg (s : State) (inst : BitVec 3) : Byte :=
  if s.stage.inst = some inst then s.stage.instPkg
  else match s.me.namesInst inst with
    | some t => t.instPkg
    | none => s.pkgNo

/-- R279 -/
def opKilnRet (pg : PReg) (cf : BitVec 6) (ga gb : GReg) (inst : BitVec 3) : SlotOp :=
  enOp .cmp 0 pg Uses.none fun pre cur => do
    pre.flagOk cf
    let n := (pre.g gb).toNat
    need (1 ≤ n && n ≤ 256) (illop 0x58)
    let p := pre.kilnPkg inst
    let _ ← pre.target (BitVec.ofNat 64 (p.toNat <<< 48))
    let pa ← pre.tr .engRd (pre.g ga) 8 (8 * n)
    let id := cur.me.nextId
    if p = pre.pkgNo then
      let s1 := cur.enter pre 2 (some cf.toNat) (.kret inst.toNat n n)
      let es := (List.range n).map fun j => KilnCmd.ret inst.toNat (BitVec.ofNat 64 (cur.load (pa + 8 * j) 8)) (cur.focus, id)
      .ok { s1 with kiln := { s1.kiln with queue := s1.kiln.queue ++ es } }
    else
      .ok (cur.enter pre 2 (some cf.toNat)
        (.remote { remoteCmd .kret p (BitVec.ofNat 64 (p.toNat <<< 48)) (8 * n) pa with inst := inst.toNat }))
/-- [DEDUCED, log 34] -/
def execKilnRet (pg : PReg) (cf : BitVec 6) (ga gb : GReg) (inst : BitVec 3) (s : State) : Host.Outcome State Fault Refusal :=
  issue (opKilnRet pg cf ga gb inst) s

/-- A record index operand (R280, R281). -/
def recIndex (x : Word) : Res Nat := if 2 ^ 12 ≤ x.toNat then illop 0x59 else .ok x.toNat

/-- R280 -/
def opKilnRd (pg : PReg) (ga gb : GReg) : SlotOp :=
  sysOp 1 pg fun pre _ => do
    let i ← recIndex (pre.g gb)
    let pa ← pre.tr .engWr (pre.g ga) 64 64
    .ok fun t =>
      if (t.recd i).world && !pre.me.secureCaller then (t, rRefused 4)
      else (t.store pa ((List.range 8).flatMap fun j => bytesOf 8 (t.recWord i j)), rEntry (t.recd i).state.code)
def execKilnRd (pg : PReg) (ga gb : GReg) (s : State) : Host.Outcome State Fault Refusal := issue (opKilnRd pg ga gb) s

/-- Table 12.5, kiln.cancel; of a secure record in a refused state a non-secure caller is told WORLD. [DEDUCED, log 35; DESIGN CHOICE, log 72] -/
def State.cancel (s : State) (i : Nat) (world : Bool) : State × Word :=
  let r := s.recd i
  if r.world && !world then (s, rRefused 4)
  else match r.state with
    | .pending | .active => (s.endRec i .done 4, rEntry r.state.code)
    | .inflight => (s.setRec i { r with cnmark := true }, rEntry r.state.code)
    | .free | .done | .evicted | .failed => (s, rRefused 7)

/-- R281 -/
def opKilnCancel (pg : PReg) (ga : GReg) : SlotOp :=
  sysOp 1 pg fun pre _ => do
    let i ← recIndex (pre.g ga)
    .ok fun t => t.cancel i pre.me.secureCaller
def execKilnCancel (pg : PReg) (ga : GReg) (s : State) : Host.Outcome State Fault Refusal := issue (opKilnCancel pg ga) s

/-- Table 12.5, kiln.evict; of a secure record in a refused state a non-secure caller is told WORLD. [DEDUCED, log 35; DESIGN CHOICE, log 72] -/
def State.evictCmd (s : State) (i : Nat) (world : Bool) : State × Word :=
  let r := s.recd i
  if r.world && !world then (s, rRefused 4)
  else match r.state with
    | .active => (s.evict i, rEntry r.state.code)
    | .inflight => (s.setRec i { r with evmark := true }, rEntry r.state.code)
    | .free | .pending | .done | .evicted | .failed => (s, rRefused 7)

/-- R281 -/
def opKilnEvict (pg : PReg) (ga : GReg) : SlotOp :=
  sysOp 1 pg fun pre _ => do
    let i ← recIndex (pre.g ga)
    .ok fun t => t.evictCmd i pre.me.secureCaller
def execKilnEvict (pg : PReg) (ga : GReg) (s : State) : Host.Outcome State Fault Refusal := issue (opKilnEvict pg ga) s

/-- kiln.abort at the Kiln (R282). -/
def State.abortCmd (s : State) (inst : Nat) (num : BitVec 16) (fail all world : Bool) : State × Word :=
  let l := if all then (s.inst inst).charges else (s.chargeOf inst num).toList
  let rs := l.flatMap fun c => s.rowsIn inst c
  if (s.inst inst).pool = 0 then (s, rRefused 2)
  else if !all && l.isEmpty then (s, rRefused 7)
  else if !world && rs.any fun i => (s.recd i).world then (s, rRefused 4)
  else (l.foldl (fun t c => t.settleCharge inst fail c) s, rEntry (rs.length <<< 12 + l.length))

/-- R282 -/
def opKilnAbort (pg : PReg) (ga : GReg) (fail all : Bool) : SlotOp :=
  sysOp 1 pg fun pre _ => do
    let x := pre.g ga
    field59 (x.toNat < 2 ^ 35)
    .ok fun t => t.abortCmd (fld x.toNat 32 3) (x.extractLsb' 0 16) fail all pre.me.ctxWorld
def execKilnAbort (pg : PReg) (ga : GReg) (fail all : Bool) (s : State) : Host.Outcome State Fault Refusal :=
  issue (opKilnAbort pg ga fail all) s

/-! ## Actions of the Kiln -/

/-- A command that forms a charge. -/
def KilnCmd.isStep : KilnCmd → Bool
  | .step .. => true
  | .ret .. | .retPkt .. => false

/-- Where the oldest step, or the oldest return, waits: the steps reach the Kiln in their order and the returned entries in
theirs, and either may come before the other (R278, R279, R446). [DEDUCED, log 34] -/
def State.kilnFirst (s : State) (step : Bool) : Nat := s.kiln.queue.findIdx fun x => x.isStep == step

/-- Take command j off the queue. -/
def State.popKiln (s : State) (j : Nat) : State := { s with kiln := { s.kiln with queue := s.kiln.queue.eraseIdx j } }

/-- STEP: the oldest kiln.step that has reached the Kiln (R278, R357). [DEDUCED, log 34] -/
def kilnForm (s : State) : Option State :=
  let j := s.kilnFirst true
  match s.kiln.queue[j]? with
  | some (.step i rq) => let r := (s.popKiln j).kilnStep i; some (r.1.fill rq r.2)
  | _ => none
def execKilnFormCharge (s : State) : Host.Outcome State Fault Refusal := happen kilnForm s

/-- Send an answer on a MEMORY circuit. -/
def State.respond (s : State) (circ : Nat) (p : Packet) : State := s.modCirc circ fun x => { x with mrsp := x.mrsp ++ [p] }

/-- A response packet (Table 17.8). -/
def respPacket (op code : Byte) (tag : BitVec 32) (data : List Byte) : Packet :=
  { badTag := none, op := op, code := code, len := BitVec.ofNat 8 data.length, sub := 0, rtag := tag, da := 0, opnd := 0, cmp := 0, rest := 0,
    data := data }

/-- RETURN: the oldest returned entry (R279, R362). A packet's entries are answered together. [DEDUCED, log 34] -/
def kilnRet (s : State) : Option State :=
  let j := s.kilnFirst false
  match s.kiln.queue[j]? with
  | some (.ret i e src) =>
    let r := (s.popKiln j).kilnReturn i e
    some (r.1.modCore src.1 fun k => k.modCmd src.2 fun x =>
      match x.op with
      | .kret n t left => { x with err := x.err || !r.2, op := .kret n t (left - 1) }
      | _ => x)
  | some (.retPkt i (e :: t) circ tag bad) =>
    let r := s.kilnReturn i e
    some { r.1 with kiln := { r.1.kiln with queue := r.1.kiln.queue.set j (.retPkt i t circ tag (bad || !r.2)) } }
  | some (.retPkt _ [] circ tag bad) =>
    some ((s.popKiln j).respond circ (respPacket 9 (if bad then codeUnmatched else 0) tag []))
  | _ => none
def execKilnReturn (s : State) : Host.Outcome State Fault Refusal := happen kilnRet s

/-- CHARGE_DELIVERY: the next entry of an instance goes to its port against one credit (R359); a token that is due there takes its place
first, or behind it where it closes a charge (R405). -/
def chargeDeliver (inst : BitVec 3) (s : State) : Option State :=
  let x := s.inst inst.toNat
  let s1 := s.tryToken x.kcore x.kiq
  match x.out with
  | e :: t =>
    if (s1.inst inst.toNat).credits = 0 then none
    else some (((s1.modInst inst.toNat fun y => { y with out := t, credits := y.credits - 1 }).modIq x.kcore x.kiq fun p =>
      { p with coming := p.coming ++ [e] }).tryToken x.kcore x.kiq)
  | [] => none
def execChargeDelivery (inst : BitVec 3) (s : State) : Host.Outcome State Fault Refusal := happen (chargeDeliver inst) s

/-- CHARGE_ABORT_SETTLE: an abort that dbg.ctl.abort or a message sent, with no world check (R368, R399). -/
def abortSettle (s : State) : Option State :=
  match s.kiln.aborts with
  | (i, num, fail) :: t =>
    let s1 := { s with kiln := { s.kiln with aborts := t } }
    let l := match num with
      | some n => (s1.chargeOf i n).toList
      | none => (s1.inst i).charges
    some (l.foldl (fun q c => q.settleCharge i fail c) s1)
  | [] => none
def execChargeAbortSettle (s : State) : Host.Outcome State Fault Refusal := happen abortSettle s

end Sys2Proof.Machine
end

