-- ==== Sys2Proof/Machine/Image.lean ====
section
/-! DEFINITION. The layout of a domain image (spec/19 R420, R421): header, sections, package records, STAGE and PORTS payloads, and
the broadcast tree that its PACKAGES section gives (R426). -/

namespace Sys2Proof.Machine

/-- A section of an image body. -/
structure ImgSection where
  kind    : Nat
  pkg     : Nat
  payload : List Byte
  deriving DecidableEq, Repr

/-- Cut a body into sections; none when a section is malformed. Zero bytes may fill the end. -/
def cutSections (bs : List Byte) : Nat → Option (List ImgSection)
  | 0 => none
  | fuel + 1 =>
    if bs.length < 32 && bs.all (· == 0) then some []
    else
      let len := leAt bs 4 4
      let whole := 16 + ceilDiv len 32 * 32
      if bs.length < whole || ((bs.drop 9).take 7).any (· != 0) || ((bs.take whole).drop (16 + len)).any (· != 0) then none
      else (cutSections (bs.drop whole) fuel).map fun t =>
        { kind := leAt bs 0 4, pkg := leAt bs 8 1, payload := (bs.drop 16).take len } :: t

/-- The body's length, and the sections of an image. -/
def imgBodyLen (img : List Byte) : Nat := leAt img 8 8
def imgSections (img : List Byte) : Option (List ImgSection) := cutSections (img.drop 256) (img.length + 1)

/-- The sections of a package of one kind. -/
def sectionsOf (img : List Byte) (pkg kind : Nat) : List ImgSection :=
  ((imgSections img).getD []).filter fun x => x.pkg == pkg && x.kind == kind

/-- A PACKAGES record: serial, package, parent, and its bytes that must be zero. -/
structure PkgRec where
  serial : Nat
  pkg    : Nat
  parent : Nat
  spare  : Nat
  deriving DecidableEq, Repr

def pkgRecords (img : List Byte) : List PkgRec :=
  (List.range (leAt img 24 2)).map fun i =>
    let o := 256 + 16 + 32 * i
    { serial := leAt img o 16, pkg := leAt img (o + 16) 1, parent := leAt img (o + 17) 1, spare := leAt img (o + 18) 14 }

/-- The package number that an image gives a serial. -/
def pkgOfSerial (img : List Byte) (serial : BitVec 128) : Option Byte :=
  ((pkgRecords img).find? fun r => r.serial == serial.toNat).map fun r => BitVec.ofNat 8 r.pkg

/-- Rank of a kind in a package's sections (R421). -/
def kindRank (k : Nat) : Nat := ([2, 7, 3, 4, 5, 6].findIdx? (· == k)).getD 9

/-- Sections of a package in order: ascending PKG, then the order of kinds. -/
def inOrder : List ImgSection → Bool
  | a :: b :: t => (decide (a.pkg < b.pkg) || (a.pkg == b.pkg && decide (kindRank a.kind ≤ kindRank b.kind))) && inOrder (b :: t)
  | _ => true

/-- Cut a payload into records of n bytes. -/
def records (n : Nat) (p : List Byte) : List (List Byte) := (List.range (p.length / n)).map fun i => (p.drop (n * i)).take n

/-- The rectangle of a STAGE section (Table 19.5). -/
def stageRect (p : List Byte) : Region := { x := leAt p 2 1, y := leAt p 3 1, w := leAt p 0 1, h := leAt p 1 1 }

/-- The section lengths of a STAGE section, and where each core section starts. -/
def stageLens (p : List Byte) : List Nat :=
  (List.range ((stageRect p).w * (stageRect p).h)).map fun i => leAt p (8 + 4 * i) 4
def stageAt (p : List Byte) (i : Nat) : Nat :=
  ((stageLens p).take i).foldl (fun a l => a + ceilDiv l 32 * 32) (ceilDiv (8 + 4 * (stageLens p).length) 32 * 32)

/-- Core and core section of each core of a STAGE section, in row order. -/
def stageCores (p : List Byte) : List (Nat × List Byte) :=
  (List.range (stageLens p).length).map fun i =>
    ((stageRect p).cores.getD i 0, (p.drop (stageAt p i)).take ((stageLens p).getD i 0))

/-- The capacity that an image gives iq n of a core of a package: in the PORTS of a core section, or of a hub image. -/
def portCap (img : List Byte) (pkg core n : Nat) : Option Nat :=
  let caps := if isHub core then
      ((sectionsOf img pkg 7).filter fun x => (leAt x.payload 24 1).testBit (core - 512)).map fun x => leAt x.payload (33 + 2 * n) 1
    else (sectionsOf img pkg 4).flatMap fun x => ((stageCores x.payload).filter (·.1 == core)).map fun c => leAt c.2 (65 + 2 * n) 1
  caps.find? (· != 0)

/-- The next package from `self` towards a destination along the tree: the child whose subtree holds it, else the parent. -/
def nextHop (img : List Byte) (self parent : Nat) : Nat → Nat → Nat
  | 0, _ => parent
  | fuel + 1, d =>
    match (pkgRecords img).find? fun r => r.pkg == d with
    | some r => if r.parent = self then d else if r.parent = d then parent else nextHop img self parent fuel r.parent
    | none => parent

end Sys2Proof.Machine
end

