-- ==== Sys2Proof/Machine/Circuit.lean ====
section
/-! DEFINITION. Binding, releasing and failing circuits (spec/12 R292, spec/17 R376 to R383, Tables 17.5 to 17.7). -/

namespace Sys2Proof.Machine

/-! ## Links and CONTROL messages -/

def State.link' (s : State) (l : Nat) : Link := sget Link.reset s.links l
def State.modLink (s : State) (l : Nat) (f : Link → Link) : State := { s with links := smod Link.reset s.links l f }

/-- Queue a message on CONTROL circuit 0 of a link, unless the link is DOWN (R376, R426). -/
def State.sendCtl (s : State) (l : Nat) (kind : Byte) (dst : Byte) (arg : Word) (data : List Byte) : State :=
  if (s.link' l).state = .down then s
  else s.modLink l fun x => { x with ctlq := x.ctlq ++ [(kind, { badTag := none, src := s.pkgNo, dst := dst, arg := arg, data := data })] }

/-- A message about a circuit index to the other end of a link (kinds 5 FAIL, 6 CLOSE). -/
def State.tellPeer (s : State) (l : Nat) (kind : Byte) (index : Nat) : State :=
  s.sendCtl l kind ((s.link' l).peerPkg.getD 0) (BitVec.ofNat 64 index) []

/-! ## The broadcast tree (R425, R426) -/

/-- The link whose far end is a package: one that is UP, else one in RETRAIN, which keeps what is queued on it (Table 17.4). -/
def State.linkTo (s : State) (pkg : Nat) : Option Nat :=
  let via (st : LinkState) := s.links.find? fun e => e.2.state == st && e.2.peerPkg == some (BitVec.ofNat 8 pkg)
  ((via .up).orElse fun _ => via .retrain).map (·.1)

/-- This package is the root of the broadcast tree of the image it has accepted. -/
def State.isRoot (s : State) : Bool := s.boot.epoch.isSome && s.boot.root == s.pkgNo.toNat

/-- Send a CONTROL message towards the root (R426). -/
def State.sendUp (s : State) (kind : Byte) (arg : Word) : State :=
  match s.linkTo s.boot.parent with
  | some l => s.sendCtl l kind (BitVec.ofNat 8 s.boot.root) arg []
  | none => s

/-- Send a CONTROL message to a package along the tree, or, where no link leads on along it, on a link to the package itself.
[DESIGN CHOICE, log 58] -/
def State.sendTo (s : State) (kind : Byte) (m : CtlMsg) : State :=
  match (s.linkTo (nextHop s.boot.image s.pkgNo.toNat s.boot.parent 256 m.dst.toNat)).orElse fun _ => s.linkTo m.dst.toNat with
  | some l => s.modLink l fun x => { x with ctlq := x.ctlq ++ [(kind, m)] }
  | none => s

/-- A message of this package. -/
def State.message (s : State) (dst arg : Nat) (data : List Byte) : CtlMsg :=
  { badTag := none, src := s.pkgNo, dst := BitVec.ofNat 8 dst, arg := BitVec.ofNat 64 arg, data := data }

/-- The ARG of an ABORT: charge (none for every charge in flight) and instance as Table 19.10 places them; the mode, and whether
every charge is meant, in bits 35 and 36, which the table leaves zero. [DESIGN CHOICE, log 58] -/
def abortArg (inst : Nat) (charge : Option (BitVec 16)) (fail : Bool) : Nat :=
  (charge.getD 0).toNat + inst <<< 32 + (if fail then 1 <<< 35 else 0) + (if charge.isNone then 1 <<< 36 else 0)

/-- Tell the Kiln of an instance to settle a charge: on this package at once in its queue of aborts, else by an ABORT message
(R399, R407, R409). -/
def State.abortCharge (s : State) (pkg : Byte) (inst : Nat) (charge : Option (BitVec 16)) (fail : Bool) : State :=
  if pkg = s.pkgNo then { s with kiln := { s.kiln with aborts := s.kiln.aborts ++ [(inst, charge, fail)] } }
  else s.sendTo 7 (s.message pkg.toNat (abortArg inst charge fail) [])

/-! ## The bind checks (Table 17.6) -/

/-- A circuit of this id is bound. -/
def State.bound (s : State) (id : Nat) : Bool := (s.circ id).state != .free

/-- Circuits bound on a link, index 0 apart. -/
def State.circsOn (s : State) (l : Nat) : List (Nat × Circ) :=
  s.circs.filter fun e => e.1 / 16 == l && e.2.state != .free

/-- The forward direction of a circuit leaves this package on the link of its entry: an oq end, or the outgoing side of a
relay (R382, R385). -/
def Circ.forwardOut (x : Circ) : Bool := if x.ends = 4 then x.mirror else decide (16 ≤ x.port)

/-- Reserved slots on one direction of a link. -/
def State.reserved (s : State) (l : Nat) (out : Bool) : Nat :=
  (((s.circsOn l).filter fun e => e.2.forwardOut == out).map fun e => e.2.res).sum

/-- A field of the entry is reserved, or out of its range (Table 17.5, the first row of Table 17.6). [DEDUCED, log 40] -/
def badCirc (x : Circ) (w3 : Word) : Bool :=
  let z (w : Word) (lo n : Nat) : Bool := fld w.toNat lo n != 0
  z x.w0 20 4 || z x.w0 12 1 || z x.w1 48 8 || z x.w1 32 8 || z x.w1 4 12 || z x.w2 44 20 || z x.w2 39 1 || z x.w2 29 3 ||
  z x.w2 21 3 || z x.w2 10 6 || w3 != 0 || x.kind == 3 || x.mode == 3 || decide (5 ≤ x.ends) || x.index == 0 ||
  decide (x.bondn ≤ x.bondi) || decide (32 < x.bondn) || (x.bondn != 1 && x.kind != 0) || (x.res != 0 && x.kind != 0) ||
  (decide (x.ends < 2) && !(if x.w2.getLsbD 9 then fld x.w2.toNat 3 6 == 0 else decide (fld x.w2.toNat 0 9 ≤ 287)))

/-- An entry read from memory. -/
def circOf (bs : List Byte) : Circ :=
  let w (i : Nat) : Word := BitVec.ofNat 64 (leAt bs (8 * i) 8)
  { Circ.reset with state := .isOpen, w0 := w 0, w1 := w 1, w2 := w 2 }

/-- The other side of a relay: the entry as its outgoing link sees it (R385). -/
def Circ.flip (x : Circ) : Circ :=
  let w0 := x.w0.toNat - x.link + x.outlink
  let w1 := x.w1.toNat - x.index + x.outidx
  let w2 := x.w2.toNat - x.outlink <<< 32 - x.outidx <<< 40 + x.link <<< 32 + x.index <<< 40
  { x with mirror := true, w0 := BitVec.ofNat 64 w0, w1 := BitVec.ofNat 64 w1, w2 := BitVec.ofNat 64 w2 }

/-- The sides of an entry at this hop: one, or two for a relay. -/
def Circ.sides (x : Circ) : List Circ := if x.ends = 4 then [x, x.flip] else [x]
def Circ.id (x : Circ) : Nat := circId x.link x.index

/-- A port end's port is bound, other than to a member of the same bond (R383). [DEDUCED, log 40] -/
def State.portTaken (s : State) (x : Circ) : Bool :=
  if x.ends != 0 then false
  else
    let mate (id : Nat) : Bool := decide (1 < x.bondn) && (s.circ id).tag == x.tag && (s.circ id).bondi != x.bondi
    if x.port < 16 then
      match (s.iq x.core x.port).bind with
      | .unbound => false
      | .circ id => !mate id
      | _ => true
    else
      match (s.oq x.core (x.port - 16)).bind with
      | .unbound => false
      | .circ id => !mate id
      | _ => true

/-- The reply iq of a remote-engine end is bound to something else (R267). [DEDUCED, log 40] -/
def State.replyTaken (s : State) (x : Circ) : Bool :=
  x.ends == 1 && x.rv && !((s.iq x.core x.riq).bind == .unbound || (s.iq x.core x.riq).bind == .reply x.core)

/-- The key slot of a protected endpoint holds no fresh key (R386, R419). -/
def State.keyUsed (s : State) (x : Circ) : Bool := x.mode != 0 && x.ends != 4 && !sget false s.boot.keyLoaded x.keyslot

/-- The core's remote engine has a MEMORY circuit to the package already (R264). [DEDUCED, log 40] -/
def State.engineTaken (s : State) (x : Circ) : Bool :=
  x.kind == 1 && x.ends == 1 && (s.memCirc x.core x.remote).isSome

/-- The first reason to refuse a bind (Table 17.6); level S means a caller below M. [DEDUCED, log 40] -/
def State.bindRefusal (s : State) (x : Circ) (w3 : Word) (levelS : Bool) : Option Nat :=
  let sides := x.sides
  let own := (s.core x.core)
  if badCirc x w3 || (x.ends == 4 && x.outidx == 0) then some 3
  else if sides.any fun y => (s.link' y.link).state != .up then some 7
  else if x.mode == 0 && sides.any (fun y => match (s.link' y.link).peer with
      | some p => p.2.1 != Config.fuseEncl
      | none => true) then some 4
  else if (x.world && levelS) || (decide (x.ends < 2) && (x.owner != own.ctxOwner || x.world != own.ctxWorld)) then some 4
  else if sides.any fun y => decide (15 ≤ (s.circsOn y.link).length) || decide (48 < s.reserved y.link y.forwardOut + y.res) then
    some 1
  else if (sides.any fun y => s.bound y.id) || s.portTaken x || s.engineTaken x || s.replyTaken x || s.keyUsed x then some 7
  else none

/-- The capacity of the inbound port at the far end of a circuit, as the accepted image gives it (R338): the entry of the far
package with the same TAG names the port; free where the image names none. [DESIGN CHOICE, log 14] -/
def State.farCap (s : State) (x : Circ) : Nat :=
  let far := ((sectionsOf s.boot.image x.remote.toNat 3).flatMap fun y => (records 32 y.payload).map circOf).find? fun y =>
    y.tag == x.tag && y.ends == 0 && decide (y.port < 16)
  (far.bind fun y => portCap s.boot.image x.remote.toNat y.core y.port).getD (2 + Config.farCap x.tag.toNat % 15)

/-- An inbound port without its circuit: the circuit's entries are dropped, a token stays (R379) and owes nobody. -/
def IqPort.unbind (p : IqPort) : IqPort :=
  { p with bind := .unbound, q := p.q.filter (·.kind == .token), coming := [], held := [], beat := 0, word := 0, failed := false
           openCh := false, owed := 0 }

/-- An outbound port without its circuit. -/
def OqPort.unbind (p : OqPort) : OqPort :=
  { p with bind := .unbound, credits := 0, notices := 0, cur := none, outq := [], failed := false }

/-- Entries at a port or on their way to it, a token apart. -/
def IqPort.entries (p : IqPort) : List Entry := (p.q ++ p.held ++ p.coming).filter fun e => e.kind != .token

/-- Charges of entries that a new binding discards: each is settled in RECOMPUTE mode at the Kiln of the instance of the stage whose
port it is (R407). -/
def State.settleHeld (s : State) (c n : Nat) (old : Stage) : State :=
  let p := s.iq c n
  match old.inst with
  | none => s
  | some i =>
    let cs := (p.entries.map fun e => hCharge e.head).eraseDups
    cs.foldl (fun t x => t.abortCharge old.instPkg i.toNat (some x) false) s

/-- A port without a circuit takes a binding: to a circuit, whose far end then has the full credits, a token that stands there owes its
own (R338, R405). [DEDUCED, log 38] -/
def IqPort.bound (p : IqPort) (b : InBind) : IqPort :=
  { p.unbind with bind := b, owed := match b with
      | .circ _ => p.unbind.q.length
      | .route _ _ | .kiln _ | .reply _ | .unbound => 0 }

/-- Bind an inbound port that has no binding: what an earlier one has left there is discarded, so that the far end has its full credits,
and the charges of it are settled (R338, R407). [DEDUCED, log 39] -/
def State.bindIq (s : State) (c n : Nat) (b : InBind) : State :=
  (s.settleHeld c n ((s.core c).stage ((s.iq c n).owner.getD 8))).modIq c n fun p => p.bound b

/-- Install a circuit: its sides OPEN, its port bound with credits, its key slot used (R378, R338).
[DESIGN CHOICE, log 14] -/
def State.installCirc (s : State) (x : Circ) : State :=
  let s1 := x.sides.foldl (fun t y => t.modCirc y.id fun _ => y) s
  let s2 :=
    if x.ends = 0 then
      if x.port < 16 then (if (s.iq x.core x.port).bind = .unbound then s1.bindIq x.core x.port (.circ x.id) else s1)
      else s1.modOq x.core (x.port - 16) fun p =>
        if p.bind = .unbound then { p.unbind with bind := .circ x.id, credits := s.farCap x }
        else p
    else if x.ends = 1 && x.rv && (s.iq x.core x.riq).bind = .unbound then s1.bindIq x.core x.riq (.reply x.core)
    else s1
  if x.mode = 0 || x.ends = 4 then s2
  else { s2 with boot := { s2.boot with keyLoaded := sset false s2.boot.keyLoaded x.keyslot false } }

/-! ## Failing and releasing (R379 to R381, R383) -/

/-- The circuits that share the fate of one: the members of its bond and both sides of a relay. -/
def State.mates (s : State) (id : Nat) : List Nat :=
  let x := s.circ id
  let sides := x.sides.map Circ.id
  let bond := if 1 < x.bondn then (s.circs.filter fun e => e.2.state != .free && e.2.tag == x.tag && e.2.bondn == x.bondn).map (·.1)
    else []
  (id :: sides ++ bond).eraseDups

/-- Members of the bond that a circuit belongs to, on its own side of a relay, else itself (R383). -/
def State.bond (s : State) (id : Nat) : List Nat :=
  let x := s.circ id
  if x.bondn ≤ 1 then [id]
  else (s.circs.filter fun e =>
    e.2.state != .free && e.2.tag == x.tag && e.2.bondn == x.bondn && e.2.mirror == x.mirror).map (·.1)

/-- Returned entries that a circuit brought and the Kiln has not applied are dropped unanswered (R381). -/
def State.dropReturns (s : State) (id : Nat) : State :=
  { s with kiln := { s.kiln with queue := s.kiln.queue.filter fun q => match q with
      | .retPkt _ _ c _ _ => c != id
      | .step .. | .ret .. => true } }

/-- Circuits that no longer owe the answer to a revoke's probe (R316). -/
def State.dropProbes (s : State) (ids : List Nat) : State :=
  { s with wins := s.wins.map fun e => (e.1, { e.2 with probes := e.2.probes.filter fun i => !ids.contains i }) }

/-- What a failure does at the end that a circuit has here (R241, R381). -/
def State.endFailed (s : State) (x : Circ) : State :=
  if x.ends = 0 then
    (if x.port < 16 then s.modIq x.core x.port fun p => { p with failed := true }
     else s.modOq x.core (x.port - 16) fun p => { p with failed := true })
  else if x.ends = 1 then s.failRemote x.core x.remote
  else if x.ends = 2 then s.dropReturns x.id
  else s

/-- The id by which the package names a circuit: that of the side on LINK (R378, R380). -/
def Circ.ownId (x : Circ) : Nat := if x.mirror then circId x.outlink x.outidx else x.id

/-- A circuit goes to FAILED with a reason of Table 17.7: its mates with it, one notice, FAIL on each link that is not
DOWN (R380, R383). [DEDUCED, log 41] -/
def State.failCirc (s : State) (id reason : Nat) : State :=
  if (s.circ id).state != .isOpen then s
  else
    let x := s.circ id
    let ms := s.mates id
    let s1 := ms.foldl (fun t m =>
      (t.modCirc m fun y => { y with state := .failed, reason := reason, txq := [], rxBuf := [], mrsp := [], mrspData := false,
                                     relay := [], probes := [], reqData := none }).tellPeer (m / 16) 5 (m % 16)) s
    ((s1.endFailed x).dropProbes ms).notify
      { w0 := noticeW0 x.tag.toNat 4 x.owner x.world, w1 := BitVec.ofNat 64 (reason <<< 16 + x.ownId), w2 := 0, w3 := 0 }

/-- What a circuit, or any member of its bond, holds at its end here is dropped, and its ports become unbound (R292, R379). -/
def State.unbindPort (s : State) (x : Circ) : State :=
  let ms := s.bond x.id
  if x.ends = 0 then
    let s1 := ms.foldl (fun t m => t.modCirc m fun y => { y with txq := [], rxBuf := [] }) s
    if x.port < 16 then s1.modIq x.core x.port fun p => if ms.any fun m => p.bind == .circ m then p.unbind else p
    else s1.modOq x.core (x.port - 16) fun p => if ms.any fun m => p.bind == .circ m then p.unbind else p
  else if x.ends = 2 then s.dropReturns x.id
  else if x.ends = 1 then
    let s1 := s.failRemote x.core x.remote
    if x.rv && !((s.circs.any fun e => e.1 != x.id && e.2.state != .free && e.2.ends == 1 && e.2.core == x.core && e.2.rv &&
        e.2.riq == x.riq)) then
      s1.modIq x.core x.riq fun p => if p.bind = .reply x.core then { p with bind := .unbound } else p
    else s1
  else s

/-- Release a circuit: entries dropped, ports unbound, the key erased, CLOSE sent, the index FREE (R379, R419).
[DEDUCED, log 33] -/
def State.releaseCirc (s : State) (id : Nat) : State :=
  let x := s.circ id
  let s0 := (s.unbindPort x).dropProbes [id]
  let s1 := x.sides.foldl (fun t y => ({ t with circs := sdel y.id t.circs }).tellPeer y.link 6 y.index) s0
  if x.mode = 0 || x.ends = 4 then s1
  else { s1 with boot := { s1.boot with keySlots := sset 0 s1.boot.keySlots x.keyslot 0
                                        keyLoaded := sset false s1.boot.keyLoaded x.keyslot false } }

/-- Release every circuit with a port or remote-engine end on a list of cores (R409). -/
def State.releaseEnds (s : State) (cores : List Nat) : State :=
  ((s.circs.filter fun e => e.2.state != .free && decide (e.2.ends < 2) && cores.contains e.2.core).map (·.1)).foldl
    State.releaseCirc s

/-- The ports of a core that routes join to some cores lose them: what came from those cores is dropped, and credits of theirs are none
(R379). -/
def Core.cutRoutes (k : Core) (cores : List Nat) : Core :=
  let iqCut (p : IqPort) : IqPort := match p.bind with
    | .route c _ => if cores.contains c then p.unbind else p
    | .circ _ | .kiln _ | .reply _ | .unbound => p
  let oqCut (p : OqPort) : OqPort := match p.bind with
    | .route c _ => if cores.contains c then p.unbind else p
    | .circ _ | .unbound => p
  { k with iq := k.iq.map fun e => (e.1, iqCut e.2), oq := k.oq.map fun e => (e.1, oqCut e.2) }

/-- Release every route with an end on a list of cores at its other end: a route is a circuit on the package, and R409 releases each
circuit with a port in the scope as R379 gives. [DEDUCED, log 41] -/
def State.releaseRoutes (s : State) (cores : List Nat) : State :=
  { s with cores := s.cores.map fun e => (e.1, if cores.contains e.1 then e.2 else e.2.cutRoutes cores) }

/-- Every circuit on a link goes to FAILED with reason LINK (R375). -/
def State.failLink (s : State) (l : Nat) : State :=
  ((s.circsOn l).map (·.1)).foldl (fun t id => t.failCirc id 2) s

end Sys2Proof.Machine
end

