-- ==== Sys2Proof/Machine/ConfigUnit.lean ====
section
/-! DEFINITION. The configuration unit (spec/12 R276, R284 to R292, spec/18 R404 to R408, spec/19 R422, R423, R460): core
sections and shadows, commits, the reconfiguration token, segments, windows and circuit binds. -/

namespace Sys2Proof.Machine

/-! ## Selectors and regions (R276) -/

/-- A core selector: the core and the stage bits. -/
def selector (x : Word) : Res (Nat × Nat) :=
  let n := fld x.toNat 0 9
  let t := fld x.toNat 10 3
  if 2 ^ 13 ≤ x.toNat then illop 0x59
  else if x.getLsbD 9 then (if n < 8 then .ok (512 + n, t) else illop 0x59)
  else if n ≤ 287 then .ok (n, t) else illop 0x59

/-- A region lies on the 16 x 18 grid. -/
def Region.ok (r : Region) : Bool := decide (1 ≤ r.w) && decide (1 ≤ r.h) && decide (r.x + r.w ≤ 16) && decide (r.y + r.h ≤ 18)

/-- A region operand. -/
def regionOf (x : Word) : Res Region :=
  let r : Region := { x := fld x.toNat 0 8, y := fld x.toNat 8 8, w := fld x.toNat 16 8, h := fld x.toNat 24 8 }
  if 2 ^ 32 ≤ x.toNat || !r.ok then illop 0x59 else .ok r

/-- Two regions share a core. -/
def Region.meets (a b : Region) : Bool :=
  decide (a.x < b.x + b.w) && decide (b.x < a.x + a.w) && decide (a.y < b.y + b.h) && decide (b.y < a.y + a.h)

/-- The smallest rectangle around some compute cores. [DEDUCED, log 37] -/
def boxOf (l : List Nat) : Region :=
  let xs := l.map (· % 16)
  let ys := l.map (· / 16)
  let lo (m : List Nat) := m.foldl min 288
  let hi (m : List Nat) := m.foldl max 0
  { x := lo xs, y := lo ys, w := hi xs + 1 - lo xs, h := hi ys + 1 - lo ys }

/-! ## Segment descriptors and windows (R289, R290, R301) -/

/-- A range of physical memory from a base lies wholly in the slices, or wholly in hub SRAM; in the secure region only
for a secure descriptor. -/
def rangeOk (base len : Nat) (world : Bool) : Bool :=
  decide (base + len ≤ 0x480000000) ||
    (decide (0x800000000 ≤ base) && decide (base + len ≤ 0x880000000) && (world || decide (base + len ≤ 0x870000000)))

/-- seg.set accepts a descriptor; one with LIMIT 0 maps nothing, and its base is not checked. [DESIGN CHOICE, log 73] -/
def segOk (d : Word) : Bool :=
  fld d.toNat 8 8 == 0 && (segLimit d == 0 || rangeOk (segBase d * 65536) (segLimit d * 65536) (segWorld d))

/-! ## CRC-32C (R423) -/

/-- One bit of a reflected CRC. -/
def crcBit (poly c : BitVec 32) : BitVec 32 := if c.getLsbD 0 then (c >>> 1) ^^^ poly else c >>> 1

/-- One byte of a reflected CRC. -/
def crcByte (poly c : BitVec 32) (b : Byte) : BitVec 32 :=
  (List.range 8).foldl (fun x _ => crcBit poly x) (c ^^^ b.setWidth 32)

/-- A reflected CRC with initial value and final XOR all ones. -/
def crc (poly : BitVec 32) (bs : List Byte) : BitVec 32 := ~~~(bs.foldl (crcByte poly) (BitVec.allOnes 32))

/-- CRC-32C. -/
def crc32c (bs : List Byte) : BitVec 32 := crc 0x82F63B78#32 bs

/-! ## Core sections (Table 19.7) -/

/-- Number of descriptors of a section. -/
def popcount16 (n : Nat) : Nat := ((List.range 16).filter n.testBit).length

/-- Offsets within a section: descriptors, bundles, data, end. -/
structure SecLayout where
  segs : Nat
  code : Nat
  data : Nat
  stop : Nat

def secLayout (bs : List Byte) : SecLayout :=
  let a := ceilDiv (128 + 4 * leAt bs 34 1) 8 * 8
  let b := ceilDiv (a + 8 * popcount16 (leAt bs 40 2)) 32 * 32
  let c := b + 32 * leAt bs 6 2
  { segs := a, code := b, data := c, stop := c + leAt bs 12 4 }

/-- The section's bytes as its CRC takes them: bytes 60..63 and the route words zero. -/
def crcView (bs : List Byte) : List Byte :=
  let stop := 128 + 4 * leAt bs 34 1
  (List.range bs.length).map fun i =>
    if (decide (60 ≤ i) && decide (i < 64)) || (decide (128 ≤ i) && decide (i < stop)) then 0 else bs.getD i 0

/-- The stored CRC matches. [DEDUCED, log 36] -/
def crcOk (bs : List Byte) : Bool := decide (64 ≤ bs.length) && (crc32c (crcView bs)).toNat == leAt bs 60 4

/-- Route word fields. -/
def routeDx (w : BitVec 32) : Int := (w.extractLsb' 0 6).toInt
def routeDy (w : BitVec 32) : Int := (w.extractLsb' 6 6).toInt
def routeIq (w : BitVec 32) : Nat := fld w.toNat 12 4
def routeOq (w : BitVec 32) : Nat := fld w.toNat 16 4
def routeExt (w : BitVec 32) : Bool := w.getLsbD 20

/-- A route word of a core has a reserved field, or leaves the grid. -/
def badRoute (c : Nat) (w : BitVec 32) : Bool :=
  let x : Int := (c % 16 : Nat) + routeDx w
  let y : Int := (c / 16 : Nat) + routeDy w
  fld w.toNat 21 11 != 0 ||
    (if routeExt w then routeDx w != 0 || routeDy w != 0
     else decide (x < 0) || decide (16 ≤ x) || decide (y < 0) || decide (18 ≤ y))

/-- The consumer core of a route. -/
def routeTo (c : Nat) (w : BitVec 32) : Nat := ((c : Int) + 16 * routeDy w + routeDx w).toNat

/-- The PORTS field from an offset: input rates, capacities, output rates. -/
def portsAt (bs : List Byte) (o : Nat) : Store Nat × Store Nat × Store Nat :=
  let put (m : Store Nat) (k v : Nat) := sset 0 m k v
  ((List.range 16).foldl (fun m n => put m n (leAt bs (o + 2 * n) 1)) [],
   (List.range 16).foldl (fun m n => put m n (leAt bs (o + 1 + 2 * n) 1)) [],
   (List.range 16).foldl (fun m n => put m n (leAt bs (o + 32 + 2 * n) 1)) [])

/-- A PORTS field out of range (Table 4.2, Table 19.7). [DEDUCED, log 36] -/
def badPorts (bs : List Byte) (o : Nat) : Bool :=
  (List.range 16).any fun n =>
    let r := leAt bs (o + 2 * n) 1
    let c := leAt bs (o + 1 + 2 * n) 1
    (!(r == 0 && c == 0) && !(decide (1 ≤ r) && decide (r ≤ c) && decide (2 ≤ c) && decide (c ≤ 16))) ||
      decide (16 < leAt bs (o + 32 + 2 * n) 1) || leAt bs (o + 33 + 2 * n) 1 != 0

/-- The shadow that a section describes. -/
def shadowOf (bs : List Byte) : Shadow :=
  let u (o n : Nat) := leAt bs o n
  let l := secLayout bs
  let p := portsAt bs 64
  let mask := u 40 2
  let ns := (List.range 16).filter mask.testBit
  let stage : Stage :=
    { Stage.reset with
      state := .resident, prio := BitVec.ofNat 3 (u 5 1), entry := BitVec.ofNat 12 (u 28 2)
      marker := if u 30 2 = 0xFFFF then none else some (BitVec.ofNat 12 (u 30 2))
      cbase := u 42 2, nbun := u 6 2, vlo := BitVec.ofNat 8 (u 20 1), vhi := BitVec.ofNat 8 (u 21 1)
      masks := BitVec.ofNat 16 (u 22 2), accs := BitVec.ofNat 16 (u 24 2), bats := BitVec.ofNat 2 (u 26 1)
      keep := BitVec.ofNat 8 (u 27 1), inRate := p.1, outRate := p.2.2
      inst := if (u 33 1).testBit 7 then some (BitVec.ofNat 3 (u 33 1)) else none, instPkg := BitVec.ofNat 8 (u 32 1) }
  { stage := stage, limit := BitVec.ofNat 32 (u 8 4)
    bundles := (List.range (u 6 2)).map fun i => BitVec.ofNat 256 (u (l.code + 32 * i) 32)
    data := (bs.drop l.data).take (u 12 4), dataOff := u 16 4, bssLen := u 36 4
    owner := BitVec.ofNat 4 (u 35 1), world := (u 35 1).testBit 4
    segs := (List.range ns.length).map fun j => (ns.getD j 0, BitVec.ofNat 64 (u (l.segs + 8 * j) 8))
    caps := p.2.1
    routes := (List.range (u 34 1)).map fun j => BitVec.ofNat 32 (u (128 + 4 * j) 4)
    group := none }

/-- A section is out of range by itself, for stage t of core c (R284 check 4, R423, R460). [DEDUCED, log 36] -/
def badSection (bs : List Byte) (c t : Nat) : Bool :=
  let u (o n : Nat) := leAt bs o n
  let x := shadowOf bs
  let last := u 42 2 + u 6 2
  let inside (i : Nat) : Bool := decide (u 42 2 ≤ i) && decide (i < last)
  decide (bs.length < 128) || (bs.take 4 != [0x4A, 0x51, 0x53, 0x53]) || u 4 1 != t || decide (8 ≤ u 5 1) || u 6 2 == 0 ||
  u 16 4 % 64 != 0 || decide (0x4000000 < u 16 4 + u 12 4 + u 36 4) || (u 22 2).testBit 0 || decide (4 ≤ u 26 1) ||
  fld (u 33 1) 3 4 != 0 || decide (32 < u 34 1) || decide (32 ≤ u 35 1) || ((bs.drop 44).take 16).any (· != 0) ||
  decide (4096 < last) || !inside (u 28 2) || (u 30 2 != 0xFFFF && !inside (u 30 2)) || badPorts bs 64 ||
  decide (bs.length < (secLayout bs).stop) || x.routes.any (badRoute c) || x.segs.any fun d => !segOk d.2

/-! ## cfg.load (R284, R460) -/

/-- Declarations of two stages overlap (R40); a port belongs to one stage of its core (R337). -/
def declOverlap (a b : Stage) : Bool :=
  share (fun _ => true) a.ins b.ins || share (fun _ => true) a.outs b.outs ||
  (decide (a.vlo.toNat ≤ a.vhi.toNat) && decide (b.vlo.toNat ≤ b.vhi.toNat) && decide (a.vlo.toNat ≤ b.vhi.toNat) &&
    decide (b.vlo.toNat ≤ a.vhi.toNat)) || a.masks &&& b.masks != 0 || a.accs &&& b.accs != 0 || a.bats &&& b.bats != 0

/-- Code ranges of two stages overlap. -/
def codeOverlap (a b : Stage) : Bool := decide (a.cbase < b.cbase + b.nbun) && decide (b.cbase < a.cbase + a.nbun)

/-- The resident stages of a core other than t. -/
def Core.otherStages (k : Core) (t : Nat) : List (Nat × Stage) := k.stages.filter fun e => e.1 != t && e.2.state != .none
/-- The shadows of a core other than stage t's. -/
def Core.otherShadows (k : Core) (t : Nat) : List (Nat × Shadow) := k.shadow.filter fun e => e.1 != t

def shadowReset : Shadow :=
  { stage := Stage.reset, limit := 0, bundles := [], data := [], dataOff := 0, bssLen := 0, owner := 0, world := false,
    segs := [], caps := [], routes := [], group := none }

/-- A load clashes with the other stages of the core. -/
def Core.clash (k : Core) (t : Nat) (x : Stage) : Bool :=
  (k.otherStages t).any (fun e => declOverlap x e.2 || (!(k.shadow.any fun q => q.1 == e.1) && codeOverlap x e.2)) ||
  (k.otherShadows t).any fun e => declOverlap x e.2.stage || codeOverlap x e.2.stage

/-- The capacity of iq n of a core once the shadow of stage t and the other shadows are committed: what a shadow declares, else
that of a port which stays bound, or which belongs to a stage that stays (R20). -/
def Core.capAfter (k : Core) (t : Nat) (x : Shadow) (n : Nat) : Nat :=
  let news := (t, x) :: k.otherShadows t
  let p := k.inp n
  match news.find? fun e => e.2.stage.ins.contains n with
  | some e => sget 0 e.2.caps n
  | none => if p.bind != .unbound || p.owner.any (fun o => news.all fun e => e.1 != o) then p.cap else 0

/-- With a load, the capacities of the core's ports would pass the 64 slots of its queue store (R20). -/
def Core.overStore (k : Core) (t : Nat) (x : Shadow) : Bool := decide (64 < ((List.range 16).map (k.capAfter t x)).sum)

/-- The reason to refuse a load, if any. [DEDUCED, log 35; DEDUCED, log 36] -/
def State.loadRefusal (s : State) (c t : Nat) (bs : List Byte) (world : Bool) : Option Nat :=
  let k := s.core c
  let x := shadowOf bs
  if isHub c then some 3
  else if k.failed then some 9
  else if !crcOk bs then some 8
  else if badSection bs c t || k.clash t x.stage || k.overStore t x then some 3
  else if x.world && !world then some 4
  else if x.segs.any fun d => segOwner d.2 != x.owner.toNat || segWorld d.2 != x.world then some 4
  else if (!(k.otherStages t).isEmpty || !(k.otherShadows t).isEmpty) && (x.owner != k.ctxOwner || x.world != k.ctxWorld) then
    some 4
  else none

/-- The quarters of the cores of a region are awake: a configuration command that takes effect reaches them (R435). [DEDUCED, log 64] -/
def State.wakeRegion (s : State) (r : Region) : State := s.wakeAll ((r.cores.map quarterOf).eraseDups)

/-- cfg.load at the configuration unit; `group` is the rectangle of the STAGE section that a domain image gives. -/
def State.applyLoad (s : State) (c t : Nat) (bs : List Byte) (world : Bool) (group : Option Region) : State × Word :=
  match s.loadRefusal c t bs world with
  | some r => (s, rRefused r)
  | none => ((s.wake c).modCore c fun k => { k with shadow := sput t { shadowOf bs with group := group } k.shadow }, rEntry 0)

/-! ## Installing a shadow (Table 1.13, R422) -/

/-- Write zero bytes. -/
def State.zero (s : State) (a n : Nat) : State :=
  { s with
    mem := s.mem.filter fun e => decide (e.1 < a) || decide (a + n ≤ e.1)
    eccBad := s.eccBad.filter fun b => !(decide (a ≤ b) && decide (b < a + n))
    eccSeen := s.eccSeen.filter fun w => !(decide (a < 8 * w + 8) && decide (8 * w < a + n)) }

/-- The slots of a consumer that a producer's port holds: the tile it is assembling and the entries behind a read (R230, R236). -/
def OqPort.inHand (p : OqPort) : Nat := (if p.cur.isSome then 1 else 0) + p.outq.length

/-- A consumer port has been emptied: the slots of its entries return to the producer as free-slot notices, which bring it to the
full credits of the capacity, less what it has in hand; a circuit's in CREDIT flits, a token's that is paid for among them (R46, R338).
[DEDUCED, log 39] -/
def State.freeSlots (s : State) (b : InBind) (dropped cap : Nat) : State :=
  match b with
  | .route c n => s.modOq c n fun p =>
      let room := cap - p.inHand
      let now := min p.credits room
      { p with credits := now, notices := room - now }
  | .kiln i => s.modInst i fun x => { x with credits := cap }
  | .circ id => s.modCirc id fun x => { x with credOut := x.credOut + dropped }
  | .reply _ | .unbound => s

/-- The instance whose Kiln port is iq n of core c (Table 16.1). -/
def State.kilnPortOf (s : State) (c n : Nat) : Option Nat :=
  (s.kiln.insts.find? fun e => e.2.pool != 0 && e.2.kcore == c && e.2.kiq == n).map (·.1)

/-- Empty inbound port n of core c for the stage that owns it from now on, if any. What the Kiln has still to deliver to it stays
with the Kiln (R359). [DEDUCED, log 39] -/
def State.loadIq (s : State) (c : Nat) (owner : Option Nat) (n cap : Nat) : State :=
  let b := match s.kilnPortOf c n with
    | some i => InBind.kiln i
    | none => (s.iq c n).bind
  (s.modIq c n fun p => { IqPort.reset with bind := b, cap := cap, owner := owner, failed := p.failed }).freeSlots b
    ((s.iq c n).taken - (s.iq c n).owed) cap

/-- Prepare outbound port n of core c for the stage that owns it from now on, if any: over a binding that stands, the slot of the
tile that was being assembled is free again (R338). [DEDUCED, log 39] -/
def State.loadOq (s : State) (c : Nat) (owner : Option Nat) (n : Nat) : State :=
  s.modOq c n fun p =>
    { p with owner := owner, credits := p.credits + (if p.cur.isSome then 1 else 0), cur := none, pushed := 0 }

/-- The stage to which the placement of the accepted epoch assigns flag i of core c (R41). [DESIGN CHOICE, log 15] -/
def State.flagStage (s : State) (c i : Nat) : Nat := (Config.flagStage (s.boot.epoch.getD 0).toNat c i).toNat

/-- A flag of another resident stage (R46). -/
def Core.flagTaken (k : Core) (t : Nat) (f : Flag) : Bool := f.owner.any fun o => o != t && (k.stage o).state != .none

/-- A load of stage t takes the flags that the placement assigns to it, at their load values, and gives up the others that it had; a
flag of another resident stage keeps its value and its stage (R41, R46, Table 1.13). [DESIGN CHOICE, log 15] -/
def Core.loadFlags (k : Core) (t : Nat) (own : Nat → Nat) : Store Flag :=
  (List.range 64).foldl (fun m i =>
    smod Flag.reset m i fun f =>
      if k.flagTaken t f then f
      else if own i = t then { Flag.reset with owner := some t }
      else if f.owner = some t then { f with owner := none } else f) k.cf

/-- The part of a load within the core: contexts, declarations, flags, result entries, segments, code. -/
def Core.loadStage (k : Core) (t : Nat) (x : Shadow) (st : StageState) (group : Region) (own : Nat → Nat) : Core :=
  let k1 := (k.setCtx t { Ctx.reset with fireLimit := x.limit }).clearDecl x.stage
  let k2 := k1.setStage t { x.stage with state := st, group := group }
  { k2 with
    cf := k2.loadFlags t own
    rq := (List.range 3).foldl (fun m e => smod [] m e fun l => l.filter fun r => r.stage != t) k2.rq
    seg := x.segs.foldl (fun m d => sset 0 m d.1 d.2) k2.seg
    ctxOwner := x.owner, ctxWorld := x.world
    istore := (List.range x.bundles.length).foldl (fun m i => sset 0 m (x.stage.cbase + i) (x.bundles.getD i 0)) k2.istore
    shadow := sdel t k2.shadow
    firing := if k2.firing = some t then none else k2.firing }

/-- Install the shadow of stage t of core c. Ports that the old stage had and the new one does not declare are emptied and belong to
no stage; they stay bound. [DEDUCED, log 39] -/
def State.install (s : State) (c t : Nat) (st : StageState) : State :=
  let x := sget shadowReset (s.core c).shadow t
  let old := (s.core c).stage t
  let s1 := old.ins.foldl (fun q n => q.settleHeld c n old) s
  let s2 := s1.modCore c fun k => k.loadStage t x st (x.group.getD (boxOf [c])) (s.flagStage c)
  let gone := (old.ins.filter fun n => !x.stage.ins.contains n).foldl (fun q n => q.loadIq c none n (q.iq c n).cap) s2
  let s3 := x.stage.ins.foldl (fun q n => q.loadIq c (some t) n (sget 0 x.caps n)) gone
  let gone2 := (old.outs.filter fun n => !x.stage.outs.contains n).foldl (fun q n => q.loadOq c none n) s3
  let s4 := x.stage.outs.foldl (fun q n => q.loadOq c (some t) n) gone2
  (s4.store (c * 0x4000000 + x.dataOff) x.data).zero (c * 0x4000000 + x.dataOff + x.data.length) x.bssLen

/-- The ends that a new route leaves: the producer's old consumer, whose entries are discarded with its next binding, and the consumer's
old producer (R338, R407). -/
def State.disconnect (s : State) (c n d m : Nat) : State :=
  let s1 : State := match (s.oq c n).bind with
    | .route c2 m2 => s.modIq c2 m2 fun p => if p.bind = .route c n then { p with bind := .unbound } else p
    | _ => s
  match (s1.iq d m).bind with
  | .route c2 n2 => s1.modOq c2 n2 fun p => if p.bind = .route d m then p.unbind else p
  | _ => s1

/-- Bind a route (Table 19.7, R338): one that stands takes the slots that the load has freed; a new one takes the full credits, and
entries that the old binding had brought are discarded and their charges settled (R407). EXT words bind nothing. A port that a new image
declares and gives no route word keeps the binding that it has. [DEDUCED, log 38; DEDUCED, log 39; DESIGN CHOICE, log 39] -/
def State.connect (s : State) (c : Nat) (w : BitVec 32) : State :=
  let n := routeOq w
  let d := routeTo c w
  let m := routeIq w
  if routeExt w then s
  else if (s.oq c n).bind = .route d m && (s.iq d m).bind = .route c n then
    s.modOq c n fun p => { p with credits := p.credits + p.notices, notices := 0 }
  else
    let user := (s.core d).stage ((s.iq d m).owner.getD 8)
    let s1 := (s.settleHeld d m user).disconnect c n d m
    (s1.modOq c n fun p => { p.unbind with bind := .route d m, credits := (s.iq d m).cap }).modIq d m
      fun p => { p with bind := .route c n, q := [], coming := [], held := [], beat := 0, word := 0, openCh := false, failed := false, owed := 0 }

/-! ## cfg.commit and cfg.abort (R285, R287) -/

/-- Cores of a region with a shadow. -/
def State.shadowed (s : State) (r : Region) : List Nat := r.cores.filter fun c => !(s.core c).shadow.isEmpty

/-- A HALTED stage is in a firing that has not ended, MARKSEQ apart, or would be replaced, which HALTED forbids (R152, R398). -/
def Core.haltedBusy (k : Core) : Bool :=
  k.stages.any fun e => e.2.state == .halted && (e.2.haltCause != 0x10 || k.shadow.any fun q => q.1 == e.1)

/-- A core refuses a commit: in a firing, a stream port OPEN, an engine busy (R285). [DEDUCED, log 37] -/
def Core.cfgBusy (k : Core) : Bool := k.firing.isSome || k.haltedBusy || k.busyWord != 0

/-- Core c belongs to the secure world: a hub core by its CORE.CTX, a compute core also only while a stage is resident.
[DEDUCED, log 35] -/
def Core.secureAt (k : Core) (c : Nat) : Bool := k.ctxWorld && (isHub c || k.stages.any fun e => e.2.state != .none)

/-- A region holds a secure core or shadow, on which a non-secure caller below M may not act (R273). -/
def State.secureIn (s : State) (r : Region) : Bool :=
  r.cores.any fun c => (s.core c).secureAt c || (s.core c).shadow.any fun e => e.2.world

/-- The shadows of some cores: core and stage. -/
def State.shadowList (s : State) (cores : List Nat) : List (Nat × Nat) :=
  cores.flatMap fun c => (s.core c).shadow.map fun e => (c, e.1)

/-- The rectangle of a stage that cfg.load gave: the cores committed together that take the same stage number, priority and code
(R347). [DEDUCED, log 37] -/
def State.groupOf (s : State) (cores : List Nat) (t : Nat) (x : Shadow) : Region :=
  boxOf (cores.filter fun c => (s.core c).shadow.any fun e =>
    e.1 == t && e.2.bundles == x.bundles && e.2.stage.prio == x.stage.prio)

/-- The shadows that are about to be committed on some cores, each with its rectangle. -/
def State.setGroups (s : State) (cores : List Nat) : State :=
  cores.foldl (fun q c => q.modCore c fun k => { k with shadow := k.shadow.map fun e =>
    (e.1, { e.2 with group := some (e.2.group.getD (s.groupOf cores e.1 e.2)) }) }) s

/-- Install every shadow of core c. -/
def State.installCore (s : State) (c : Nat) (st : StageState) : State :=
  (s.core c).shadow.foldl (fun q e => q.install c e.1 st) s

/-- The route words of a core's shadows. -/
def Core.shadowRoutes (k : Core) : List (BitVec 32) := k.shadow.flatMap fun e => e.2.routes

/-- cfg.commit at the configuration unit, for a caller that acts on secure resources or not. Of a region that is both secure and busy,
WORLD is the reason given. [DEDUCED, log 35; DESIGN CHOICE, log 72] -/
def State.applyCommit (s : State) (r : Region) (start world : Bool) : State × Word :=
  let cores := s.shadowed r
  if !world && s.secureIn r then (s, rRefused 4)
  else if r.cores.any fun c => (s.core c).cfgBusy then (s, rRefused 6)
  else
    let routes := cores.flatMap fun c => (s.core c).shadowRoutes.map fun w => (c, w)
    let s1 := cores.foldl (fun q c => q.installCore c .resident) ((s.wakeRegion r).setGroups cores)
    let s2 := routes.foldl (fun q w => q.connect w.1 w.2) s1
    let go (k : Core) : Core := { k with stages := k.stages.map fun e =>
      (e.1, if e.2.state = .resident then { e.2 with state := .eligible } else e.2) }
    (if start then r.cores.foldl (fun q c => q.modCore c go) s2 else s2, rEntry cores.length)

/-- cfg.abort at the configuration unit. [DEDUCED, log 35] -/
def State.applyDrop (s : State) (r : Region) (world : Bool) : State × Word :=
  if s.tokens.any fun t => t.region.meets r then (s, rRefused 10)
  else if !world && s.secureIn r then (s, rRefused 4)
  else ((s.shadowed r).foldl (fun q c => q.modCore c fun k => { k with shadow := [] }) s, rEntry (s.shadowed r).length)

/-! ## The reconfiguration token (R286, R405 to R407) -/

/-- Stage t of core c is a replaced stage of a region. -/
def State.replaced (s : State) (r : Region) (c t : Nat) : Bool :=
  r.cores.contains c && (s.core c).shadow.any fun e => e.1 == t

/-- The producer at iq n of core c is not a replaced stage: the port is a boundary port. -/
def State.boundary (s : State) (r : Region) (c n : Nat) : Bool :=
  match (s.iq c n).bind with
  | .route c2 m =>
    match (s.oq c2 m).owner with
    | some t => !s.replaced r c2 t
    | none => true
  | _ => true

/-- Make the token due on every boundary port of a region's replaced stages, and place those that can be.
[DEDUCED, log 38] -/
def State.injectToken (s : State) (r : Region) : State :=
  let ports := (s.shadowed r).flatMap fun c =>
    (s.core c).shadow.flatMap fun e => (((s.core c).stage e.1).ins.filter fun n => s.boundary r c n).map fun n => (c, n)
  ports.foldl (fun q x =>
    (q.modIq x.1 x.2 fun p => { p with tokenDue := true }).tryToken x.1 x.2) s

/-- A core had a stage beyond RESIDENT when the token was placed (R406). -/
def Core.started (k : Core) : Bool :=
  k.stages.any fun e => e.2.state == .eligible || e.2.state == .firing || e.2.state == .halted

/-- cfg.tok at the configuration unit; the entry is filled when every core has committed. Where several reasons to refuse hold, the first
of TOKEN, STATE and WORLD is given. [DEDUCED, log 35; DESIGN CHOICE, log 72] -/
def State.applyTok (s : State) (r : Region) (world : Bool) (rq : RqRef) : State :=
  if s.tokens.any fun t => t.region == r then s.fill rq (rRefused 10)
  else if (s.shadowed r).isEmpty then s.fill rq (rRefused 7)
  else if !world && s.secureIn r then s.fill rq (rRefused 4)
  else
    let cores := s.shadowed r
    { ((s.wakeRegion r).setGroups cores).injectToken r with
      tokens := s.tokens ++ [{ region := r, rq := rq, stages := s.shadowList cores, todo := cores, started := cores.filter fun c => (s.core c).started
                               routes := [] }] }

/-- A command waits behind a pending token (R288). [DEDUCED, log 37] -/
def State.cfgHeld (s : State) : CfgCmd → Bool
  | .load c _ _ _ _ _ => s.tokens.any fun t => t.region.cores.contains c
  | .commit r _ _ _ => s.tokens.any fun t => t.region.meets r
  | .drop _ _ _ => false
  | .tok r _ _ => s.tokens.any (fun t => t.region.meets r) && !s.tokens.any fun t => t.region == r
  | .take r => s.tokens.any fun t => t.region.meets r

/-- No result entry: the commands that an image brings fill none. -/
def imageRq : RqRef := { core := 512, eng := 3, id := 0 }

/-- The commit of an image's region: by the reconfiguration token where a core of it runs a stage, as Table 19.11 has the surviving
regions take their new circuits, else directly (R425, R430). [DEDUCED, log 47] -/
def State.applyTake (s : State) (r : Region) : State :=
  if (s.shadowed r).any fun c => (s.core c).started then s.applyTok r true imageRq else (s.applyCommit r false true).1

/-- Apply one command and fill its entry. [DEDUCED, log 37] -/
def State.applyCfg (s : State) : CfgCmd → State
  | .load c t bs w group rq => let r := s.applyLoad c t bs w group; r.1.fill rq r.2
  | .commit r start w rq => let x := s.applyCommit r start w; x.1.fill rq x.2
  | .drop r w rq => let x := s.applyDrop r w; x.1.fill rq x.2
  | .tok r w rq => s.applyTok r w rq
  | .take r => s.applyTake r

/-- Apply waiting commands in arrival order, up to the first that must wait. -/
def State.drainCfg (s : State) : Nat → State
  | 0 => s
  | fuel + 1 =>
    match s.cfgWait with
    | [] => s
    | x :: t => if s.cfgHeld x then s else ({ s with cfgWait := t }.applyCfg x).drainCfg fuel

/-- A command arrives at the configuration unit. [DEDUCED, log 37] -/
def State.submit (s : State) (x : CfgCmd) : State :=
  let s1 := { s with cfgWait := s.cfgWait ++ [x] }
  s1.drainCfg s1.cfgWait.length

/-! ## The configuration instructions -/

/-- A command of the configuration unit: it reserves an entry, which the unit fills. -/
def cfgOp (pg : PReg) (cmd : State → State → Res (RqRef → CfgCmd)) : SlotOp :=
  enOp .hub 1 pg Uses.none fun pre cur => do
    need (pre.me.rqFree 2) waiting
    let x ← cmd pre cur
    let r := cur.reserve 2
    .ok (r.1.submit (x r.2))

/-- R284: the bytes are read at the commit of the bundle -/
def opCfgLoad (pg : PReg) (ga gb gc : GReg) : SlotOp :=
  cfgOp pg fun pre cur => do
    let x ← selector (pre.g ga)
    let n := (pre.g gc).toNat
    let pa ← pre.range .engRd (pre.g gb) 1 n
    .ok fun rq => .load x.1 x.2 (cur.bytes pa n) pre.me.ctxWorld none rq
def execCfgLoad (pg : PReg) (ga gb gc : GReg) (s : State) : Host.Outcome State Fault Refusal :=
  issue (opCfgLoad pg ga gb gc) s

/-- R285 -/
def opCfgCommit (pg : PReg) (ga : GReg) (start : Bool) : SlotOp :=
  cfgOp pg fun pre _ => do
    let r ← regionOf (pre.g ga)
    .ok fun rq => .commit r start pre.me.secureCaller rq
def execCfgCommit (pg : PReg) (ga : GReg) (start : Bool) (s : State) : Host.Outcome State Fault Refusal :=
  issue (opCfgCommit pg ga start) s

/-- R287, R288: while a token is pending on the region the refusal is given at once -/
def opCfgAbort (pg : PReg) (ga : GReg) : SlotOp :=
  enOp .hub 1 pg Uses.none fun pre cur => do
    need (pre.me.rqFree 2) waiting
    let x ← regionOf (pre.g ga)
    let r := cur.reserve 2
    if cur.tokens.any fun t => t.region.meets x then .ok (r.1.fill r.2 (rRefused 10)) else .ok (r.1.submit (.drop x pre.me.secureCaller r.2))
def execCfgAbort (pg : PReg) (ga : GReg) (s : State) : Host.Outcome State Fault Refusal := issue (opCfgAbort pg ga) s

/-- R286: a region whose own token is pending is refused at once -/
def opCfgTok (pg : PReg) (ga : GReg) : SlotOp :=
  enOp .hub 1 pg Uses.none fun pre cur => do
    need (pre.me.rqFree 2) waiting
    let x ← regionOf (pre.g ga)
    let r := cur.reserve 2
    if cur.tokens.any fun t => t.region == x then .ok (r.1.fill r.2 (rRefused 10)) else .ok (r.1.submit (.tok x pre.me.secureCaller r.2))
def execCfgTok (pg : PReg) (ga : GReg) (s : State) : Host.Outcome State Fault Refusal := issue (opCfgTok pg ga) s

/-! ## Token events -/

/-- A token stands at the head of a port. -/
def IqPort.headToken (p : IqPort) : Bool :=
  match p.q with
  | e :: _ => e.kind == .token
  | [] => false

/-- Outputs of stage t of core c whose consumer is a replaced stage of the region. -/
def State.innerOuts (s : State) (r : Region) (c t : Nat) : List Nat :=
  ((s.core c).stage t).outs.filter fun n =>
    match (s.oq c n).bind with
    | .route c2 m =>
      match (s.iq c2 m).owner with
      | some t2 => s.replaced r c2 t2
      | none => false
    | _ => false

/-- TOKEN_PASS (R405, R406): a due token of the stage is placed, or the stage passes. [DEDUCED, log 38] -/
def tokenPass (c t : Nat) (s : State) : Option State :=
  match s.tokens.find? fun x => x.todo.contains c with
  | none => none
  | some tok =>
    let st := (s.core c).stage t
    if !s.replaced tok.region c t || st.passed then none
    else
      match st.ins.findSome? fun n => s.placeToken c n with
      | some s1 => some s1
      | none =>
        let outs := s.innerOuts tok.region c t
        if !s.clocked c || st.state == .firing || st.state == .halted || !(st.ins.all fun n => (s.iq c n).headToken) ||
           !(outs.all fun n => decide (0 < (s.oq c n).credits)) then none
        else
          let s1 := st.ins.foldl (fun q n => q.removeHead c n) s
          let s2 := outs.foldl (fun q n => q.pushEntry c n tokenEntry) s1
          some (s2.modCore c fun k => k.modStage t fun x => { x with passed := true })
def execTokenPass (c t : Nat) (s : State) : Host.Outcome State Fault Refusal := happen (tokenPass c t) s

/-- The core's engines, array and bank ports are empty (R286). -/
def Core.quiet (k : Core) : Bool := k.busyWord == 0 && k.arr.isEmpty && k.eng.isEmpty

/-- CORE_COMMIT (R406): the core takes its shadows; with the last core the routes are bound and the entry is filled.
[DEDUCED, log 38] -/
def coreCommit (c : Nat) (s : State) : Option State :=
  match s.tokens.find? fun x => x.todo.contains c with
  | none => none
  | some tok =>
    let k := s.core c
    if !s.clocked c || !(k.shadow.all fun e => (k.stage e.1).passed) || !k.quiet then none
    else
      let st : StageState := if tok.started.contains c then .eligible else .resident
      let tok2 := { tok with todo := tok.todo.erase c, routes := tok.routes ++ k.shadowRoutes.map fun w => (c, w) }
      let s1 := s.installCore c st
      if tok2.todo.isEmpty then
        let s2 := tok2.routes.foldl (fun q w => q.connect w.1 w.2) { s1 with tokens := s1.tokens.erase tok }
        let s3 := s2.fill tok.rq (rEntry (tok.region.w * tok.region.h))
        some (s3.drainCfg s3.cfgWait.length)
      else some { s1 with tokens := s1.tokens.map fun x => if x = tok then tok2 else x }
def execCoreCommit (c : Nat) (s : State) : Host.Outcome State Fault Refusal := happen (coreCommit c) s

/-! ## Segments (R289) -/

/-- R289 -/
def opSegSet (pg : PReg) (n : BitVec 4) (ga gb : GReg) : SlotOp :=
  enOp .hub 1 pg Uses.none fun pre cur => do
    let x ← selector (pre.g ga)
    let d := pre.g gb
    field59 (x.2 == 0 && segOk d)
    need (!segWorld d || pre.me.ctxWorld) (privFault 3)
    need (!(cur.core x.1).secureAt x.1 || pre.me.secureCaller) (privFault 3)
    .ok ((cur.wake x.1).modCore x.1 fun k => { k with seg := sset 0 k.seg n.toNat d })
def execSegSet (pg : PReg) (n : BitVec 4) (ga gb : GReg) (s : State) : Host.Outcome State Fault Refusal :=
  issue (opSegSet pg n ga gb) s

/-! ## Windows (R290, R291, R316) -/

/-- The window that win.set opens. -/
def windowOf (base size attr : Word) : Window :=
  { Window.reset with
    state := .isOpen, base := base.extractLsb' 16 24, size := size.extractLsb' 16 24, owner := attr.extractLsb' 0 4
    world := attr.getLsbD 4, rd := attr.getLsbD 5, wr := attr.getLsbD 6, at_ := attr.getLsbD 7 }

/-- R290 -/
def opWinSet (pg : PReg) (w : BitVec 8) (ga gb gc : GReg) : SlotOp :=
  enOp .hub 1 pg Uses.none fun pre cur => do
    let base := pre.g ga
    let size := pre.g gb
    let attr := pre.g gc
    need ((cur.win w.toNat).state == .free) (illop 0x5A)
    field59 (base.toNat % 65536 == 0 && size.toNat % 65536 == 0 && decide (attr.toNat < 256) &&
      rangeOk base.toNat size.toNat (attr.getLsbD 4))
    need (!attr.getLsbD 4 || pre.me.secureCaller) (privFault 3)
    .ok (cur.setWin w.toNat (windowOf base size attr))
def execWinSet (pg : PReg) (w : BitVec 8) (ga gb gc : GReg) (s : State) : Host.Outcome State Fault Refusal :=
  issue (opWinSet pg w ga gb gc) s

/-- The circuits that a revoke probes: MEMORY circuits whose window-table end is here (R316). -/
def State.probeCircs (s : State) : List Nat :=
  (s.circs.filter fun e => e.2.state == .isOpen && e.2.kind == 1 && e.2.ends == 2).map (·.1)

/-- The probe of a revoke: its RTAG names the window, and its other fields are zero. [DEDUCED, log 46] -/
def probePacket (w : Nat) : Packet :=
  { badTag := none, op := 7, code := 0, len := 0, sub := 0, rtag := BitVec.ofNat 32 w, da := 0, opnd := 0, cmp := 0,
    rest := 0, data := [] }

/-- Begin the revoke of window w. -/
def State.beginRevoke (s : State) (w : Nat) (rq : RqRef) : State :=
  let l := s.probeCircs
  let s1 := l.foldl (fun t id => t.respond id (probePacket w)) s
  s1.setWin w { s1.win w with state := .revoking, probes := l, rq := some rq }

/-- R291: an open window becomes REVOKING; its entry is filled when the revoke completes. A secure window that is REVOKING refuses a
non-secure caller with WORLD. [DESIGN CHOICE, log 72] -/
def opWinRevoke (pg : PReg) (w : BitVec 8) : SlotOp :=
  enOp .hub 1 pg Uses.none fun pre cur => do
    need (pre.me.rqFree 2) waiting
    let r := cur.reserve 2
    let x := cur.win w.toNat
    if x.state == .free then .ok (r.1.fill r.2 (rRefused 2))
    else if x.world && !pre.me.ctxWorld then .ok (r.1.fill r.2 (rRefused 4))
    else if x.state == .revoking then .ok (r.1.fill r.2 (rRefused 7))
    else .ok (r.1.beginRevoke w.toNat r.2)
def execWinRevoke (pg : PReg) (w : BitVec 8) (s : State) : Host.Outcome State Fault Refusal := issue (opWinRevoke pg w) s

/-- WINDOW_REVOKE_COMPLETE (R316): every probe is answered, or its circuit has failed or been released since. -/
def windowRevokeComplete (w : Nat) (s : State) : Option State :=
  let x := s.win w
  if x.state == .revoking && x.queued == 0 && x.probes.isEmpty then
    let s1 := (s.setWin w Window.reset).notify
      { w0 := noticeW0 0 6 x.owner x.world, w1 := BitVec.ofNat 64 w, w2 := 0, w3 := 0 }
    match x.rq with
    | some r => some (s1.fill r (rEntry 0))
    | none => some s1
  else none
def execWindowRevokeComplete (w : Nat) (s : State) : Host.Outcome State Fault Refusal := happen (windowRevokeComplete w) s

/-! ## Circuits (R292, R378, R379) -/

/-- R292, R378: bind -/
def opCircBind (pg : PReg) (ga : GReg) : SlotOp :=
  sysOp 1 pg fun pre cur => do
    let pa ← pre.tr .engRd (pre.g ga) 1 32
    let bs := cur.bytes pa 32
    let x := circOf bs
    .ok fun t =>
      match t.bindRefusal x (BitVec.ofNat 64 (leAt bs 24 8)) (pre.me.hub.priv != .m) with
      | some r => (t, rRefused r)
      | none => (t.installCirc x, rEntry x.id)
def execCircBind (pg : PReg) (ga : GReg) (s : State) : Host.Outcome State Fault Refusal := issue (opCircBind pg ga) s

/-- R292, R379: release -/
def opCircBindRel (pg : PReg) (ga : GReg) : SlotOp :=
  sysOp 1 pg fun pre cur => do
    let pa ← pre.tr .engRd (pre.g ga) 1 32
    let x := circOf (cur.bytes pa 32)
    .ok fun t =>
      let y := t.circ x.id
      if y.state == .free || y.tag != x.tag then (t, rRefused 7)
      else if y.world && pre.me.hub.priv != .m then (t, rRefused 4)
      else (t.releaseCirc x.id, rEntry 0)
def execCircBindRel (pg : PReg) (ga : GReg) (s : State) : Host.Outcome State Fault Refusal := issue (opCircBindRel pg ga) s

end Sys2Proof.Machine
end

