-- ==== Sys2Proof/Machine/System.lean ====
section
/-! DEFINITION. Notices, the logbook and the debugger (spec/12 R293 to R295, spec/18 R394 to R400, R412). -/

namespace Sys2Proof.Machine

/-! ## event.pop (R293, R367) -/

/-- A notice of a record's end frees the record (R367). -/
def State.freeRecord (s : State) (n : Notice) : State :=
  let kind := fld n.w0.toNat 0 8
  if kind = 2 || kind = 3 then s.setRec (fld n.w1.toNat 0 12) Rec.reset else s

/-- The bytes of a notice. -/
def Notice.bytes (n : Notice) : List Byte := bytesOf 8 n.w0 ++ bytesOf 8 n.w1 ++ bytesOf 8 n.w2 ++ bytesOf 8 n.w3

/-- Take the oldest notice that core k may take, to an address. -/
def State.popNotice (s : State) (k : Core) (pa : Nat) : State × Word :=
  match s.notices.find? k.mayTake with
  | none => (s, rRefused 12)
  | some n => ((({ s with notices := s.notices.erase n }).freeRecord n).store pa n.bytes, rEntry (fld n.w0.toNat 0 8))

/-- R293 -/
def opEventPop (pg : PReg) (ga : GReg) : SlotOp :=
  sysOp 1 pg fun pre _ => do
    let pa ← pre.tr .engWr (pre.g ga) 1 32
    .ok fun t => t.popNotice pre.me pa
def execEventPop (pg : PReg) (ga : GReg) (s : State) : Host.Outcome State Fault Refusal := issue (opEventPop pg ga) s

/-! ## log.rd (R294, R395) -/

/-- Entry i of the logbook as a caller of a world sees it. [DEDUCED, log 51] -/
def State.logBytes (s : State) (i : Nat) (world : Bool) : List Byte :=
  let bs := s.bytes (0x870000000 + 32 * i) 32
  if fld (leAt bs 0 8) 16 1 = 1 && !world then List.replicate 4 0 ++ (bs.drop 4).take 4 ++ List.replicate 24 0 else bs

/-- R294 -/
def opLogRd (pg : PReg) (ga gb : GReg) : SlotOp :=
  sysOp 1 pg fun pre _ => do
    let pa ← pre.tr .engWr (pre.g ga) 1 32
    .ok fun t =>
      (t.store pa (t.logBytes (fld (pre.g gb).toNat 0 10) pre.me.ctxWorld),
       rEntry (t.logSeq.toNat <<< 10 + t.logSeq.toNat % 1024))
def execLogRd (pg : PReg) (ga gb : GReg) (s : State) : Host.Outcome State Fault Refusal := issue (opLogRd pg ga gb) s

/-! ## dbg.ctl (R295, R398, R399, R412) -/

/-- A dbg.ctl action on the core and stage that its selector names; a secure target needs level M (Table 12.1). An action that takes
effect wakes the core's quarter (R435), and one that is refused changes its entry alone (R274). [DEDUCED, log 64] -/
def dbgOp (pg : PReg) (ga : GReg) (act : Nat → Nat → RqRef → State → State) : SlotOp :=
  enOp .hub 1 pg Uses.none fun pre cur => do
    need (pre.me.rqFree 2) waiting
    let x ← selector (pre.g ga)
    need (!(cur.core x.1).ctxWorld || pre.me.hub.priv == .m) (privFault 3)
    let r := cur.reserve 2
    .ok (act x.1 x.2 r.2 r.1)

/-- The sequencer of a core is halted: by dbg.ctl, or a hub core stopped by halt. -/
def Core.isHalted (k : Core) : Bool := k.halted || k.hub.stopped

/-- A .step of core c that has been asked for and not made is withdrawn, its entry filled as refused with STATE: R295 does not say what
becomes of it when a .halt or .haltq stops the sequencer first. [DESIGN CHOICE, log 42] -/
def State.dropStep (s : State) (c : Nat) : State :=
  match (s.core c).stepOne with
  | none => s
  | some r => (s.modCore c fun k => { k with stepOne := none }).fill r (rRefused 7)

/-- .halt: the sequencer stops at this bundle boundary. [DEDUCED, log 42] -/
def dbgHalt (c _ : Nat) (rq : RqRef) (s : State) : State :=
  (((s.dropStep c).wake c).modCore c fun k => { k with halted := true }).fill rq (rEntry 1)
/-- R295, R412 -/
def opDbgCtlHalt (pg : PReg) (ga : GReg) : SlotOp := dbgOp pg ga dbgHalt
def execDbgCtlHalt (pg : PReg) (ga : GReg) (s : State) : Host.Outcome State Fault Refusal := issue (opDbgCtlHalt pg ga) s

/-- .haltq: as .halt; the entry waits for the engines. -/
def dbgHaltq (c _ : Nat) (rq : RqRef) (s : State) : State :=
  (((s.dropStep c).wake c).modCore c fun k => { k with halted := true, haltq := k.haltq ++ [rq] }).settleHaltq c 9
/-- R295, R412 -/
def opDbgCtlHaltq (pg : PReg) (ga : GReg) : SlotOp := dbgOp pg ga dbgHaltq
def execDbgCtlHaltq (pg : PReg) (ga : GReg) (s : State) : Host.Outcome State Fault Refusal := issue (opDbgCtlHaltq pg ga) s

/-- .run: fetch resumes; bits stored into half an accumulator entry that no value holds are gone (R57). -/
def dbgRun (c _ : Nat) (rq : RqRef) (s : State) : State :=
  if (s.core c).isHalted then
    ((s.wake c).modCore c fun k => { k with halted := false, accRaw := [], hub := { k.hub with stopped := false } }).fill rq (rEntry 0)
  else s.fill rq (rRefused 7)
/-- R295 -/
def opDbgCtlRun (pg : PReg) (ga : GReg) : SlotOp := dbgOp pg ga dbgRun
def execDbgCtlRun (pg : PReg) (ga : GReg) (s : State) : Host.Outcome State Fault Refusal := issue (opDbgCtlRun pg ga) s

/-- .step: one bundle, then the core halts; the entry is filled then. -/
def dbgStep (c _ : Nat) (rq : RqRef) (s : State) : State :=
  if (s.core c).isHalted then
    (s.wake c).modCore c fun k => { k with halted := false, accRaw := [], stepOne := some rq, hub := { k.hub with stopped := false } }
  else s.fill rq (rRefused 7)
/-- R295 -/
def opDbgCtlStep (pg : PReg) (ga : GReg) : SlotOp := dbgOp pg ga dbgStep
def execDbgCtlStep (pg : PReg) (ga : GReg) (s : State) : Host.Outcome State Fault Refusal := issue (opDbgCtlStep pg ga) s

/-- A halted stage becomes FIRING at its resume point, or one bundle on (Table 18.5); a bundle that was not the stream's next is its next
from this step on. -/
def Core.resumeStage (k : Core) (t : Nat) (skip : Bool) (now : Nat) : Core :=
  let st := k.stage t
  let past := st.haltCause == 0x0E || st.haltCause == 0x0F
  let at_ := if skip && !past then st.haltPc + 32 else st.haltPc
  let k1 := k.modStage t fun x => { x with state := .firing }
  if (k.ctx t).split.isSome then
    { (k1.modCtx t fun x => x.modBank st.haltStream fun b => { b with pc := at_, since := if b.pc = at_ then b.since else now }) with firing := some t }
  else { k1 with firing := some t, pc := at_ }

/-- .resume and .skip: at once when no stage of the core is FIRING, else when the firing closes (R398). -/
def State.resumeOrWait (s : State) (c t : Nat) (skip : Bool) (rq : RqRef) : State :=
  let k := s.core c
  if k.firing.isNone && k.resuming.isEmpty then ((s.wake c).setCore c (k.resumeStage t skip s.ticks)).fill rq (rEntry 0)
  else (s.wake c).setCore c { k with resuming := k.resuming ++ [(t, skip, rq)] }

/-- .resume; after MARKSEQ the stage is ELIGIBLE and its markers are evaluated again. -/
def dbgResume (c t : Nat) (rq : RqRef) (s : State) : State :=
  let st := (s.core c).stage t
  if st.state != .halted then s.fill rq (rRefused 7)
  else if st.haltCause == 0x10 then
    ((s.wake c).modCore c fun k => k.modStage t fun x => { x with state := .eligible }).fill rq (rEntry 0)
  else s.resumeOrWait c t false rq
/-- R295, R398 -/
def opDbgCtlResume (pg : PReg) (ga : GReg) : SlotOp := dbgOp pg ga dbgResume
def execDbgCtlResume (pg : PReg) (ga : GReg) (s : State) : Host.Outcome State Fault Refusal :=
  issue (opDbgCtlResume pg ga) s

/-- .skip; refused after MARKSEQ. -/
def dbgSkip (c t : Nat) (rq : RqRef) (s : State) : State :=
  let st := (s.core c).stage t
  if st.state != .halted || st.haltCause == 0x10 then s.fill rq (rRefused 7) else s.resumeOrWait c t true rq
/-- R295, R398 -/
def opDbgCtlSkip (pg : PReg) (ga : GReg) : SlotOp := dbgOp pg ga dbgSkip
def execDbgCtlSkip (pg : PReg) (ga : GReg) (s : State) : Host.Outcome State Fault Refusal := issue (opDbgCtlSkip pg ga) s

/-- The causes whose abort is RECOMPUTE (Table 18.1): ECCU, BGCONF, FWDOG, CIRCFAIL. [DEDUCED, log 42] -/
def recomputeCause (c : BitVec 8) : Bool := c == 0x05 || c == 0x06 || c == 0x0A || c == 0x0C

/-- Discard what a stage holds in part: head tiles partly read, tiles being assembled; an open oq tile's credit comes back
at once (R399). -/
def State.dropPartial (s : State) (c t : Nat) : State :=
  let st := (s.core c).stage t
  let s1 := st.ins.foldl (fun q n => let p := q.iq c n; if p.beat != 0 || p.word != 0 then q.removeHead c n else q) s
  st.outs.foldl (fun q n =>
    if (q.oq c n).cur.isSome then q.modOq c n fun p => { p with cur := none, credits := p.credits + 1 } else q) s1

/-- The abort of a stage's charge at the Kiln of its instance, on this package or as a CONTROL message, in the mode of the recorded
cause (R399). [DEDUCED, log 42] -/
def State.sendAbort (s : State) (st : Stage) (charge : BitVec 16) : State :=
  match st.inst with
  | none => s
  | some i => s.abortCharge st.instPkg i.toNat (some charge) (!recomputeCause st.haltCause)

/-- .abort (R399): the stage discards its charge, its firing closes without its checks, the Kiln is told. The charge is in discard before
the firing closes, so that a CE of it that the firing has taken counts (R400). [DEDUCED, log 41; DEDUCED, log 42] -/
def State.abortStage (s : State) (c t : Nat) : State :=
  let k := s.core c
  let st := k.stage t
  let charge := (k.ctx t).charge
  let s1 := s.modCore c fun q => q.modStage t fun x => { x with discard := x.discard.filter (· != charge) ++ [charge] }
  let s2 := if st.haltCause == 0x10 then s1 else (s1.dropPartial c t).closeFiring c t false
  (s2.sendAbort st charge).modCore c fun q =>
    (q.modCtx t fun x => { x with split := none }).modStage t fun x => { x with state := .eligible }

/-- [DEDUCED, log 42] -/
def dbgAbort (c t : Nat) (rq : RqRef) (s : State) : State :=
  if ((s.core c).stage t).state != .halted then s.fill rq (rRefused 7) else ((s.wake c).abortStage c t).fill rq (rEntry 0)
/-- R295, R399 -/
def opDbgCtlAbort (pg : PReg) (ga : GReg) : SlotOp := dbgOp pg ga dbgAbort
def execDbgCtlAbort (pg : PReg) (ga : GReg) (s : State) : Host.Outcome State Fault Refusal := issue (opDbgCtlAbort pg ga) s

/-- What an action of dbg.ctl does (Table 12.7). -/
def dbgAct : DbgAct → Nat → Nat → RqRef → State → State
  | .halt => dbgHalt
  | .haltq => dbgHaltq
  | .run => dbgRun
  | .step => dbgStep
  | .resume => dbgResume
  | .skip => dbgSkip
  | .abort => dbgAbort

/-- An action of dbg.ctl through the debug port, once the security block has unlocked it: any core, no result entry (R432).
[DESIGN CHOICE, log 59] -/
def debugCtl (sel : Word) (a : DbgAct) (s : State) : Option State :=
  match selector sel with
  | .ok x => if s.boot.debugOpen && !s.power.off then some (dbgAct a x.1 x.2 { core := x.1, eng := 3, id := 0 } s) else none
  | .error _ => none

/-- HALTED_STAGE_RESUMES (R398): no stage of the core is FIRING; a stage that is no longer HALTED is refused. -/
def haltedStageResumes (c : Nat) (s : State) : Option State :=
  let k := s.core c
  match k.resuming with
  | [] => none
  | (t, skip, rq) :: rest =>
    let k1 := { k with resuming := rest }
    if (k.stage t).state != .halted then some ((s.setCore c k1).fill rq (rRefused 7))
    else if k.firing.isSome then none
    else some ((s.setCore c (k1.resumeStage t skip s.ticks)).fill rq (rEntry 0))
def execHaltedStageResumes (c : Nat) (s : State) : Host.Outcome State Fault Refusal := happen (haltedStageResumes c) s

end Sys2Proof.Machine
end

