-- ==== Sys2Proof/Machine/Events.lean ====
section
/-! DEFINITION. What the machine does between bundles besides its engines: arriving entries and free-slot notices (spec/10 R236,
spec/15 R338), grants, pass-throughs and MARKSEQ (R339 to R344), the watchdog (R161, R346), discard (R400), interrupts and
idle (R36, R156, R403), the CYCLES compare (R37), configuration space (R47, R310) and the scrubber (R307). -/

namespace Sys2Proof.Machine

/-! ## Quarters (R435) -/

/-- The quarters that a beat of port n of core c passes between its producer or link and the core. -/
def routeQuarters (b : InBind) (c : Nat) : List Nat :=
  if isHub c then
    match b with
    | .circ id => [linkQuarter (id / 16)]
    | _ => []
  else
    match b with
    | .route d _ => meshPath (quarterOf d) (quarterOf c)
    | .circ id => meshPath (linkQuarter (id / 16)) (quarterOf c)
    | _ => [quarterOf c]

/-- The quarters that the free-slot notices of oq n of core c pass, from their consumer or link to the core. -/
def noticeQuarters (b : OutBind) (c : Nat) : List Nat :=
  if isHub c then
    match b with
    | .circ id => [linkQuarter (id / 16)]
    | .route _ _ | .unbound => []
  else
    match b with
    | .route d _ => meshPath (quarterOf d) (quarterOf c)
    | .circ id => meshPath (linkQuarter (id / 16)) (quarterOf c)
    | .unbound => [quarterOf c]

/-- The quarters that the flits of a circuit pass here: between the core of its end and its link, between the two links of a relay, or
at its link (R6). -/
def Circ.quarters (x : Circ) : List Nat :=
  if x.ends = 4 then meshPath (linkQuarter x.outlink) (linkQuarter x.link)
  else if x.ends < 2 && !isHub x.core then meshPath (quarterOf x.core) (linkQuarter x.link)
  else [linkQuarter x.link]

/-! ## Flits of a circuit that have arrived (R373, R383) -/

/-- n flits of a link have been accepted in order: the next LSEQ is expected, an ACK is due, and no NAK is outstanding; the beats
wake the link's quarter (R435). -/
def State.took (s : State) (l n : Nat) : State :=
  if n = 0 then s
  else (s.wakeAll [linkQuarter l]).modLink l fun x =>
    { x with rxSeq := x.rxSeq + BitVec.ofNat 16 n, ackDue := true, nakDue := false, nakOut := false }

/-- n flits of one circuit, or of one member of a bond, have been accepted on its own link; they wake the quarters that they pass
(R435). -/
def State.tookOn (s : State) (id n : Nat) : State :=
  if n = 0 then s
  else ((s.wakeAll (s.circ id).quarters).modCirc id fun y => { y with recvCnt := y.recvCnt + n }).took (id / 16) n

/-- Members of the bond of a circuit, and which of them it is: one, the first, for a circuit that is not bonded (R383). -/
def Circ.lanes (x : Circ) : Nat := max 1 x.bondn
def Circ.lane (x : Circ) : Nat := if x.bondn ≤ 1 then 0 else x.bondi

/-- The numbers, in the circuit's count of its direction, of the next flit that this member sends and accepts (R383, R387). -/
def Circ.sendNo (x : Circ) : Nat := x.sentCnt * x.lanes + x.lane
def Circ.recvNo (x : Circ) : Nat := x.recvCnt * x.lanes + x.lane

/-- The number of the oldest flit of lane i of a bond that is still to be delivered: the first that its member keeps, else the next that
it accepts; a lane whose member is not bound yet has had none (R383). -/
def laneFrom (ms : List Circ) (i : Nat) : Nat :=
  (ms.find? fun m => m.lane == i).elim i fun m => m.rxBuf.head?.elim m.recvNo (·.1)

/-- The next n flits of a type of a circuit, in ascending number: one accepted already, or (none) one still to come. -/
def State.nextFlits (s : State) (id ty n : Nat) : List (Nat × Option RelayFlit) :=
  let ms := (s.bond id).map s.circ
  let top := ms.foldl (fun a m => max a m.recvNo) 0
  let low := (List.range (s.circ id).lanes).foldl (fun a i => min a (laneFrom ms i)) top
  ((List.range (top - low + n)).filterMap fun j =>
    let k := low + j
    match ms.find? fun m => m.lane == k % m.lanes with
    | none => some (k, none)
    | some m =>
      match m.rxBuf.find? (·.1 == k) with
      | some f => if f.2.ty.toNat = ty then some (k, some f.2) else none
      | none => if k < m.recvNo then none else some (k, none)).take n

/-- The flits of a run have been accepted, each on the link of the member that it falls to, and no member keeps any of them. -/
def State.accepted (s : State) (id : Nat) (run : List (Nat × Option RelayFlit)) : State :=
  (s.bond id).foldl (fun t m =>
    let x := s.circ m
    let mine := run.filter fun r => r.1 % x.lanes == x.lane
    (t.modCirc m fun y => { y with rxBuf := y.rxBuf.filter fun f => !(mine.any fun r => r.1 == f.1) }).tookOn m
      (mine.filter fun r => r.2.isNone).length) s

/-- A run is what has arrived: each of its flits has a member of the bond, and those accepted already hold the given payload and, on a
STREAM flit, the sideband; no other flit carries a beat, and what its SB holds says nothing (Table 17.2). [DESIGN CHOICE, log 45] -/
def State.runFits (s : State) (id : Nat) (run : List (Nat × Option RelayFlit)) (want : List (Beat × Nat)) : Bool :=
  let ms := (s.bond id).map s.circ
  (run.all fun r => ms.any fun m => m.lane == r.1 % m.lanes) &&
  (run.zip want).all fun r => r.1.2.elim true fun f => f.payload == r.2.1 && (f.ty != 1 || f.sb.toNat == r.2.2)

/-- The circuit is OPEN, and each flit of a run that is still to come falls to a member whose link is UP; those accepted already do not
need their links (R374, R383). -/
def State.live (s : State) (id : Nat) (run : List (Nat × Option RelayFlit)) : Bool :=
  (s.circ id).state == .isOpen && run.all fun r => r.2.isSome ||
    (s.bond id).all fun m => (s.circ m).lane != r.1 % (s.circ m).lanes || (s.link' (m / 16)).state == .up

/-! ## Arrivals -/

/-- An entry becomes present at iq n of core c, or is held behind the port's token; a token that is due follows the entry that closes
its charge (R236, R405, R407). -/
def State.deliver (s : State) (c n : Nat) (e : Entry) : State :=
  let p := s.iq c n
  let s1 := s.wakeAll (routeQuarters p.bind c)
  if p.behind then s1.modIq c n fun x => { x with held := x.held ++ [e] }
  else
    (s1.modIq c n fun x =>
      { x with q := x.q ++ [e], openCh := s.opens p.bind p.openCh e, behind := e.kind == .token }).tryToken c n

/-- A port has a slot for the next entry on its way. On the package the producer's credit is the slot; at a circuit's port a token may have
taken one before its credit came back (R236, R405). -/
def IqPort.hasSlot (p : IqPort) : Bool :=
  match p.bind with
  | .circ _ => decide (p.q.length + p.held.length < p.cap)
  | .route _ _ | .kiln _ | .reply _ | .unbound => true

/-- A whole entry has come from a link: it is delivered, or, while no slot is free or others wait, waits before the port, its flits
accepted and acknowledged (R373, R405). [DEDUCED, log 38] -/
def State.takeEntry (s : State) (c n : Nat) (e : Entry) : State :=
  let p := s.iq c n
  if p.coming.isEmpty && p.hasSlot then s.deliver c n e else s.modIq c n fun x => { x with coming := x.coming ++ [e] }

/-- An entry that a link brings is whole: a tile of as many beats as its head says, whatever reserved values that holds, or a marker. A
tile of another number of beats, or a marker of another KIND, is accepted and never becomes present: no rule says what it would be (R234, R235).
[DESIGN CHOICE, log 45] -/
def entryWhole (e : Entry) : Bool :=
  match e.kind with
  | .tile => e.beats.length == 1 + hScb e.head + 2 * hRows e.head
  | .marker => e.beats.length == 1 && decide (9 ≤ hKind e.head) && decide (hKind e.head ≤ 11)
  | .token => false

/-- The tag of a flit fails at this endpoint; a PLAIN circuit checks none (R386, R388). -/
def State.authFails (s : State) (id : Nat) (bad : Option Nat) : Bool := bad.isSome && (s.circ id).mode != 0

/-- What is made of flits of one type arrives on a circuit: the last of them are accepted, and `f` says what they do. Where the tag
of one of them fails, those up to it are accepted, nothing is delivered, and the circuit goes to FAILED with AUTH (R388).
[DESIGN CHOICE, log 45] -/
def State.arrival (s : State) (id ty : Nat) (want : List (Beat × Nat)) (bad : Option Nat) (f : State → Option State) : Option State :=
  let run := s.nextFlits id ty want.length
  if !s.live id run || !s.runFits id run want then none
  else if s.authFails id bad then
    let upTo := run.take (bad.getD 0 + 1)
    if upTo.getLast?.any fun r => r.2.isSome then none else some ((s.accepted id upTo).failCirc id 1)
  else f (s.accepted id run)

/-- Sideband of beat b of an entry (R234). -/
def sideband (e : Entry) (b : Nat) : Nat :=
  if e.isMarker then 7 else (if b = 0 then 1 else 0) + (if b + 1 = e.beats.length then 2 else 0)

/-- The flits of an entry: payload and sideband. -/
def entryFlits (e : Entry) : List (Beat × Nat) := (List.range e.beats.length).map fun b => (e.beat b, sideband e b)

/-- ENTRY_ARRIVES: the oldest entry on its way to a port, once a slot is free, or one that a circuit brings, with the first of its flits
whose tag fails. [DEDUCED, log 38; DESIGN CHOICE, log 45] -/
def entryArrives (c n : Nat) (ext : Option (Entry × Option Nat)) (s : State) : Option State :=
  let p := s.iq c n
  match ext with
  | none =>
    match p.coming with
    | e :: t => if p.hasSlot then some ((s.modIq c n fun x => { x with coming := t }).deliver c n e) else none
    | [] => none
  | some (e, bad) =>
    match p.bind with
    | .circ id => s.arrival id 1 (entryFlits e) bad fun t => some (if entryWhole e then (t.tryToken c n).takeEntry c n e else t)
    | _ => none
def execEntryArrives (c n : Nat) (ext : Option (Entry × Option Nat)) (s : State) : Host.Outcome State Fault Refusal :=
  happen (entryArrives c n ext) s

/-- FREE_SLOT_NOTICE: n notices arrive at an oq, from the package (none) or in a CREDIT flit (Table 17.3), with whether its
tag verifies. -/
def freeSlotNotice (c oq n : Nat) (ext : Option Bool) (s : State) : Option State :=
  let p := s.oq c oq
  if !(decide (1 ≤ n) && decide (n ≤ 16)) then none
  else
    match ext with
    | some auth =>
      match p.bind with
      | .circ id => s.arrival id 5 [(BitVec.ofNat 512 n, 0)] (if auth then none else some 0) fun t =>
        if p.credits + n ≤ s.farCap (s.circ id) then
          some ((t.wakeAll (noticeQuarters p.bind c)).modOq c oq fun x => { x with credits := x.credits + n })
        else none
      | _ => none
    | none =>
      if n ≤ p.notices then
        let s1 := (s.wakeAll (noticeQuarters p.bind c)).modOq c oq fun x => { x with notices := x.notices - n, credits := x.credits + n }
        match p.bind with
        | .route d m => some (s1.tryToken d m)
        | _ => some s1
      else none
def execFreeSlotNotice (c oq n : Nat) (ext : Option Bool) (s : State) : Host.Outcome State Fault Refusal :=
  happen (freeSlotNotice c oq n ext) s

/-! ## Reply tiles of rld.iq (R267) -/

/-- A credit of the reply port is free beside those of the tiles asked for (R267). -/
def State.replyCredit (s : State) (c : Nat) (r : Remote) : Bool :=
  let p := s.iq r.iqCore r.iqPort
  decide (p.taken + (s.core c).repliesDue r.iqCore r.iqPort < p.cap)

/-- The next tile of a reply: its rows, zero where they touch a bad packet, and its head. -/
def Remote.tile (r : Remote) : Entry :=
  let n := min 2048 (r.len - r.given)
  let rows := ceilDiv n 128
  let bad (i : Nat) : Bool := r.badOffs.any fun b => overlap (r.given + 128 * i) 128 b.1 b.2
  mkTile (mkHead 2 11 rows 128 0 0 (packN 16 1 16 fun i => BitVec.ofBool (decide (i < rows) && bad i)) 0 r.given) []
    ((List.range rows).map fun i =>
      if bad i then 0 else rowOf ((List.range (min 128 (n - 128 * i))).map fun j => sget 0 r.reply (r.given + 128 * i + j)))

/-- The packets of the next tile. -/
def Remote.tilePieces (r : Remote) : List (Nat × Nat) :=
  r.pieces.filter fun p => decide (r.given ≤ p.1) && decide (p.1 < r.given + 2048)

/-- RLD_REPLY_TILE: the next tile of command i of core c, which the port has a slot for; on the core's own package its bytes are
read now. A token that is due there comes first (R405); behind one the tile is held (R407). [DESIGN CHOICE, log 32] -/
def replyTile (c i : Nat) (s : State) : Option State :=
  match (s.core c).begun i with
  | some e =>
    match e.op with
    | .remote r =>
      if r.kind = .rldIq && decide (r.given < r.len) then
        let own := r.pkg == s.pkgNo
        let s0 := s.tryToken r.iqCore r.iqPort
        let p := s0.iq r.iqCore r.iqPort
        if !decide (p.taken < p.cap) then none
        else if (own && !((s0.core c).firstTo i r.pkg && s0.replyCredit c r)) ||
           (!own && !((r.tilePieces.all fun p => decide (p.1 < r.sent) && !(r.out.any fun q => q.off == p.1)))) then none
        else
          let s1 := if own then s0.serveOwn c e.id r (r.tilePieces.filter fun p => decide (r.sent ≤ p.1)) else s0
          match (s1.core c).eng.find? fun x => x.id == e.id with
          | some x =>
            match x.op with
            | .remote q =>
              some ((s1.deliver q.iqCore q.iqPort q.tile).modCore c fun k =>
                k.modCmd e.id fun y => { y with op := .remote { q with given := min q.len (q.given + 2048) } })
            | _ => none
          | none => none
      else none
    | _ => none
  | none => none
def execRldReplyTile (c i : Nat) (s : State) : Host.Outcome State Fault Refusal := happen (replyTile c i) s

/-! ## Evaluation (R339, R344) -/

/-- The core evaluates its stages: it is a clocked compute core, its sequencer runs, no stage is FIRING and no resumed stage
waits to run (R398). -/
def State.evaluates (s : State) (c : Nat) : Bool :=
  let k := s.core c
  !isHub c && s.clocked c && !k.halted && k.firing.isNone && k.resuming.isEmpty

/-! ## Discard (R400) -/

/-- A hub core whose sequencer runs. -/
def State.hubLive (s : State) (c : Nat) : Bool :=
  let k := s.core c
  isHub c && decide (c < 520) && s.clocked c && !k.halted && !k.hub.stopped && !k.hub.inReset

/-- The core evaluates what its stages discard: a compute core as it does for a grant; a hub core, whose system stage is ELIGIBLE and
never granted, and none of whose stages is FIRING, wherever its sequencer runs (R339, R349, R400). [DEDUCED, log 41] -/
def State.mayDiscard (s : State) (c : Nat) : Bool := if isHub c then s.hubLive c else s.evaluates c

/-- DISCARD_REMOVAL: an ELIGIBLE stage that finds an abort CE enters discard for its charge; else it removes an entry of a charge in
discard. -/
def discardRemoval (c t : Nat) (s : State) : Option State :=
  let st := (s.core c).stage t
  if !s.mayDiscard c || st.state != .eligible || s.heldNew c t then none
  else
    match s.abortSeen c t with
    | some d => some (s.modCore c fun k => k.modStage t fun x => { x with discard := x.discard ++ [d] })
    | none => (s.discardPort c t).map fun n => (s.removeHead c n).endCharges c t
def execDiscardRemoval (c t : Nat) (s : State) : Host.Outcome State Fault Refusal := happen (discardRemoval c t) s

/-- A stage of the core has an entry to discard, or discard to enter: that comes before any grant. [DEDUCED, log 41] -/
def State.mustDiscard (s : State) (c : Nat) : Bool := (List.range 8).any fun t => (discardRemoval c t s).isSome

/-! ## Grants (R339 to R345) -/

/-- The chosen stage's grant is a pass-through: no marker entry, markers ready to pass (R341). -/
def State.passes (s : State) (c t : Nat) : Bool := ((s.core c).stage t).marker.isNone && s.passReady c t

/-- FIRING_GRANT (R343, R344) -/
def firingGrant (c : Nat) (s : State) : Option State :=
  if !s.evaluates c || s.mustDiscard c then none
  else
    match s.arbiter c with
    | none => none
    | some t => if s.passes c t || !s.boundaryOk c t then none else some (((s.ageStages c t).endCharges c t).startFiring c t)
def execFiringGrant (c : Nat) (s : State) : Host.Outcome State Fault Refusal := happen (firingGrant c) s

/-- Let markers pass through stage t: a user marker first, else the CB or CE of every input (R341). -/
def State.passMarkers (s : State) (c t : Nat) : State :=
  let st := (s.core c).stage t
  let push (q : State) (e : Entry) : State := st.outs.foldl (fun r n => r.pushEntry c n e) q
  match s.userPass c t with
  | some n =>
    match s.markerAt c n with
    | some e => push (s.removeHead c n) e
    | none => s
  | none =>
    match (st.ins.head?).bind fun n => s.markerAt c n with
    | some e => push (st.ins.foldl (fun q n => q.removeHead c n) s) (mkMarker (hKind e.head) (hCharge e.head) (hPayload e.head))
    | none => s

/-- The lowest ELIGIBLE stage that MARKSEQ halts, and its two ports (R342). -/
def State.markSeqStage (s : State) (c : Nat) : Option (Nat × Nat × Nat) :=
  (List.range 8).findSome? fun t =>
    let st := (s.core c).stage t
    if st.state == .eligible && !st.passed && !s.heldNew c t then (s.markSeq c t).map fun p => (t, p.1, p.2) else none

/-- PASS_THROUGH: the granted stage lets markers pass; a stage whose markers disagree halts with MARKSEQ (R341, R342). -/
def passThrough (c : Nat) (s : State) : Option State :=
  if !s.evaluates c || s.mustDiscard c then none
  else
    match s.markSeqStage c with
    | some (t, a, b) => some (s.haltStage c t 0 ⟨0x10, a + b <<< 8, 0⟩ 7 0)
    | none =>
      match s.arbiter c with
      | some t => if s.passes c t then some ((((s.ageStages c t).endCharges c t).passMarkers c t).endCharges c t) else none
      | none => none
def execPassThrough (c : Nat) (s : State) : Host.Outcome State Fault Refusal := happen (passThrough c) s

/-! ## The watchdog (R161, R346) -/

/-- The stream that holds the oldest bundle that has not committed: of those that have not joined, the one whose bundle has
been its next for longest, the lowest among equals (R161). [DEDUCED, log 10] -/
def State.oldestStream (s : State) (c t : Nat) : Nat :=
  let x := (s.core c).ctx t
  ((List.range 4).filter fun i => !(x.bank i).joined).foldl
    (fun (best : Option Nat) i => match best with
      | none => some i
      | some b => if (x.bank i).since < (x.bank b).since then some i else some b) none |>.getD 0

/-- FIRING_WATCHDOG: the count has reached a non-zero FIRE.LIMIT; no bundle of the firing commits after that (R161). A .step that waits
for the bundle has been made: the bundle faults (Table 12.7). [DEDUCED, log 10] -/
def firingWatchdog (c : Nat) (s : State) : Option State :=
  let k := s.core c
  match k.firing with
  | none => none
  | some t =>
    let lim := (k.ctx t).fireLimit
    if k.halted || lim == 0 || decide ((k.stage t).watch < lim.toNat) then none
    else
      let split := (k.ctx t).split.isSome
      let i := if split then s.oldestStream c t else 0
      some ((s.haltStage c t i ⟨0x0A, lim.toNat, 0⟩ 7 (if split then ((k.ctx t).bank i).pc else k.pc)).afterBundle c)
def execFiringWatchdog (c : Nat) (s : State) : Host.Outcome State Fault Refusal := happen (firingWatchdog c) s

/-! ## The abort CE (R400) -/

/-- The first charge in discard of which a CE has been removed from every declared input (R400). -/
def State.discardDone (s : State) (c t : Nat) : Option (BitVec 16) :=
  let st := (s.core c).stage t
  st.discard.find? fun d => st.ins.all fun n => (s.iq c n).ceSeen.contains d

/-- ABORT_CE: a CE has been removed from every declared input; the abort CE goes to every output and the stage leaves discard for
the charge. -/
def abortCe (c t : Nat) (s : State) : Option State :=
  let st := (s.core c).stage t
  match s.discardDone c t with
  | none => none
  | some d =>
    if !s.mayDiscard c || st.state != .eligible || !s.outsOpen c t then none
    else
      let s1 := st.outs.foldl (fun q n => q.pushEntry c n (mkMarker 10 d 0x80000000)) s
      let s2 := st.ins.foldl (fun q n => q.modIq c n fun p => { p with ceSeen := p.ceSeen.erase d }) s1
      some (s2.modCore c fun k => k.modStage t fun x => { x with discard := x.discard.erase d })
def execAbortCe (c t : Nat) (s : State) : Host.Outcome State Fault Refusal := happen (abortCe c t) s

/-! ## Interrupts, idle, the CYCLES compare -/

/-- INTERRUPT: hub core h takes an enabled pending interrupt at a boundary (R36, R403). -/
def interrupt (h : Nat) (s : State) : Option State :=
  if s.hubLive (512 + h) then (s.irqToTake (512 + h)).map fun n => s.takeIrq (512 + h) n else none
def execInterrupt (h : Nat) (s : State) : Host.Outcome State Fault Refusal := happen (interrupt h) s

/-- IDLE_WAKE: an idle hub core goes on once IRQ.EN AND IRQ.PEND is non-zero; with IE set it takes the interrupt first
(R156). -/
def idleWake (h : Nat) (s : State) : Option State :=
  let c := 512 + h
  let k := s.core c
  if s.hubLive c && k.hub.idle && s.irqPend &&& k.hub.irqEn != 0 then
    match s.irqToTake c with
    | some n => some (s.takeIrq c n)
    | none => some (s.setCore c { k with hub := { k.hub with idle := false } })
  else none
def execIdleWake (h : Nat) (s : State) : Host.Outcome State Fault Refusal := happen (idleWake h) s

/-- CYCLES_COMPARE: CYCLES has reached CYC.CMP (R37). -/
def cyclesCompare (s : State) : Option State :=
  if !s.cmpHit && decide (s.cycCmp.toNat ≤ s.cycles.toNat) then some { s with cmpHit := true } else none
def execCyclesCompare (s : State) : Host.Outcome State Fault Refusal := happen cyclesCompare s

/-! ## Configuration space and the scrubber -/

/-- Hub core h may reach configuration space: level S or M (R310). -/
def State.cfgCaller (s : State) (c : Nat) : Bool := isHub c && decide (c < 520) && (s.core c).hub.priv != .u

/-- CONFIG_SPACE_WRITE: a store of hub core h to an aligned word takes effect between two bundles of the target, or is
refused (R47, R310); it wakes the target's quarter. -/
def configSpaceWrite (h : Nat) (pa : Addr) (v : Word) (s : State) : Option State :=
  if s.cfgCaller (512 + h) && rangeOf pa.toNat == .cfg && pa.toNat % 8 == 0 then
    match s.stSpecial (512 + h) pa.toNat pa.toNat v with
    | .ok t => some t
    | .error _ => none
  else none
def execConfigSpaceWrite (h : Nat) (pa : Addr) (v : Word) (s : State) : Host.Outcome State Fault Refusal :=
  happen (configSpaceWrite h pa v) s

/-- CFG_STATUS_READ: hub core h reads CFG.STATUS of core c into a register; REFUSED clears, and the access
wakes the target's quarter (R310, R435, Table 13.6). -/
def cfgStatusRead (h c : Nat) (d : GReg) (s : State) : Option State :=
  if s.cfgCaller (512 + h) && decide (c < 288) then
    match s.ldSpecial (512 + h) (0xF00000000 + c * 0x100000 + 0xF2000) 0 with
    | .ok (v, t) => some (if d = 0 then t else t.modCore (512 + h) fun k => k.modCtx 0 fun x => { x with g := sset 0 x.g d.toNat v })
    | .error _ => none
  else none
def execCfgStatusRead (h c : Nat) (d : GReg) (s : State) : Host.Outcome State Fault Refusal := happen (cfgStatusRead h c d) s

/-- SCRUB: an uncorrectable word is logged once until it is written; any other word is left as it reads (R307).
[DEDUCED, log 28] -/
def scrub (w : Nat) (s : State) : Option State :=
  if !(rangeOf (8 * w)).isMem then none
  else if s.badIn (8 * w) 8 && !s.eccSeen.contains w then
    some ({ s with eccSeen := s.eccSeen ++ [w] }.log 0x05 7 0 false 0 0x1FF 0 0 w 0)
  else some s
def execScrub (w : Nat) (s : State) : Host.Outcome State Fault Refusal := happen (scrub w) s

end Sys2Proof.Machine
end

