-- ==== Sys2Proof/Machine/LinkLayer.lean ====
section
/-! DEFINITION. Pleak links (spec/17 R369 to R375, R382 to R388, spec/19 R416 to R418): the flit slots, replay, acknowledgement,
retrain, training, and transit relays. -/

namespace Sys2Proof.Machine

/-! ## Flits (Tables 17.1 to 17.3) -/

/-- CRC-32 of IEEE 802.3. -/
def crc32 (bs : List Byte) : BitVec 32 := crc 0xEDB88320#32 bs

/-- The control word. -/
def ctrlWord (lseq : BitVec 16) (circ ty : Nat) (sb : Nat) : BitVec 32 :=
  BitVec.ofNat 32 (lseq.toNat <<< 16 + circ <<< 12 + ty <<< 8 + sb)

/-- A flit with its CRC over bytes 0..71 and 76..79. -/
def mkFlit (payload : Beat) (auth : BitVec 64) (ctrl : BitVec 32) : Flit :=
  { payload := payload, auth := auth, crc := crc32 (bytesOf 64 payload ++ bytesOf 8 auth ++ bytesOf 4 ctrl), ctrl := ctrl }

/-- A link-level flit: IDLE 0, ACK 6, NAK 7, TRAIN 8. -/
def linkFlit (ty : Nat) (payload : Beat) : Flit := mkFlit payload 0 (ctrlWord 0 0 ty 0)

/-- A payload of bytes, zero-filled. -/
def payloadOf (bs : List Byte) : Beat := packList 512 8 (bs.take 64)

/-! ## Sending (R373, R386, R387) -/

/-- The sender may send a new circuit flit: nothing waits to be sent again and the replay buffer has a place. -/
def Link.mayAdd (l : Link) : Bool := l.resend == 0 && decide (l.replay.length < 256)

/-- One more slot of the frame has passed with a flit on the wire. -/
def Link.put (l : Link) (f : Flit) : Link := { l with wire := some f, slot := (l.slot + 1) % 64 }

/-- Enter a circuit flit: it takes the next LSEQ and stays in the replay buffer until acknowledged; its beat wakes the link's quarter
(R435). -/
def State.sendFlit (s : State) (l circ ty sb : Nat) (payload : Beat) (auth : BitVec 64) : State :=
  (s.wakeAll [linkQuarter l]).modLink l fun x =>
    let f := mkFlit payload auth (ctrlWord x.txSeq circ ty sb)
    { x.put f with replay := x.replay ++ [f], txSeq := x.txSeq + 1 }

/-- The nonce of a flit: TAG, direction, count (R387). -/
def nonceOf (tag : BitVec 32) (dir count : Nat) : Nat := tag.toNat <<< 64 + dir <<< 63 + count % 2 ^ 63

/-- The direction bit of flits sent from this end: 0 from the end with the oq, the remote engine or the lower package number. -/
def State.dir (s : State) (x : Circ) : Nat :=
  if x.ends = 0 then (if 16 ≤ x.port then 0 else 1)
  else if x.ends = 1 then 0
  else if x.ends = 2 then 1
  else if s.pkgNo.toNat < x.remote.toNat then 0 else 1

/-- The tag of a flit of a circuit (R386, R387): of what the wire carries, under the circuit's key, with TAG, TYPE and SB. -/
def State.tagOf (s : State) (x : Circ) (dir count ty sb : Nat) (body : Beat) : BitVec 64 :=
  if x.mode = 0 then 0
  else Config.flitTag (x.mode == 2) (sget 0 s.boot.keySlots x.keyslot) (nonceOf x.tag dir count)
    (x.tag.toNat <<< 8 + ty <<< 4 + sb) body

/-- Send a flit of circuit `id` under its mode; the flit is counted (R386). Its number is that of the circuit's flits that falls to
this member next (R383, R387). -/
def State.sendCirc (s : State) (id ty sb : Nat) (payload : Beat) : State :=
  let x := s.circ id
  let k := x.sendNo
  let body := if x.mode = 2 then
      Config.sealPayload (sget 0 s.boot.keySlots x.keyslot) (nonceOf x.tag (s.dir x) k) payload
    else payload
  let auth := s.tagOf x (s.dir x) k ty sb body
  ((s.wakeAll x.quarters).sendFlit (id / 16) (id % 16) ty sb body auth).modCirc id fun y => { y with sentCnt := y.sentCnt + 1 }

/-- The direction bit of the flits that one end of CONTROL circuit 0 of a link sends: 0 from the lower package number (R387). A
number that no image has given yet counts as 0, and two ends whose numbers agree both send 0: R387 and R418 do not say what the
bit is then. [DESIGN CHOICE, log 61] -/
def State.ctlDir (s : State) (l : Nat) (own : Bool) : Nat :=
  let a := s.pkgNo.toNat
  let b := ((s.link' l).peerPkg.getD 0).toNat
  if (if own then a ≤ b else b ≤ a) then 0 else 1

/-- Send a flit of CONTROL circuit 0: SEALED under K0 with TAG 0 (R387, R418). -/
def State.sendCtlFlit (s : State) (l : Nat) (payload : Beat) : State :=
  let x := s.link' l
  let nonce := nonceOf 0 (s.ctlDir l true) x.ctlSent
  let body := Config.sealPayload x.k0 nonce payload
  (s.sendFlit l 0 4 0 body (Config.flitTag true x.k0 nonce (4 <<< 4) body)).modLink l fun y =>
    { y with ctlSent := y.ctlSent + 1 }

/-! ## What a circuit has waiting (R376, R382 to R385) -/

/-- The CREDIT flit that a bond sends next falls to this member (R383). -/
def State.turn (s : State) (id : Nat) : Bool := (s.circ id).sendNo == ((s.bond id).map fun m => (s.circ m).sentCnt).sum

/-- The member whose entry the port is bound to, which holds the bond's entries. -/
def State.lead (s : State) (id : Nat) : Nat :=
  let x := s.circ id
  if x.ends != 0 then id
  else if x.port < 16 then
    match (s.iq x.core x.port).bind with
    | .circ j => j
    | _ => id
  else
    match (s.oq x.core (x.port - 16)).bind with
    | .circ j => j
    | _ => id

/-- Forward the oldest flit of a relay side, if it is of a type. -/
def State.relaySend (s : State) (id ty : Nat) : Option State :=
  let x := s.circ id
  match x.relay with
  | f :: t =>
    if x.ends = 4 && f.ty.toNat = ty then
      some ((s.sendFlit (id / 16) (id % 16) ty f.sb.toNat f.payload f.auth).modCirc id fun y => { y with relay := t })
    else none
  | [] => none

/-- Beat k of a list of entries: its entry and its place there. -/
def beatAt : List Entry → Nat → Option (Entry × Nat)
  | [], _ => none
  | e :: t, k => if k < e.beats.length then some (e, k) else beatAt t (k - e.beats.length)

/-- The entries of a list of which a beat has a number of `low` or more, and the number of their first beat. -/
def unsentFrom (low : Nat) : List Entry → Nat → List Entry × Nat
  | [], base => ([], base)
  | e :: t, base => if base + e.beats.length ≤ low then unsentFrom low t (base + e.beats.length) else (e :: t, base)

/-- Drop the entries that every member of the bond has sent its beats of, from those that member j holds. -/
def State.dropSent (s : State) (j : Nat) : State :=
  let ms := (s.bond j).map s.circ
  if ms.length < (s.circ j).lanes then s
  else
    let low := ms.foldl (fun a m => min a m.sendNo) (s.circ j).sendNo
    s.modCirc j fun y =>
      let r := unsentFrom low y.txq y.txBase
      { y with txq := r.1, txBase := r.2 }

/-- The next beat of a STREAM circuit that falls to this member, whatever the other members of its bond have sent (TYPE 1; R382,
R383). -/
def State.streamSend (s : State) (id : Nat) : Option State :=
  let x := s.circ id
  if x.ends = 4 then s.relaySend id 1
  else if x.ends != 0 || x.port < 16 then none
  else
    let j := s.lead id
    let y := s.circ j
    (beatAt y.txq (x.sendNo - y.txBase)).map fun b => (s.sendCirc id 1 (sideband b.1 b.2) (b.1.beat b.2)).dropSent j

/-- Free-slot notices of a STREAM circuit, up to sixteen in a flit (TYPE 5). -/
def State.creditSend (s : State) (id : Nat) : Option State :=
  let x := s.circ id
  if x.ends = 4 then s.relaySend id 5
  else if x.ends != 0 || 16 ≤ x.port || !s.turn id then none
  else
    let j := s.lead id
    let n := min 16 (s.circ j).credOut
    if n = 0 then none
    else some ((s.sendCirc id 5 0 (BitVec.ofNat 512 n)).modCirc j fun z => { z with credOut := z.credOut - n })

/-- The header flit of a packet (Table 17.8). -/
def packetHeader (p : Packet) : Beat :=
  payloadOf ([p.op, p.code, p.len, p.sub] ++ bytesOf 4 p.rtag ++ bytesOf 8 p.da ++ bytesOf 8 p.opnd ++ bytesOf 8 p.cmp ++
    bytesOf 32 p.rest)

/-- A packet has a data flit: WRITE, KRET, DATA. -/
def hasData (p : Packet) : Bool := p.op == 1 || p.op == 6 || p.op == 10

/-- The TYPE of a packet's flits: responses MRSP, requests and probes MREQ. -/
def packetType (p : Packet) : Nat := if 9 ≤ p.op.toNat then 3 else 2

/-- The next flit of a window-table end of a type: the oldest response (3), or the oldest probe (2), whatever of the other type
waits before it (R382). -/
def State.answerSend (s : State) (id ty : Nat) : Option State :=
  let x := s.circ id
  let j := x.mrsp.findIdx fun p => packetType p == ty
  match x.mrsp[j]? with
  | some p =>
    if x.ends != 2 then none
    else if ty = 3 && x.mrspData then
      some ((s.sendCirc id ty 0 (payloadOf p.data)).modCirc id fun y => { y with mrsp := y.mrsp.eraseIdx j, mrspData := false })
    else
      some ((s.sendCirc id ty 0 (packetHeader p)).modCirc id fun y =>
        if hasData p then { y with mrspData := true } else { y with mrsp := y.mrsp.eraseIdx j })
  | none => none

/-- OP of a request (Table 17.8). -/
def remOp : RemKind → Byte
  | .rst => 1 | .rld | .rldIq => 2 | .ramo => 3 | .rcfAdd => 4 | .fenceF => 5 | .kret => 6

/-- SUB of a request. -/
def Remote.sub (r : Remote) : Byte :=
  match r.kind with
  | .ramo => BitVec.ofNat 8 (r.op.code.toNat + if r.wide then 16 else 0)
  | .rcfAdd | .fenceF => BitVec.ofNat 8 r.cf
  | .kret => BitVec.ofNat 8 r.inst
  | .rst | .rld | .rldIq => 0

/-- The packet of a piece of a command. -/
def State.requestPacket (s : State) (r : Remote) (off n : Nat) : Packet :=
  let data := if r.kind == .rst || r.kind == .kret then s.bytes (r.pa + off) n else []
  { badTag := none, op := remOp r.kind, code := 0, len := BitVec.ofNat 8 (if r.kind == .rcfAdd || r.kind == .fenceF then 0 else n)
    sub := r.sub, rtag := s.nextTag, da := if r.kind == .kret then 0 else r.da + BitVec.ofNat 64 off
    opnd := if r.kind == .rcfAdd || r.kind == .fenceF then (r.opnd.setWidth 32).setWidth 64 else if r.kind == .ramo then r.opnd else 0
    cmp := if r.kind == .ramo then r.cmp else 0, rest := 0, data := data }

/-- The first command of core c to a package that has a packet to send, if it may send it now; the first packet of a reply tile
needs a credit (R262, R264, R267).
[DEDUCED, log 31] -/
def State.nextRequest (s : State) (c : Nat) (pkg : Byte) : Option (EngCmd × Remote × Nat × Nat) :=
  let k := s.core c
  (List.range k.eng.length).findSome? fun i =>
    match k.begun i with
    | some e =>
      match e.op with
      | .remote r =>
        if r.pkg = pkg && k.firstTo i pkg then
          (r.unsent.head?).bind fun p =>
            if r.kind != .rldIq || p.1 % 2048 != 0 || s.replyCredit c r then some (e, r, p.1, p.2) else none
        else none
      | _ => none
    | none => none

/-- Record that the packet of a piece has been sent. -/
def State.sentPacket (s : State) (c id off n : Nat) : State :=
  { s.modCore c fun k => k.modCmd id fun e => match e.op with
      | .remote r => { e with op := .remote { r with sent := off + 1, out := r.out ++ [{ tag := s.nextTag, off := off, len := n }] } }
      | _ => e with nextTag := s.nextTag + 1 }

/-- The next flit of a remote-engine end (TYPE 2): the data flit of the packet begun, an owed probe answer, or a request. A
piece whose source is spoiled, or that the offset field cannot hold, takes no flit (Table 13.3). Table 17.8 lists PROBE_ANS among the
responses, and R316 puts it into the request stream: the model sends it as an MREQ flit, TYPE 2. [DESIGN CHOICE, log 61] -/
def State.requestSend (s : State) (id : Nat) : Option State :=
  let x := s.circ id
  if x.ends = 4 then s.relaySend id 2
  else if x.ends = 2 then s.answerSend id 2
  else if x.ends != 1 then none
  else
    match x.reqData with
    | some p => some ((s.sendCirc id 2 0 (payloadOf p.data)).modCirc id fun y => { y with reqData := none })
    | none =>
      match x.probes with
      | tag :: t =>
        some ((s.sendCirc id 2 0 (packetHeader { respPacket 11 0 tag [] with len := 0 })).modCirc id fun y => { y with probes := t })
      | [] =>
        match s.nextRequest x.core x.remote with
        | none => none
        | some (e, r, off, n) =>
          if s.spoiled r off n then some (s.markSent x.core e.id off true)
          else if r.kind != .kret && decide (2 ^ 40 < daOff r.da + off + n) then
            some ((s.answer x.core e.id off n codeRange []).markSent x.core e.id off true)
          else
            let p := s.requestPacket r off n
            some (((s.sendCirc id 2 0 (packetHeader p)).sentPacket x.core e.id off n).modCirc id fun y =>
              { y with reqData := if hasData p then some p else none })

/-- Flit `pos` of a CONTROL message: its header (R426), then its data. -/
def ctlBeat (kind : Byte) (m : CtlMsg) (pos : Nat) : Beat :=
  if pos = 0 then
    payloadOf ([kind, 0] ++ bytesOf 2 (BitVec.ofNat 16 (ceilDiv m.data.length 64)) ++ [m.src, m.dst, 0, 0] ++ bytesOf 8 m.arg)
  else payloadOf (m.data.drop (64 * (pos - 1)))

/-- The next flit of CONTROL circuit 0 of a link (TYPE 4): the header of a message, then its data. -/
def State.ctlSend (s : State) (l : Nat) : Option State :=
  match (s.link' l).ctlq with
  | [] => none
  | (kind, m) :: t =>
    let n := ceilDiv m.data.length 64
    let pos := (s.link' l).ctlPos
    some ((s.sendCtlFlit l (ctlBeat kind m pos)).modLink l fun x =>
      if n ≤ pos then { x with ctlq := t, ctlPos := 0 } else { x with ctlPos := pos + 1 })

/-! ## A flit slot (R370, R382) -/

/-- The OPEN circuits of a link, by index. -/
def State.openOn (s : State) (l : Nat) : List Nat := ((s.circsOn l).filter fun e => e.2.state == .isOpen).map (·.1)

/-- The circuit that slot j of a frame is reserved for: the reservations stand in index order at the start of the frame (log 8).
[DESIGN CHOICE, log 45] -/
def State.slotOwner (s : State) (l j : Nat) : Option Nat :=
  ((s.openOn l).foldl (fun (a : Nat × Option Nat) id =>
    let x := s.circ id
    let r := if x.kind = 0 && x.forwardOut then x.res else 0
    (a.1 + r, if a.2.isNone && decide (a.1 ≤ j) && decide (j < a.1 + r) then some id else a.2)) (0, none)).2

/-- The first circuit of a list that sends. -/
def State.firstSend (s : State) (l : List Nat) (f : State → Nat → Option State) : Option State := l.findSome? fun id => f s id

/-- STREAM circuits in round-robin order from the one after the last served. -/
def State.robin (s : State) (l : Nat) : List Nat :=
  let n := (s.link' l).rrNext
  ((s.openOn l).filter fun id => decide (n ≤ id % 16)) ++ (s.openOn l).filter fun id => decide (id % 16 < n)

/-- A slot that no reservation takes: the first of ACK or NAK, replay, CTL, CREDIT, MRSP, MREQ, STREAM; else IDLE.
[DESIGN CHOICE, log 45] -/
def State.freeSlotSend (s : State) (l : Nat) : State :=
  let x := s.link' l
  let ids := s.openOn l
  let idle := s.modLink l fun y => y.put (linkFlit 0 0)
  if x.nakDue then s.modLink l fun y => { y.put (linkFlit 7 (y.rxSeq.setWidth 512)) with nakDue := false, nakOut := true, nakSeq := y.rxSeq }
  else if x.ackDue then s.modLink l fun y => { y.put (linkFlit 6 ((y.rxSeq - 1).setWidth 512)) with ackDue := false }
  else
    match x.replay[x.replay.length - x.resend]? with
    | some f => if 0 < x.resend then s.modLink l fun y => { y.put f with resend := y.resend - 1 } else idle
    | none =>
      if !x.mayAdd then idle
      else
        ((s.ctlSend l).orElse fun _ => (s.firstSend ids fun t id => t.relaySend id 4).orElse fun _ =>
          (s.firstSend ids State.creditSend).orElse fun _ =>
          (s.firstSend ids fun t id => if (t.circ id).ends = 4 then t.relaySend id 3 else t.answerSend id 3).orElse fun _ =>
          (s.firstSend ids State.requestSend).orElse fun _ =>
          ((s.robin l).findSome? fun id => (s.streamSend id).map fun t => t.modLink l fun y => { y with rrNext := (id + 1) % 16 })).getD idle

/-- Bytes of an identity record up to its signature (Table 19.3). -/
def recordHead (serial : BitVec 128) (encl : BitVec 64) (link : Nat) (fwdig : BitVec 512) (devkey : BitVec 456)
    (cert : BitVec 912) (xpub : BitVec 448) (nonce : BitVec 128) : List Byte :=
  bytesOf 16 serial ++ bytesOf 8 encl ++ [BitVec.ofNat 8 link] ++ List.replicate 7 0 ++ bytesOf 64 fwdig ++ bytesOf 57 devkey ++
  List.replicate 7 0 ++ bytesOf 114 cert ++ List.replicate 6 0 ++ bytesOf 56 xpub ++ bytesOf 16 nonce ++ List.replicate 32 0

/-- The X448 base point. -/
def x448Base : Nat := 5

/-- This package's identity record on a link (R416); its ATTEST signs the peer's NONCE once that is known. -/
def State.ownRecord (s : State) (l : Nat) : List Byte :=
  let x := s.link' l
  let h := recordHead Config.fuseSerial Config.fuseEncl l s.boot.fwdig Config.fuseDevKey Config.fuseCert
    (BitVec.ofNat 448 (Config.x448 x.xpriv x448Base)) x.nonce
  h ++ bytesOf 114 (Config.deviceSign (h ++ bytesOf 16 (x.peerNonce.getD 0))) ++ List.replicate 14 0

/-- FLIT_SLOT: one slot of a link direction carries one flit; a reserved slot whose owner has a flit waiting carries that
(R382); in TRAINING a slot carries an eighth of the identity record, the last two once the peer's NONCE has come.
[DESIGN CHOICE, log 45] -/
def flitSlot (l : Nat) (s : State) : Option State :=
  let x := s.link' l
  match x.state with
  | .down | .retrain => none
  | .training => some (s.modLink l fun y => y.put (linkFlit 8 (payloadOf ((s.ownRecord l).drop (64 * (y.slot % (if x.peerNonce.isSome then 8 else 6)))))))
  | .up =>
    if 96 ≤ l then none
    else
      let res := if x.mayAdd then (s.slotOwner l x.slot).bind s.streamSend else none
      some (res.getD (s.freeSlotSend l))
def execFlitSlot (l : Nat) (s : State) : Host.Outcome State Fault Refusal := happen (flitSlot l) s

/-! ## Acknowledgement and replay (R373) -/

/-- The LSEQ of the oldest unacknowledged flit. -/
def Link.oldest (x : Link) : BitVec 16 := x.txSeq - BitVec.ofNat 16 x.replay.length

/-- Free n places at the front of the replay buffer. -/
def Link.free (x : Link) (n : Nat) : Link :=
  { x with replay := x.replay.drop n, resend := min x.resend (x.replay.length - n) }

/-- ACK: every flit up to the LSEQ has been received in order. -/
def ack (l lseq : Nat) (s : State) : Option State :=
  let x := s.link' l
  let n := (BitVec.ofNat 16 lseq + 1 - x.oldest).toNat
  if x.state == .up && decide (n ≤ x.replay.length) then some (s.modLink l fun y => y.free n) else none
def execAck (l lseq : Nat) (s : State) : Host.Outcome State Fault Refusal := happen (ack l lseq) s

/-- NAK: everything before the LSEQ was received; the sender resends from it. The eighth NAK that names one LSEQ takes the
link into RETRAIN (R374). -/
def nak (l lseq : Nat) (s : State) : Option State :=
  let x := s.link' l
  let n := (BitVec.ofNat 16 lseq - x.oldest).toNat
  if x.state == .up && decide (n ≤ x.replay.length) then
    let same := 0 < x.nakCnt && x.nakName == BitVec.ofNat 16 lseq
    let cnt := if same then x.nakCnt + 1 else 1
    some (s.modLink l fun y =>
      let z := y.free n
      { z with resend := z.replay.length, nakName := BitVec.ofNat 16 lseq, nakCnt := if 8 ≤ cnt then 0 else cnt
               state := if 8 ≤ cnt then .retrain else z.state })
  else none
def execNak (l lseq : Nat) (s : State) : Host.Outcome State Fault Refusal := happen (nak l lseq) s

/-- Fields of a received control word (Table 17.2). -/
def flitLseq (f : Flit) : BitVec 16 := f.ctrl.extractLsb' 16 16
def flitCirc (f : Flit) : Nat := fld f.ctrl.toNat 12 4
def flitTy (f : Flit) : Nat := fld f.ctrl.toNat 8 4
def flitSb (f : Flit) : Nat := fld f.ctrl.toNat 0 3

/-- The CRC of a received flit passes, its TYPE is not reserved and its reserved bits are zero (R372). -/
def flitSound (f : Flit) : Bool :=
  mkFlit f.payload f.auth f.ctrl == f && decide (flitTy f ≤ 8) && fld f.ctrl.toNat 3 5 == 0

/-- The flit is a circuit flit (R372). -/
def flitOfCircuit (f : Flit) : Bool := decide (1 ≤ flitTy f) && decide (flitTy f ≤ 5)

/-- An OPEN circuit's end here takes flits of a type: what they bring has an arrival of its own. -/
def State.takes (s : State) (id ty : Nat) : Bool :=
  let x := s.circ id
  if x.ends = 4 then true
  else if x.ends = 0 then
    (if x.port < 16 then ty == 1 && (s.bond id).any fun m => (s.iq x.core x.port).bind == .circ m
     else ty == 5 && (s.bond id).any fun m => (s.oq x.core (x.port - 16)).bind == .circ m)
  else if x.ends = 1 then ty == 2 || ty == 3
  else if x.ends = 2 then ty == 2
  else ty == 4

/-! ## A link that goes DOWN (R375, R425, R429, R431) -/

/-- The parent of a package in the broadcast tree of the accepted image. -/
def State.parentOf (s : State) (p : Nat) : Option Nat := ((pkgRecords s.boot.image).find? fun r => r.pkg == p).map (·.parent)

/-- A link between two packages has been reported DOWN at one of its ends. -/
def State.cut (s : State) (a b : Nat) : Bool := s.boot.down.contains (a, b) || s.boot.down.contains (b, a)

/-- The reports of package q reach the root: the way up the tree from q meets neither p, nor a failed package, nor a link that has been
reported DOWN (fuel). [DESIGN CHOICE, log 60] -/
def State.reaches (s : State) (p : Nat) : Nat → Nat → Bool
  | 0, _ => false
  | fuel + 1, q =>
    if q = p || s.boot.failed.contains q then false
    else if q = s.boot.root then true
    else (s.parentOf q).any fun r => !s.cut q r && s.reaches p fuel r

/-- Circuit entries of a package in the accepted image. -/
def State.entriesOf (s : State) (p : Nat) : List Circ :=
  (sectionsOf s.boot.image p 3).flatMap fun x => (records 32 x.payload).map circOf

/-- Packages whose entries name circuit `tag` as relays. -/
def State.relaysOf (s : State) (tag : BitVec 32) : List Nat :=
  ((pkgRecords s.boot.image).map (·.pkg)).filter fun q => (s.entriesOf q).any fun x => x.tag == tag && x.ends == 4

/-- The image puts a link between two packages: a circuit that has an end at each and no relay, or an end at one and its only relay
at the other. -/
def State.hop (s : State) (p q : Nat) : Bool :=
  (s.entriesOf p).any fun x => (s.entriesOf q).any fun y =>
    x.tag == y.tag && (if x.ends = 4 || y.ends = 4 then x.ends != y.ends && s.relaysOf x.tag == [if x.ends = 4 then p else q]
      else (s.relaysOf x.tag).isEmpty)

/-- Package q is a neighbour of p as far as the root can see: in the tree, by a circuit of the image, or by a link of its own.
[DESIGN CHOICE, log 60] -/
def State.beside (s : State) (p q : Nat) : Bool :=
  s.parentOf p == some q || s.parentOf q == some p || s.hop p q ||
  (q == s.boot.root && s.links.any fun e => e.2.peerPkg == some (BitVec.ofNat 8 p))

/-- The neighbours of a package that remain reachable (R429). [DESIGN CHOICE, log 60] -/
def State.watchers (s : State) (p : Nat) : List Nat :=
  (((pkgRecords s.boot.image).map (·.pkg)).filter fun q => q != p && s.beside p q && s.reaches p 256 q).eraseDups

/-- The root declares a package failed, and reports INSTANCE_LOST for each instance whose Kiln was there (R429, R431). -/
def State.declareFailed (s : State) (p : Nat) : State :=
  if s.boot.failed.contains p then s
  else
    let is := (sectionsOf s.boot.image p 2).flatMap fun x => (records 544 x.payload).map fun b => leAt b 0 1
    { s with boot := { s.boot with
        failed := s.boot.failed ++ [p], lost := s.boot.lost ++ is.map fun i => (s.boot.domain.getD 0, i, p) } }

/-- The root declares a package failed once every neighbour that it can hear has reported it. [DESIGN CHOICE, log 60] -/
def State.declare (s : State) (p : Nat) : State :=
  let w := s.watchers p
  if w.isEmpty || !(w.all fun q => s.boot.down.contains (p, q)) then s else s.declareFailed p

/-- Judge every package that has been reported, as often as there are reports: a package that fails may have been a neighbour whose
report another one still lacked. -/
def State.declareAll (s : State) : State :=
  s.boot.down.foldl (fun t _ => s.boot.down.foldl (fun q r => q.declare r.1) t) s

/-- The root keeps a PKGDOWN report, and may declare packages failed. -/
def State.reportDown (s : State) (p by_ : Nat) : State :=
  { s with boot := { s.boot with down := s.boot.down ++ [(p, by_)] } }.declareAll

/-- A link goes DOWN: its circuits fail with LINK; the package behind it is reported, and a child that has not acknowledged the
image is lost (R375, R425, Table 19.10). -/
def State.linkDown (s : State) (l : Nat) : State :=
  let x := s.link' l
  let s1 := { s with links := sset Link.reset s.links l { Link.reset with peer := x.peer, peerPkg := x.peerPkg } }
  let s2 := s1.failLink l
  match x.peerPkg with
  | none => s2
  | some q =>
    let p := q.toNat
    let s3 := if s2.isRoot then s2.reportDown p s2.pkgNo.toNat else s2.sendUp 8 (BitVec.ofNat 64 p)
    if s3.boot.waiting.contains p then
      let s4 := { s3 with boot := { s3.boot with waiting := s3.boot.waiting.erase p } }
      if s4.isRoot then s4 else s4.sendUp 3 (BitVec.ofNat 64 (5 + p <<< 8))
    else s3

/-! ## Flits that have come (R372, R373, R388) -/

/-- The tag of a flit that has come holds at this end of its circuit (R386, R388); under PLAIN it is not checked. -/
def State.tagHolds (s : State) (id : Nat) (f : Flit) : Bool :=
  let x := s.circ id
  x.mode == 0 || f.auth == s.tagOf x (1 - s.dir x) x.recvNo (flitTy f) (flitSb f) f.payload

/-- What a flit that has come holds, unsealed (R386). -/
def State.opened (s : State) (id : Nat) (f : Flit) : RelayFlit :=
  let x := s.circ id
  { ty := BitVec.ofNat 4 (flitTy f), sb := BitVec.ofNat 3 (flitSb f), auth := f.auth
    payload := if x.mode = 2 then
        Config.openPayload (sget 0 s.boot.keySlots x.keyslot) (nonceOf x.tag (1 - s.dir x) x.recvNo) f.payload
      else f.payload }

/-- The first byte of a header flit: its OP. -/
def headerOp (b : Beat) : Byte := b.extractLsb' 0 8

/-- The flits of a type that a circuit keeps, from the one to be delivered next up to the first that is still to come. -/
def State.keptRun (s : State) (id ty : Nat) : List RelayFlit :=
  let kept := ((s.bond id).map fun m => (s.circ m).rxBuf.length).sum
  ((s.nextFlits id ty kept).takeWhile fun r => r.2.isSome).filterMap (·.2)

/-- Flits of a type that a circuit keeps make a whole entry (its last beat has come), a free-slot notice, or a whole packet. -/
def State.whole (s : State) (id ty : Nat) : Bool :=
  let run := s.keptRun id ty
  if ty = 1 then run.any fun f => f.sb.getLsbD 1
  else if ty = 5 then !run.isEmpty
  else
    match run with
    | [] => false
    | h :: t => !(headerOp h.payload == 1 || headerOp h.payload == 6 || headerOp h.payload == 10) || !t.isEmpty

/-- How many of the flits kept make what is whole, of those that no packet is made of: the beats of an entry, or one CREDIT flit. -/
def State.wholeLen (s : State) (id ty : Nat) : Nat :=
  if ty = 1 then (s.keptRun id ty).findIdx (fun f => f.sb.getLsbD 1) + 1 else 1

/-- An arrival takes what is whole: a packet; the beats of an entry, whose sidebands are those of R234; a count of notices that the
consumer can have sent (Table 17.3, R338). -/
def State.claimed (s : State) (id ty : Nat) : Bool :=
  let x := s.circ id
  let run := (s.keptRun id ty).take (s.wholeLen id ty)
  if ty = 1 then
    run.map (·.sb.toNat) == (entryFlits { kind := if run.any (·.sb.getLsbD 2) then .marker else .tile, beats := run.map (·.payload) }).map (·.2)
  else if ty = 5 then
    run.all fun f => decide (1 ≤ f.payload.toNat) && decide (f.payload.toNat ≤ 16) &&
      decide ((s.oq x.core (x.port - 16)).credits + f.payload.toNat ≤ s.farCap x)
  else true

/-- A sound flit of CONTROL circuit 0 in its order: a tag that fails takes the link DOWN (R388); a CTL flit that does not complete
its message is kept, and one of another type is discarded. The flit that completes a message comes with the message's event. -/
def State.takeCtlFlit (s : State) (l : Nat) (f : Flit) : Option State :=
  let x := s.link' l
  let nonce := nonceOf 0 (s.ctlDir l false) x.ctlRecv
  let t := (s.took l 1).modLink l fun y => { y with ctlRecv := y.ctlRecv + 1 }
  if f.auth != Config.flitTag true x.k0 nonce (flitTy f <<< 4 + flitSb f) f.payload then some (s.linkDown l)
  else if flitTy f != 4 then some t
  else
    let b := Config.openPayload x.k0 nonce f.payload
    if fld ((x.ctlBuf.head?.getD b).toNat) 16 16 ≤ x.ctlBuf.length then none
    else some (t.modLink l fun y => { y with ctlBuf := y.ctlBuf ++ [b] })

/-- A sound flit of a circuit in its order: at a FREE index it is discarded and FAIL goes back, at a FAILED circuit it is discarded
(R379, R380); at an OPEN circuit's end its tag is checked (R388), and one that the end has no use for is discarded. Of the others, one
that completes an entry, a notice or a packet comes with the event of that, and a relay's with RELAY_FORWARD; where no arrival takes what
it completes, that is discarded; the rest are kept. [DEDUCED, log 45; DESIGN CHOICE, log 45] -/
def State.takeFlit (s : State) (l : Nat) (f : Flit) : Option State :=
  let id := circId l (flitCirc f)
  if flitCirc f = 0 then s.takeCtlFlit l f
  else match (s.circ id).state with
    | .free => some ((s.took l 1).tellPeer l 5 (flitCirc f))
    | .failed => some (s.tookOn id 1)
    | .isOpen =>
      if (s.circ id).ends = 4 then none
      else if !s.tagHolds id f then some ((s.tookOn id 1).failCirc id 1)
      else if (s.circ id).ends = 3 || !s.takes id (flitTy f) then some (s.tookOn id 1)
      else
        let t := (s.tookOn id 1).modCirc id fun y => { y with rxBuf := y.rxBuf ++ [((s.circ id).recvNo, s.opened id f)] }
        if !t.whole id (flitTy f) then some t
        else if t.claimed id (flitTy f) then none
        else some (t.accepted id (t.nextFlits id (flitTy f) (t.wholeLen id (flitTy f))))

/-- A NAK for the expected LSEQ is due, unless one is outstanding for it (R373). No rule says when a NAK ceases to be outstanding
while the flit it names has not been accepted. [DESIGN CHOICE, log 8] -/
def State.wantResend (s : State) (l : Nat) : State :=
  let x := s.link' l
  if x.nakOut && x.nakSeq == x.rxSeq && !Config.nakAnswered s.ticks then s else s.modLink l fun y => { y with nakDue := true }

/-- CRC_FAILURE: a flit that fails FEC decoding (none) or its CRC, or that R372 treats so, or whose LSEQ is not the one expected,
is discarded and asked for again (R373). A sound flit that is accepted before the entry, packet or message that it belongs to is
whole, or that none takes, is a case of this one too. -/
def crcFailure (x : FlitIn) (s : State) : Option State :=
  let l := x.link
  if (s.link' l).state != .up then none
  else match x.flit with
    | none => some (s.wantResend l)
    | some f =>
      if !flitSound f then some (s.wantResend l)
      else if !flitOfCircuit f then none
      else if flitLseq f != (s.link' l).rxSeq then some (s.wantResend l)
      else s.takeFlit l f
def execCrcFailure (x : FlitIn) (s : State) : Host.Outcome State Fault Refusal := happen (crcFailure x) s

/-! ## Retrain (R374, R375) -/

/-- RETRAIN: a lane loses block lock. -/
def retrain (l : Nat) (s : State) : Option State :=
  if (s.link' l).state == .up then some (s.modLink l fun y => { y with state := .retrain, nakCnt := 0 }) else none
def execRetrain (l : Nat) (s : State) : Host.Outcome State Fault Refusal := happen (retrain l) s

/-- Count a retrain in the LINK_RETRAINED notice of a world: the one that is queued, or a new one (R396). -/
def State.retrainNotice (s : State) (l : Nat) (world : Bool) : State :=
  let mine (n : Notice) : Bool := fld n.w0.toNat 0 8 == 5 && fld n.w1.toNat 0 7 == l && n.w0.getLsbD 12 == world
  let bump (n : Notice) : Notice :=
    if mine n then { n with w1 := BitVec.ofNat 64 (l + min 0xFFFF (fld n.w1.toNat 16 16 + 1) <<< 16) } else n
  if s.notices.any mine then { s with notices := s.notices.map bump }
  else s.notify { w0 := noticeW0 0 5 0 world, w1 := BitVec.ofNat 64 (l + 1 <<< 16), w2 := 0, w3 := 0 }

/-- RETRAIN_SUCCESS: the link is UP and resumes at the oldest unacknowledged flit; one notice for each world. -/
def retrainSuccess (l : Nat) (s : State) : Option State :=
  if (s.link' l).state == .retrain then
    some (((s.modLink l fun y => { y with state := .up, resend := y.replay.length, nakCnt := 0 }).retrainNotice l false).retrainNotice
      l true)
  else none
def execRetrainSuccess (l : Nat) (s : State) : Host.Outcome State Fault Refusal := happen (retrainSuccess l) s

/-- RETRAIN_TIMEOUT: three attempts or 1 ms have passed. -/
def retrainTimeout (l : Nat) (s : State) : Option State :=
  if (s.link' l).state == .retrain then some (s.linkDown l) else none
def execRetrainTimeout (l : Nat) (s : State) : Host.Outcome State Fault Refusal := happen (retrainTimeout l) s

/-! ## Training (R416 to R418) -/

/-- Begin a training: a fresh ephemeral key and nonce. -/
def State.beginTraining (s : State) (l : Nat) : State :=
  let d := s.boot.draws
  { s.modLink l fun _ =>
      { Link.reset with state := .training, xpriv := Config.freeRandom d, nonce := BitVec.ofNat 128 (Config.freeRandom (d + 1)) } with
    boot := { s.boot with draws := d + 2 } }

/-- K0 (R418). -/
def linkKey (z : Nat) (a : BitVec 128 × BitVec 128) (b : BitVec 128 × BitVec 128) : Nat :=
  let lo := if a.1.toNat < b.1.toNat then a else b
  let hi := if a.1.toNat < b.1.toNat then b else a
  Config.shake256 256 ([0x4A, 0x51, 0x4C, 0x49, 0x4E, 0x4B] ++ bytesOf 56 (BitVec.ofNat 448 z) ++ bytesOf 16 lo.1 ++ bytesOf 16 hi.1 ++
    bytesOf 16 lo.2 ++ bytesOf 16 hi.2)

/-- CERT verifies under the receiver's ROOTKEY and ATTEST under DEVKEY (R417). -/
def State.recordOk (s : State) (l : Nat) (r : IdRecord) : Bool :=
  let own := (s.link' l).nonce
  Config.ed448Verify s.boot.rootKey.toNat (bytesOf 16 r.serial ++ bytesOf 8 r.encl ++ bytesOf 57 r.devkey) r.cert.toNat &&
  Config.ed448Verify r.devkey.toNat
    (recordHead r.serial r.encl r.link.toNat r.fwdig r.devkey r.cert r.xpub r.nonce ++ bytesOf 16 own) r.attest.toNat

/-- The peer's record decides a training: UP with a new K0 and the flit counts at 0, and a new status of the security block, or
DOWN (R417, R418). [DESIGN CHOICE, log 48] -/
def State.endTraining (s : State) (l : Nat) (r : IdRecord) : State :=
  if s.recordOk l r && r.accepts then
    { (s.modLink l fun y =>
        { Link.reset with
          state := .up, peer := some (r.serial, r.encl, r.fwdig), peerPkg := pkgOfSerial s.boot.image r.serial
          k0 := linkKey (Config.x448 y.xpriv r.xpub.toNat) (Config.fuseSerial, y.nonce) (r.serial, r.nonce)
          nonce := y.nonce, peerNonce := some r.nonce }) with
      boot := { s.boot with secPend := true } }
  else s.modLink l fun _ => Link.reset

/-- IDENTITY_RECORD: while the package runs, a link that is DOWN begins to train; in TRAINING the head of the peer's record brings
its NONCE, and the whole record decides. [DEDUCED, log 47] -/
def linkRecord (l : Nat) (r : IdRecord) (s : State) : Option State :=
  let x := s.link' l
  if decide (96 ≤ l) || s.power.off || s.power.bootfail then none
  else
    match x.state with
    | .down => some (s.beginTraining l)
    | .training =>
      match x.peerNonce with
      | none => some (s.modLink l fun y => { y with peerNonce := some r.nonce })
      | some n => if r.nonce = n then some (s.endTraining l r) else none
    | .up | .retrain => none

/-- M-level firmware runs: the package has booted, and a hub core that is not held in reset is at level M (R415). -/
def State.firmwareAsks (s : State) : Bool :=
  !s.power.off && !s.power.bootfail && (List.range 8).any fun h =>
    (s.core (512 + h)).hub.priv == .m && !(s.core (512 + h)).hub.inReset

/-- IDENTITY_RECORD, and what else the security block takes: its status is read, which clears its interrupt source (R36), its
rollback counter is raised at the request of M-level firmware (R415), the debug port is unlocked (R432).
[DESIGN CHOICE, log 48; DESIGN CHOICE, log 59] -/
def identityRecord (l : Nat) (r : SecInput) (s : State) : Option State :=
  match r with
  | .record x => linkRecord l x s
  | .status => some { s with boot := { s.boot with secPend := false } }
  | .rollback v =>
    if s.firmwareAsks && decide (s.boot.rollback.toNat < v.toNat) then some { s with boot := { s.boot with rollback := v } } else none
  | .unlock => some { s with boot := { s.boot with debugOpen := true } }
def execIdentityRecord (l : Nat) (r : SecInput) (s : State) : Host.Outcome State Fault Refusal := happen (identityRecord l r) s

/-! ## Transit relays (R385) -/

/-- RELAY_FORWARD: a flit accepted on one side of a relay enters the buffer of the other side, from which that side's link
sends it; while the buffer is full, or that link cannot take it, the incoming link holds it. -/
def relayForward (id : Nat) (f : RelayFlit) (s : State) : Option State :=
  let x := s.circ id
  let out := circId x.outlink x.outidx
  if x.ends = 4 && x.state == .isOpen && (s.link' (id / 16)).state == .up && (s.link' x.outlink).state == .up &&
     decide ((s.circ out).relay.length < 64) && decide (1 ≤ f.ty.toNat) && decide (f.ty.toNat ≤ 5) then
    some (((s.tookOn id 1).wakeAll (meshPath (linkQuarter (id / 16)) (linkQuarter x.outlink))).modCirc out fun y =>
      { y with relay := y.relay ++ [f] })
  else none
def execRelayForward (id : Nat) (f : RelayFlit) (s : State) : Host.Outcome State Fault Refusal := happen (relayForward id f) s

end Sys2Proof.Machine
end

