-- ==== Sys2Proof/Machine/Packets.lean ====
section
/-! DEFINITION. Memory packets on arrival (spec/17 R384, spec/11 R265 to R270, spec/13 R313 to R316): requests at the window-table
end of a MEMORY circuit, responses and probes at its requester end. -/

namespace Sys2Proof.Machine

/-- The flits of a packet: payload and sideband. -/
def packetFlits (p : Packet) : List (Beat × Nat) := (packetHeader p, 0) :: if hasData p then [(payloadOf p.data, 0)] else []

/-- A packet arrives in flits of a type at an end of a MEMORY circuit: nothing of it is delivered when a tag fails (R388), else `f`
acts on the state in which its flits are accepted. [DESIGN CHOICE, log 45] -/
def State.arrive (s : State) (id ends ty : Nat) (p : Packet) (f : State → Circ → State) : Option State :=
  let x := s.circ id
  if x.kind != 1 || x.ends != ends then none else s.arrival id ty (packetFlits p) p.badTag fun t => some (f t x)

/-- The bytes of a packet's range lie within one 64-byte block of the offset. [DEDUCED, log 46] -/
def rangeFits (p : Packet) : Bool :=
  let n := p.len.toNat
  decide (1 ≤ n) && decide (n ≤ 64) && decide (daOff p.da % 64 + n ≤ 64)

/-- The bytes of a packet's data flit: LEN of them, as the flit carries them (R384). -/
def packetBytes (p : Packet) : List Byte := takeFill p.len.toNat 0 p.data

/-- The answer to an applied request: DATA with the old bytes where it carries any and the code is OK, else RESP. -/
def State.reply (s : State) (id : Nat) (p : Packet) (code : Byte) (data : List Byte) : State :=
  s.respond id (respPacket (if code = 0 && !data.isEmpty then 10 else 9) code p.rtag data)

/-- Answer what an application gave. -/
def Applied.reply (a : Applied) (id : Nat) (p : Packet) : State := a.st.reply id p a.code a.data

/-- The header fields that a request of its OP does not use are zero (R384). [DEDUCED, log 46] -/
def fieldsOk (p : Packet) : Bool :=
  let op := p.op.toNat
  p.code == 0 && p.rest == 0 && fld p.da.toNat 56 8 == 0 &&
  (if op = 3 || op = 4 || op = 5 then true else p.opnd == 0) &&
  (op == 3 || p.cmp == 0) && (!(op == 4 || op == 5) || fld p.opnd.toNat 32 32 == 0) &&
  (!(op == 1 || op == 2) || p.sub == 0) && (!(op == 4 || op == 5) || p.len == 0) && (op != 6 || p.da == 0)

/-- Codes that no request to a window-table end has, reserved ones, a PROBE and the responses, which a WRITE arrival stands for too:
answered RANGE. [DEDUCED, log 46] -/
def reservedOp (op : Byte) : Bool := op == 0 || (decide (7 ≤ op.toNat) && op != 11)

/-- WRITE (R265, R266) -/
def write (id : Nat) (p : Packet) (s : State) : Option State :=
  if p.op != 1 && !reservedOp p.op then none
  else s.arrive id 2 2 p fun t x =>
    if p.op != 1 || !fieldsOk p || !rangeFits p then t.reply id p codeRange []
    else (t.applyWrite p.da 0 (packetBytes p) x.owner x.world).reply id p
def execWrite (id : Nat) (p : Packet) (s : State) : Host.Outcome State Fault Refusal := happen (write id p) s

/-- READ (R265, R267) -/
def read (id : Nat) (p : Packet) (s : State) : Option State :=
  if p.op != 2 then none
  else s.arrive id 2 2 p fun t x =>
    if !fieldsOk p || !rangeFits p then t.reply id p codeRange []
    else (t.applyRead p.da 0 p.len.toNat x.owner x.world).reply id p
def execRead (id : Nat) (p : Packet) (s : State) : Host.Outcome State Fault Refusal := happen (read id p) s

/-- ATOMIC (R265, R268) -/
def atomic (id : Nat) (p : Packet) (s : State) : Option State :=
  if p.op != 3 then none
  else s.arrive id 2 2 p fun t x =>
    match RamoOp.ofCode (p.sub.extractLsb' 0 4) with
    | some op =>
      if !fieldsOk p || p.sub.extractLsb' 5 3 != 0 || p.len.toNat != (if p.sub.getLsbD 4 then 8 else 4) then t.reply id p codeRange []
      else (t.applyAtomic p.da op (p.sub.getLsbD 4) p.opnd p.cmp x.owner x.world).reply id p
    | none => t.reply id p codeRange []
def execAtomic (id : Nat) (p : Packet) (s : State) : Host.Outcome State Fault Refusal := happen (atomic id p) s

/-- A flag add at the target: FLAG and FENCE (R269, R315). -/
def flagPacket (op : Byte) (id : Nat) (p : Packet) (s : State) : Option State :=
  if p.op != op then none
  else s.arrive id 2 2 p fun t x =>
    if !fieldsOk p || decide (p.sub.toNat < 32) || decide (64 ≤ p.sub.toNat) then t.reply id p codeRange []
    else (t.applyFlag p.da p.sub.toNat (p.opnd.setWidth 32) x.owner x.world).reply id p

/-- FLAG (R269) -/
def flag (id : Nat) (p : Packet) (s : State) : Option State := flagPacket 4 id p s
def execFlag (id : Nat) (p : Packet) (s : State) : Host.Outcome State Fault Refusal := happen (flag id p) s

/-- FENCE: the packets of one circuit are applied in their order, so every earlier rst and ramo of the issuer has been (R269). -/
def fence (id : Nat) (p : Packet) (s : State) : Option State := flagPacket 5 id p s
def execFence (id : Nat) (p : Packet) (s : State) : Host.Outcome State Fault Refusal := happen (fence id p) s

/-- KRET: the entries join the Kiln's queue and are answered together (R279, R384). -/
def kret (id : Nat) (p : Packet) (s : State) : Option State :=
  if p.op != 6 then none
  else s.arrive id 2 2 p fun t _ =>
    let n := p.len.toNat
    if !fieldsOk p || n % 8 != 0 || n == 0 || decide (64 < n) || decide (8 ≤ p.sub.toNat) then
      t.reply id p codeRange []
    else
      let es := (List.range (n / 8)).map fun i => BitVec.ofNat 64 (leAt (packetBytes p) (8 * i) 8)
      { t with kiln := { t.kiln with queue := t.kiln.queue ++ [.retPkt p.sub.toNat es id p.rtag false] } }
def execKret (id : Nat) (p : Packet) (s : State) : Host.Outcome State Fault Refusal := happen (kret id p) s

/-- Every field that a response or a probe does not use is zero: all but OP, CODE, LEN and RTAG (Table 17.8). -/
def answerFieldsOk (p : Packet) : Bool := p.sub == 0 && p.da == 0 && p.opnd == 0 && p.cmp == 0 && p.rest == 0

/-- PROBE: its RTAG names the window, and every other field is zero (log 46); the answer goes into the request stream behind what has been
sent (R316). Another packet of that type at a requester end,
or a probe with a reserved field, fails the circuit with PROTO. [DEDUCED, log 46] -/
def probe (id : Nat) (p : Packet) (s : State) : Option State :=
  s.arrive id 1 2 p fun t _ =>
    if p.op == 7 && p.code == 0 && p.len == 0 && answerFieldsOk p then t.modCirc id fun y => { y with probes := y.probes ++ [p.rtag] }
    else t.failCirc id 5
def execProbe (id : Nat) (p : Packet) (s : State) : Host.Outcome State Fault Refusal := happen (probe id p) s

/-- The command and packet of core c that a tag names. -/
def Core.findTag (k : Core) (tag : BitVec 32) : Option (Nat × Remote × OutPkt) :=
  k.eng.findSome? fun e => match e.op with
    | .remote r => (r.out.find? fun p => p.tag == tag).map fun p => (e.id, r, p)
    | _ => none

/-- A request answered with DATA. -/
def RemKind.wantsData : RemKind → Bool
  | .rld | .rldIq | .ramo => true
  | .rst | .rcfAdd | .fenceF | .kret => false

/-- A response is well formed: DATA with as many bytes as the request asked for, or RESP with a code of Table 17.8 and no data
length; every other field zero. [DEDUCED, log 46] -/
def responseOk (p : Packet) (r : Remote) (out : OutPkt) : Bool :=
  answerFieldsOk p &&
  (if p.op = 10 then p.code == 0 && r.kind.wantsData && p.len.toNat == out.len
   else p.op == 9 && p.len == 0 && decide (p.code.toNat ≤ 7) && (p.code != 0 || !r.kind.wantsData))

/-- A response at the requester: a malformed one, or one that nothing outstanding asked for, fails the circuit with PROTO (R384).
[DEDUCED, log 46] -/
def response (id : Nat) (p : Packet) (s : State) : Option State :=
  s.arrive id 1 3 p fun t x =>
    match (t.core x.core).findTag p.rtag with
    | none => t.failCirc id 5
    | some (cmd, r, out) => if responseOk p r out then t.answer x.core cmd out.off out.len p.code (packetBytes p) else t.failCirc id 5

/-- RESP, and a response whose OP is that of neither RESP nor DATA. -/
def resp (id : Nat) (p : Packet) (s : State) : Option State := if p.op = 10 then none else response id p s
def execResp (id : Nat) (p : Packet) (s : State) : Host.Outcome State Fault Refusal := happen (resp id p) s

/-- DATA -/
def data (id : Nat) (p : Packet) (s : State) : Option State := if p.op = 10 then response id p s else none
def execData (id : Nat) (p : Packet) (s : State) : Host.Outcome State Fault Refusal := happen (data id p) s

/-- PROBE_ANS: the window that the tag names no longer waits for this circuit (R316); a malformed one, or one that nothing asked for,
fails the circuit with PROTO. [DEDUCED, log 46] -/
def probeAns (id : Nat) (p : Packet) (s : State) : Option State :=
  if p.op != 11 then none
  else s.arrive id 2 2 p fun t _ =>
    let w := p.rtag.toNat
    if p.code == 0 && p.len == 0 && answerFieldsOk p && (t.win w).probes.contains id then t.setWin w { t.win w with probes := (t.win w).probes.erase id } else t.failCirc id 5
def execProbeAns (id : Nat) (p : Packet) (s : State) : Host.Outcome State Fault Refusal := happen (probeAns id p) s

end Sys2Proof.Machine
end

