-- ==== Sys2Proof/Machine/Boot.lean ====
section
/-! DEFINITION. The domain image and the CONTROL messages (spec/19): acceptance (Tables 19.4, 19.5, 19.9), forwarding, circuit keys
(R419), the application of an image (R422 to R425), and the messages of Table 19.10. -/

namespace Sys2Proof.Machine

/-! ## HUBIMG (R424, Table 19.13) -/

/-- The range that a hub image covers: LOADPA and length to the last .bss byte. -/
def hubRange (p : List Byte) : Nat × Nat :=
  let load := leAt p 0 8
  let code := 32 * leAt p 8 4
  (load, ceilDiv (load + code) 65536 * 65536 - load + leAt p 12 4 + leAt p 16 4)

/-- Descriptor n of a hub image. -/
def hubSeg (p : List Byte) (n : Nat) : Word := BitVec.ofNat 64 (leAt p (96 + 8 * n) 8)

/-- A descriptor of a hub image is not zero where its SEGMASK bit is 0, or is one that seg.set would not write for a core of its
CTX. [DEDUCED, log 47] -/
def badHubSeg (p : List Byte) (n : Nat) : Bool :=
  let d := hubSeg p n
  if (leAt p 26 2).testBit n then !segOk d || (segWorld d && !(leAt p 25 1).testBit 4) else d != 0

/-- A hub image breaks a rule of Table 19.13; its capacities fit the 16 slots of a hub core (R20). [DEDUCED, log 47] -/
def badHub (p : List Byte) : Bool :=
  let r := hubRange p
  let stop := r.1 + r.2
  r.1 % 65536 != 0 || leAt p 8 4 == 0 || decide (2 ^ 24 < leAt p 8 4) || decide (leAt p 8 4 ≤ leAt p 20 4) ||
  decide (32 ≤ leAt p 25 1) || leAt p 28 4 != 0 || badPorts p 32 || (p.length != 224 + 32 * leAt p 8 4 + leAt p 12 4) ||
  (List.range 16).any (badHubSeg p) || decide (16 < ((List.range 16).map fun n => leAt p (33 + 2 * n) 1).sum) ||
  (if (leAt p 25 1).testBit 4 then decide (r.1 < 0x870000000) || decide (0x880000000 < stop)
   else decide (r.1 < 0x800000000) || decide (0x870000000 < stop))

/-- Two hub images share a byte. -/
def hubOverlap (a b : List Byte) : Bool := overlap (hubRange a).1 (hubRange a).2 (hubRange b).1 (hubRange b).2

/-- Some two of a list are related. -/
def anyPair {α : Type} (f : α → α → Bool) : List α → Bool
  | [] => false
  | x :: t => t.any (f x) || anyPair f t

/-! ## Instances (Tables 16.1, 19.6) -/

/-- The parameters of an instance record. -/
def instOf (b : List Byte) : Nat × Inst :=
  let u (o n : Nat) := leAt b o n
  (u 0 1,
   { Inst.reset with
     placed := true, rmax := u 2 2, d := u 1 1, chunk := u 4 1, slots := u 6 2, pool := u 8 4, pmax := u 12 4, maxpos := u 16 4
     evlim := u 5 1, plbase := u 24 8
     stop := (List.range 16).map fun t => (List.range 8).map fun j => BitVec.ofNat 32 (u (32 + 32 * t + 4 * j) 4)
     kcore := fld (u 20 4) 0 9, kiq := fld (u 20 4) 16 4 })

/-- A record out of the ranges of Table 16.1. -/
def badInst (b : List Byte) : Bool :=
  let x := (instOf b).2
  decide (8 ≤ (instOf b).1) || x.rmax == 0 || decide (256 < x.rmax) || x.d == 0 || decide (16 < x.d) || x.chunk == 0 ||
  decide (64 < x.chunk) || x.slots == 0 || decide (1024 < x.slots) || decide (2 ^ 20 < x.pool) || x.pmax == 0 ||
  decide (2 ^ 18 < x.pmax) || x.maxpos == 0 || decide (64 * x.pmax < x.maxpos) || decide (2 ^ 24 < x.maxpos) ||
  x.plbase % 4 != 0 || !(rangeOf x.plbase).isHubMem || fld (leAt b 20 4) 9 7 != 0 || fld (leAt b 20 4) 20 12 != 0 ||
  decide (287 < x.kcore)

/-! ## Payloads -/

/-- A STAGE payload does not hold its rectangle, its lengths and its core sections (R421). -/
def badStage (p : List Byte) : Bool :=
  !(stageRect p).ok || leAt p 4 4 != 0 || (List.range (stageLens p).length).any fun i =>
    decide (p.length < 8 + 4 * (i + 1)) || decide (p.length < stageAt p i + (stageLens p).getD i 0)

/-- A shard record has a CODEC other than 0 and 1, or a spare byte that is not zero (R427). -/
def badShard (b : List Byte) : Bool := decide (1 < leAt b 6 1) || leAt b 7 1 != 0 || leAt b 21 11 != 0

/-- A section's payload is not well formed for its kind. -/
def badPayload (x : ImgSection) : Bool :=
  match x.kind with
  | 2 => x.payload.length % 544 != 0 || (records 544 x.payload).any badInst
  | 3 => x.payload.length % 32 != 0
  | 4 => badStage x.payload
  | 5 => x.payload.length % 64 != 0 || (records 64 x.payload).any badShard
  | 6 => x.payload.length % 4 != 0
  | 7 => badHub x.payload
  | _ => true

/-! ## Acceptance (R425, Table 19.9) -/

/-- Check 1: header fields and the signature. -/
def State.headerOk (s : State) (img : List Byte) : Bool :=
  let key := sget (0 : BitVec 456) s.boot.domKeys (leAt img 6 1)
  img.take 4 == [0x4A, 0x51, 0x49, 0x4D] && leAt img 4 2 == 1 && decide (leAt img 6 1 < 4) && leAt img 7 1 == 0 &&
  imgBodyLen img % 32 == 0 && img.length == 256 + imgBodyLen img && decide (1 ≤ leAt img 24 2) && decide (leAt img 24 2 ≤ 256) &&
  ((img.drop 27).take 5).all (· == 0) && ((img.drop 210).take 46).all (· == 0) && key != 0 &&
  Config.ed448Verify key.toNat (img.take 96) (leAt img 96 114)

/-- A PACKAGES record is well formed: its spare bytes zero, its parent itself at the root (R421). -/
def recordWell (img : List Byte) (r : PkgRec) : Bool := r.spare == 0 && (r.pkg != leAt img 26 1 || r.parent == r.pkg)

/-- Check 4: the sections are well formed and in order, PACKAGES first, and the own serial is there exactly once. -/
def State.formOk (img : List Byte) : Bool :=
  match imgSections img with
  | some (p :: t) =>
    p.kind == 1 && p.pkg == 255 && p.payload.length == 32 * leAt img 24 2 && !t.any badPayload && inOrder t &&
    (pkgRecords img).all (recordWell img) &&
    ((pkgRecords img).filter fun r => r.serial == Config.fuseSerial.toNat).length == 1 &&
    !anyPair (fun a b => a.kind == 7 && b.kind == 7 && a.pkg == b.pkg && hubOverlap a.payload b.payload) t
  | _ => false

/-- The reason to refuse an image, if any. -/
def State.imgRefusal (s : State) (img : List Byte) : Option Nat :=
  if !s.headerOk img then some 1
  else if Config.shake256 512 (img.drop 256) != leAt img 32 64 then some 2
  else if (match s.boot.domain with | some d => d.toNat != leAt img 16 4 | none => false) ||
      (match s.boot.epoch with | some e => decide (leAt img 20 4 ≤ e.toNat) | none => false) then some 3
  else if !State.formOk img then some 4
  else none

/-- A kept flit is flit i of a message; of a header, the bytes that R426 gives a meaning. -/
def ctlIs (kind : Byte) (m : CtlMsg) (i : Nat) (b : Beat) : Bool :=
  let c := ctlBeat kind m i
  if i = 0 then b.extractLsb' 0 8 == c.extractLsb' 0 8 && b.extractLsb' 16 32 == c.extractLsb' 16 32 && b.extractLsb' 64 64 == c.extractLsb' 64 64
  else b == c

/-- A message arrives on CONTROL circuit 0 of a link, after those of its flits that have been accepted: a failed tag takes the link
DOWN (R388); else the others are accepted and counted. [DESIGN CHOICE, log 45] -/
def State.ctlArrives (s : State) (l : Nat) (kind : Byte) (m : CtlMsg) (f : State → State) : Option State :=
  let x := s.link' l
  let n := 1 + ceilDiv m.data.length 64 - x.ctlBuf.length
  if x.state != .up || n = 0 || !((x.ctlBuf.zipIdx).all fun b => ctlIs kind m b.2 b.1) then none
  else if m.badTag.isSome then (if m.badTag.any fun i => i < x.ctlBuf.length then none else some (s.linkDown l))
  else some (f ((s.took l n).modLink l fun y => { y with ctlRecv := y.ctlRecv + n, ctlBuf := [] }))

/-- A message for this package is handled; one for another goes on along the tree. -/
def State.handleOrPass (s : State) (kind : Byte) (m : CtlMsg) (f : State → State) : State :=
  if m.dst = s.pkgNo then f s else s.sendTo kind m

/-! ## Circuit keys (R419) -/

/-- The circuit entries of this package in an image. -/
def ownCircuits (img : List Byte) (pkg : Nat) : List (Circ × Word) :=
  (((imgSections img).getD []).filter fun x => x.kind == 3 && x.pkg == pkg).flatMap fun x =>
    (records 32 x.payload).map fun b => (circOf b, BitVec.ofNat 64 (leAt b 24 8))

/-- A circuit that needs a key here. -/
def keyed (x : Circ) : Bool := x.mode != 0 && x.ends != 4

/-- K of a circuit. R419 gives OWNER no width in the hashed string: the model takes one byte. [DESIGN CHOICE, log 61] -/
def circKey (z : Nat) (epoch : Nat) (x : Circ) : Nat :=
  Config.shake256 256 ([0x4A, 0x51, 0x43, 0x49, 0x52, 0x43] ++ bytesOf 56 (BitVec.ofNat 448 z) ++ bytesOf 4 (BitVec.ofNat 32 epoch) ++
    bytesOf 4 x.tag ++ [x.owner.setWidth 8])

/-- Write the key slots of the circuits to a package; a slot is written once in an epoch. The key of a circuit that is bound
already is in use, and serves no other bind (Table 17.6). -/
def State.writeKeys (s : State) (pkg z : Nat) : State :=
  let e := (s.boot.epoch.getD 0).toNat
  (ownCircuits s.boot.image s.pkgNo.toNat).foldl (fun t c =>
    let x := c.1
    if keyed x && x.remote.toNat == pkg && sget 0 t.boot.slotEpoch x.keyslot != e + 1 then
      { t with boot := { t.boot with
          keySlots := sset 0 t.boot.keySlots x.keyslot (circKey z e x)
          keyLoaded := sset false t.boot.keyLoaded x.keyslot (!(t.bound x.id && (t.circ x.id).tag == x.tag))
          slotEpoch := sset 0 t.boot.slotEpoch x.keyslot (e + 1) } }
    else t) s

/-- Begin the exchange with every package at the far end of a keyed circuit: a fresh key each. -/
def State.startKeys (s : State) : State :=
  let ps := ((ownCircuits s.boot.image s.pkgNo.toNat).filter fun c => keyed c.1).map (fun c => c.1.remote.toNat) |>.eraseDups
  let e := (s.boot.epoch.getD 0).toNat
  ps.foldl (fun t p =>
    let k := Config.freeRandom t.boot.draws
    ({ t with boot := { t.boot with draws := t.boot.draws + 1, kexPriv := sset 0 t.boot.kexPriv p k, awaits := t.boot.awaits ++ [p] } }).sendTo
      4 (t.message p e (bytesOf 64 (BitVec.ofNat 512 (Config.x448 k x448Base))))) s

/-- Use the KEYX messages of the current epoch that packages awaited have sent. -/
def State.useKeys (s : State) : State :=
  let e := (s.boot.epoch.getD 0).toNat
  s.boot.kexIn.foldl (fun t m =>
    if m.2.1 = e && t.boot.awaits.contains m.1 then
      let z := Config.x448 (sget 0 t.boot.kexPriv m.1) m.2.2
      let t1 := t.writeKeys m.1 z
      { t1 with boot := { t1.boot with awaits := t1.boot.awaits.erase m.1, kexIn := t1.boot.kexIn.erase m
                                       kexPriv := sset 0 t1.boot.kexPriv m.1 0 } }
    else t) s

/-! ## Applying an image (R422 to R425) -/

/-- Sections of a package in an image. -/
def pkgSections (img : List Byte) (pkg : Nat) : List ImgSection := ((imgSections img).getD []).filter (·.pkg == pkg)

/-- Configure an instance; its parameters do not change while it has a record that is not FREE (R353). The Kiln keeps the credits
of a port that stays, and what waits for them; a port that it leaves is unbound (R359). -/
def State.setInstance (s : State) (b : List Byte) : State :=
  let x := instOf b
  let old := s.inst x.1
  if s.kiln.recs.any fun e => e.2.inst == x.1 && e.2.state != .free then s
  else
    let stays := old.placed && old.kcore == x.2.kcore && old.kiq == x.2.kiq
    let new := if stays then { x.2 with credits := old.credits, out := old.out } else x.2
    let s1 : State := if old.placed && !stays then
        s.modIq old.kcore old.kiq fun p => if p.bind = .kiln x.1 then { p with bind := .unbound } else p
      else s
    { s1 with kiln := { s1.kiln with insts := sset Inst.reset s1.kiln.insts x.1 new } }

/-- The effective address under which the descriptors of a hub image give code at a physical address; SEG15 is the direct map at
level S (R300). -/
def hubCodeAddr (p : List Byte) (pa : Nat) : Option Nat :=
  (List.range 15).findSome? fun n =>
    let d := hubSeg p n
    if segX d && decide (segBase d * 65536 ≤ pa) && decide (pa < segBase d * 65536 + segLimit d * 65536) then
      some (n * 2 ^ 36 + (pa - segBase d * 65536))
    else none

/-- A hub core takes a hub image: its context, its segments, its ports, and the entry of the system stage at level S (R424,
steps 2 to 4). -/
def Core.takeHub (k : Core) (p : List Byte) : Core :=
  let mask := leAt p 26 2
  let ports := portsAt p 32
  let k1 := { k with
    ctxOwner := BitVec.ofNat 4 (leAt p 25 1), ctxWorld := (leAt p 25 1).testBit 4
    seg := (List.range 16).foldl (fun m n => if mask.testBit n then sset 0 m n (hubSeg p n) else m) k.seg
    iq := (List.range 16).foldl (fun m n =>
      smod IqPort.reset m n fun q =>
        { q with cap := sget 0 ports.2.1 n, owner := if sget 0 ports.1 n = 0 then none else some 0 }) k.iq
    oq := (List.range 16).foldl (fun m n =>
      smod OqPort.reset m n fun q => { q with owner := if sget 0 ports.2.2 n = 0 then none else some 0 }) k.oq }
  let k2 := k1.modStage 0 fun t => { t with inRate := ports.1, outRate := ports.2.2 }
  match hubCodeAddr p (leAt p 0 8 + 32 * leAt p 20 4) with
  | some ea => { k2 with hub := { k2.hub with bankM := { k2.hub.bankM with pc := BitVec.ofNat 40 ea, pie := false, ppriv := .s }
                                              priv := .m, idle := false, stopped := false } }.eret
  | none => k2

/-- Place a hub image and start it (R424). -/
def State.applyHub (s : State) (p : List Byte) : State :=
  let code := 32 * leAt p 8 4
  let dpa := ceilDiv (leAt p 0 8 + code) 65536 * 65536
  let s1 := (s.store (leAt p 0 8) ((p.drop 224).take code)).store dpa ((p.drop (224 + code)).take (leAt p 12 4))
  let s2 := s1.zero (dpa + leAt p 12 4) (leAt p 16 4)
  (List.range 8).foldl (fun t h => if (leAt p 24 1).testBit h then t.modCore (512 + h) fun k => k.takeHub p else t) s2

/-- The first part of an application: instances and hub images. [DEDUCED, log 47] -/
def State.applyFirst (s : State) (l : List ImgSection) : State :=
  let s1 := (l.filter (·.kind == 2)).foldl (fun t x => (records 544 x.payload).foldl State.setInstance t) s
  (l.filter (·.kind == 7)).foldl (fun t x => t.applyHub x.payload) s1

/-- Release every FAILED circuit, before the keys of the image are written (Table 19.11, step 4). -/
def State.releaseFailed (s : State) : State :=
  (s.circs.map (·.1)).foldl (fun t id => if (t.circ id).state = .failed then t.releaseCirc id else t) s

/-- The rest, once the keys are in: circuit binds in table order; then cfg.load of the core sections, each with the rectangle of its
STAGE section, and commits, which take their turn at the configuration unit behind what waits there (R288). [DEDUCED, log 47] -/
def State.applyRest (s : State) (l : List ImgSection) : State :=
  let s1 := (ownCircuits s.boot.image s.pkgNo.toNat).foldl (fun t c =>
    match t.bindRefusal c.1 c.2 false with
    | none => t.installCirc c.1
    | some _ => t) s
  let st := l.filter (·.kind == 4)
  let s2 := st.foldl (fun t x => (stageCores x.payload).foldl (fun q c =>
    q.submit (.load c.1 (leAt c.2 4 1 % 8) c.2 true (some (stageRect x.payload)) imageRq)) t) s1
  st.foldl (fun t x => t.submit (.take (stageRect x.payload))) s2

/-- Finish the application of the accepted image when no key is awaited. [DEDUCED, log 47] -/
def State.finishApply (s : State) : State :=
  if s.boot.applying && s.boot.awaits.isEmpty then
    let t := s.applyRest (pkgSections s.boot.image s.pkgNo.toNat)
    { t with boot := { t.boot with applying := false } }
  else s

/-- Cut an image into IMG messages to a child. -/
def State.forwardImage (s : State) (img : List Byte) (child : Nat) : State :=
  let piece := 65535 * 64
  (List.range (ceilDiv img.length piece)).foldl (fun t i =>
    match t.linkTo child with
    | some l => t.modLink l fun x => { x with ctlq := x.ctlq ++ [(1, t.message child (i * piece) ((img.drop (i * piece)).take piece))] }
    | none => t) s

/-- A package accepts an image: its number, its place in the tree, the image forwarded and acknowledged, FAILED circuits released,
then the image applied. What the root has heard of failures counts for the image it was heard under (log 60). [DEDUCED, log 47] -/
def State.acceptImage (s : State) (img : List Byte) : State :=
  let recs := pkgRecords img
  let own := (recs.find? fun r => r.serial == Config.fuseSerial.toNat).getD { serial := 0, pkg := 0, parent := 0, spare := 0 }
  let kids := (recs.filter fun r => r.parent == own.pkg && r.pkg != own.pkg).map (·.pkg)
  let s1 := { s with
    pkgNo := BitVec.ofNat 8 own.pkg
    links := s.links.map fun (e : Nat × Link) => (e.1, ({ e.2 with peerPkg := e.2.peer.bind fun p => pkgOfSerial img p.1 } : Link))
    boot := { s.boot with
      domain := some (BitVec.ofNat 32 (leAt img 16 4)), epoch := some (BitVec.ofNat 32 (leAt img 20 4)), image := img
      root := leAt img 26 1, parent := own.parent, waiting := kids, awaits := [], applying := true
      down := [], failed := [], quarters := 0 } }
  let s2 := kids.foldl (fun t c => t.forwardImage img c) s1
  let s3 := if s2.isRoot then s2 else s2.sendUp 2 (BitVec.ofNat 64 (leAt img 20 4))
  ((s3.releaseFailed.applyFirst (pkgSections img own.pkg)).startKeys.useKeys).finishApply

/-- IMGNAK towards the root: to the parent, or, from a package that has no image yet, back on the link by which the refused image
came (R425). [DEDUCED, log 47] -/
def State.refuseImage (s : State) (link : Option Nat) (img : List Byte) (reason : Nat) : State :=
  let arg : Word := BitVec.ofNat 64 (reason + s.pkgNo.toNat <<< 8)
  match s.boot.epoch, link with
  | some _, _ => if s.isRoot then s else s.sendUp 3 arg
  | none, some l => s.sendCtl l 3 (BitVec.ofNat 8 (leAt img 26 1)) arg []
  | none, none => s

/-- Decide a complete image. -/
def State.decideImage (s : State) (link : Option Nat) (img : List Byte) : State :=
  match s.imgRefusal img with
  | none => s.acceptImage img
  | some r => s.refuseImage link img r

/-- Where the bytes of an image are kept until it is whole: by its link, the management port as 96. -/
def rxKey (link : Option Nat) : Nat := link.getD 96

/-- Keep what has come of the image on a link. -/
def State.setRx (s : State) (link : Option Nat) (rx : List Byte) : State :=
  { s with boot := { s.boot with rx := sset [] s.boot.rx (rxKey link) rx } }

/-- Take the bytes of an IMG message at their offset in the image that its link brings; a whole image is decided, while images that other
links bring go on arriving (R425). -/
def State.takeImage (s : State) (link : Option Nat) (m : CtlMsg) : State :=
  let old := sget [] s.boot.rx (rxKey link)
  let rx := if m.arg = 0 then m.data else if m.arg.toNat = old.length then old ++ m.data else old
  let n := 256 + imgBodyLen rx
  if 256 ≤ rx.length && n ≤ rx.length then (s.setRx link []).decideImage link (rx.take n) else s.setRx link rx

/-! ## The messages (Table 19.10) -/

/-- A kind that no row of Table 19.10 gives: such a message is discarded (R426). -/
def strayKind (kind : Byte) : Bool := kind == 0 || decide (9 ≤ kind.toNat)

/-- IMG, from the parent's link or on the management port of the root; and, on a link, a message of a kind that is discarded. -/
def img (src : ImgSource) (m : CtlMsg) (s : State) : Option State :=
  match src with
  | .link l kind =>
    if kind = 1 then s.ctlArrives l kind m fun t => t.takeImage (some l) m
    else if strayKind kind then s.ctlArrives l kind m id
    else none
  | .port => if s.power.off || s.power.bootfail then none else some (s.takeImage none m)
def execImg (src : ImgSource) (m : CtlMsg) (s : State) : Host.Outcome State Fault Refusal := happen (img src m) s

/-- A child has acknowledged the image of an EPOCH: its parent waits for it no more, if that is the image it has accepted (R425). -/
def State.childAcked (s : State) (p : Nat) (epoch : Word) : State :=
  if s.boot.epoch.any fun e => e.setWidth 64 == epoch then { s with boot := { s.boot with waiting := s.boot.waiting.erase p } } else s

/-- IMGACK and IMGNAK go up the tree to the root. -/
def State.passUp (s : State) (kind : Byte) (m : CtlMsg) : State :=
  if s.isRoot then s
  else
    match s.linkTo s.boot.parent with
    | some l => s.modLink l fun x => { x with ctlq := x.ctlq ++ [(kind, m)] }
    | none => s

/-- IMGACK -/
def imgack (l : Nat) (m : CtlMsg) (s : State) : Option State :=
  s.ctlArrives l 2 m fun t => (t.childAcked m.src.toNat m.arg).passUp 2 m
def execImgack (l : Nat) (m : CtlMsg) (s : State) : Host.Outcome State Fault Refusal := happen (imgack l m) s

/-- IMGNAK -/
def imgnak (l : Nat) (m : CtlMsg) (s : State) : Option State := s.ctlArrives l 3 m fun t => t.passUp 3 m
def execImgnak (l : Nat) (m : CtlMsg) (s : State) : Host.Outcome State Fault Refusal := happen (imgnak l m) s

/-- KEYX: kept until an image of its epoch is accepted, then used (R419); the last one lets the application go on.
[DEDUCED, log 47] -/
def keyx (l : Nat) (m : CtlMsg) (s : State) : Option State :=
  s.ctlArrives l 4 m fun t => t.handleOrPass 4 m fun q =>
    let q1 := { q with boot := { q.boot with kexIn := q.boot.kexIn ++ [(m.src.toNat, m.arg.toNat, leAt m.data 0 56)] } }
    q1.useKeys.finishApply
def execKeyx (l : Nat) (m : CtlMsg) (s : State) : Host.Outcome State Fault Refusal := happen (keyx l m) s

/-- The circuit that a FAIL or CLOSE names fails; at a FREE index it is discarded (R379, R380). -/
def State.peerEnds (s : State) (l : Nat) (kind : Byte) (m : CtlMsg) (reason : Nat) : Option State :=
  s.ctlArrives l kind m fun t => t.failCirc (circId l (fld m.arg.toNat 0 4)) reason

/-- FAIL -/
def fail (l : Nat) (m : CtlMsg) (s : State) : Option State := s.peerEnds l 5 m 4
def execFail (l : Nat) (m : CtlMsg) (s : State) : Host.Outcome State Fault Refusal := happen (fail l m) s

/-- CLOSE -/
def close (l : Nat) (m : CtlMsg) (s : State) : Option State := s.peerEnds l 6 m 3
def execClose (l : Nat) (m : CtlMsg) (s : State) : Host.Outcome State Fault Refusal := happen (close l m) s

/-- ABORT: the charge, or every charge in flight, is settled at this package's Kiln in the mode that the message gives (R399).
[DESIGN CHOICE, log 58] -/
def abort (l : Nat) (m : CtlMsg) (s : State) : Option State :=
  s.ctlArrives l 7 m fun t => t.handleOrPass 7 m fun q =>
    { q with kiln := { q.kiln with aborts := q.kiln.aborts ++
      [(fld m.arg.toNat 32 3, if m.arg.getLsbD 36 then none else some (m.arg.extractLsb' 0 16), m.arg.getLsbD 35)] } }
def execAbort (l : Nat) (m : CtlMsg) (s : State) : Host.Outcome State Fault Refusal := happen (abort l m) s

/-- PKGDOWN: the root keeps the report and may declare the package failed (R429); another package passes it up. -/
def pkgdown (l : Nat) (m : CtlMsg) (s : State) : Option State :=
  s.ctlArrives l 8 m fun t =>
    if t.isRoot then t.reportDown (fld m.arg.toNat 0 8) m.src.toNat
    else
      match t.linkTo t.boot.parent with
      | some u => t.modLink u fun x => { x with ctlq := x.ctlq ++ [(8, m)] }
      | none => t
def execPkgdown (l : Nat) (m : CtlMsg) (s : State) : Host.Outcome State Fault Refusal := happen (pkgdown l m) s

end Sys2Proof.Machine
end

