-- ==== Sys2Proof/Machine/Package.lean ====
section
/-! DEFINITION. The package (spec/18 R409, R410, spec/19 R414, R415, spec/20): forced resets, package reset and the boot from
flash, the management port, I3C, power states, throttling and telemetry. -/

namespace Sys2Proof.Machine

/-! ## Forced resets (R409, R410) -/

/-- The rectangle of a scope. -/
def scopeRegion : ResetScope → Region
  | .quarter q => { x := 8 * (q.toNat % 2), y := 9 * (q.toNat / 2), w := 8, h := 9 }
  | .region x y w h => { x := x, y := y, w := w, h := h }

/-- A region as R276 packs it. -/
def Region.pack (r : Region) : Nat := r.x + r.y <<< 8 + r.w <<< 16 + r.h <<< 24

/-- The byte moves of a copy command that has not completed. -/
def copyMoves : EngOp → List (Nat × Nat × Nat)
  | .copy dst src n => [(src, dst, n)]
  | .pat dst src n dims => (patOffsets dims).map fun o => ((src + o.1).toNat, (dst + o.2).toNat, n)
  | .frames moves size => moves.map fun m => (m.2, m.1, size)
  | .count _ | .addFlag _ | .drain _ | .remote _ | .kret _ _ _ => []

/-- The commands of core k that have begun: none that a dx.drain still holds, which has written nothing (R262). -/
def Core.running (k : Core) : List EngCmd := (List.range k.eng.length).filterMap k.begun

/-- A copy cut short: each word of its destination holds its old or its new value (free, log 8), the old one where its source beat cannot
be read (R258, R409). [DESIGN CHOICE, log 8] -/
def State.landed (s : State) (ms : List (Nat × Nat × Nat)) : State :=
  let ws := ms.flatMap fun m => (goodRuns (s.sourceBeats m.1 m.2.2)).flatMap fun r =>
    (pieces 8 (m.2.1 + r.1) r.2).map fun p => (m.1 + r.1 + p.1, m.2.1 + r.1 + p.1, p.2)
  (List.range ws.length).foldl (fun t i =>
    let w := ws.getD i (0, 0, 0)
    if Config.freeLanded (s.ticks + i) then t.store w.2.1 (s.bytes w.1 w.2.2) else t) s

/-- What a forced reset leaves of a core: the package-reset values; its built-in check decides whether it is marked failed. The
commands of hub cores that wait for its engines to be idle stay, to be filled (R412). -/
def Core.forced (k : Core) (ok : Bool) : Core :=
  { Core.reset with nextId := k.nextId, failed := k.failed || !ok, haltq := k.haltq }

/-- The dbg.ctl commands that a core's forced reset ends: .haltq finds the engines idle; .step, .resume and .skip find no bundle and no
HALTED stage any more (R295, R412). [DEDUCED, log 42] -/
def State.endDebug (s : State) (c : Nat) (k : Core) : State :=
  (k.stepOne.toList ++ k.resuming.map (·.2.2)).foldl (fun t r => t.fill r (rRefused 7)) (s.settleHaltq c 9)

/-- A kiln.step or kiln.ret of some cores that has reached the Kiln and waits there: a forced reset ends it with the command (R409). -/
def KilnCmd.from (cores : List Nat) : KilnCmd → Bool
  | .step _ rq => cores.contains rq.core
  | .ret _ _ src => cores.contains src.1
  | .retPkt .. => false

/-- The Kiln without the commands of some cores. -/
def State.dropKiln (s : State) (cores : List Nat) : State :=
  { s with kiln := { s.kiln with queue := s.kiln.queue.filter fun q => !q.from cores } }

/-- The instances with a stage on some cores: package of the Kiln, number. -/
def State.instancesOn (s : State) (cores : List Nat) : List (Byte × Nat) :=
  (cores.flatMap fun c => (s.core c).stages.filterMap fun e =>
    if e.2.state != .none then e.2.inst.map fun i => (e.2.instPkg, i.toNat) else none).eraseDups

/-- Settle every charge in flight of an instance in RECOMPUTE mode: at this package's Kiln at once, else by an ABORT of every charge
(R409). [DESIGN CHOICE, log 58] -/
def State.settleAll (s : State) (i : Byte × Nat) : State :=
  if i.1 = s.pkgNo then (s.inst i.2).charges.foldl (fun t c => t.settleCharge i.2 false c) s
  else s.abortCharge i.1 i.2 none false

/-- The charges in flight of an instance of this package's Kiln. -/
def State.inFlight (s : State) (i : Byte × Nat) : Nat := if i.1 = s.pkgNo then (s.inst i.2).charges.length else 0

/-- A quarter of this package has been reset; the root is failed with the last of its four (R429). -/
def State.quarterReset (s : State) (q : BitVec 2) : State :=
  let t := { s with boot := { s.boot with quarters := s.boot.quarters ||| BitVec.ofNat 4 (2 ^ q.toNat) } }
  if t.boot.quarters = 15 && t.isRoot then t.declareFailed t.pkgNo.toNat else t

/-- One owner's QUARTER_RESET notice. [DEDUCED, log 41] -/
def resetNotice (owner : BitVec 4) (world : Bool) (w1 settled : Nat) : Notice :=
  { w0 := noticeW0 0 8 owner world, w1 := BitVec.ofNat 64 w1, w2 := BitVec.ofNat 64 settled, w3 := 0 }

/-- FORCED_RESET: a region or a quarter; a token whose region it meets ends with INCONS, its region reset too. Charges are settled
once the links of the quarter are DOWN, so that an ABORT to a remote Kiln takes a link that stays.
[DEDUCED, log 41] -/
def forcedReset (scope : ResetScope) (s : State) : Option State :=
  let r := scopeRegion scope
  if !r.ok || s.power.off then none
  else
    let toks := s.tokens.filter fun t => t.region.meets r
    let cores := (r.cores ++ toks.flatMap fun t => t.region.cores).eraseDups
    let owners := cores.map fun c => ((s.core c).ctxOwner, (s.core c).ctxWorld)
    let insts := s.instancesOn cores
    let settled := (insts.map s.inFlight).sum
    let s2 := cores.foldl (fun t c => t.landed ((t.core c).running.flatMap fun e => copyMoves e.op)) s
    let s3 := ((s2.releaseEnds cores).releaseRoutes cores).dropKiln cores
    let s4 : State := match scope with
      | .quarter q => ((List.range 24).map (24 * q.toNat + ·)).foldl (fun (t : State) (l : Nat) =>
          if (t.link' l).state = LinkState.down then t else t.linkDown l) (s3.quarterReset q)
      | .region _ _ _ _ => s3
    let s5 : State := cores.foldl (fun (t : State) (c : Nat) => t.setCore c ((t.core c).forced (Config.builtInCheck s.ticks c)))
      (insts.foldl State.settleAll s4)
    let s6 : State := toks.foldl (fun (t : State) (k : Token) => t.fill k.rq (rRefused 11)) { cores.foldl (fun (t : State) (c : Nat) => t.endDebug c (s.core c)) s5 with tokens := s5.tokens.filter fun t => !toks.contains t }
    let failed := (cores.filter fun c => (s6.core c).failed).length
    let isRegion := match scope with
      | .region _ _ _ _ => true
      | .quarter _ => false
    let w1 := r.pack + (if isRegion then 1 <<< 32 else 0) + (failed % 256) <<< 40
    let s7 := s6.log 0x30 7 0 (owners.any (·.2)) 0 0x1FF 0 0 r.pack 0
    let firsts := (owners.map (·.1)).eraseDups
    let s8 : State := firsts.foldl (fun (t : State) (o : BitVec 4) =>
      t.notify (resetNotice o ((owners.find? fun (x : BitVec 4 × Bool) => x.1 == o).getD (0, true)).2 w1 settled)) s7
    some (s8.drainCfg s8.cfgWait.length)
def execForcedReset (scope : ResetScope) (s : State) : Host.Outcome State Fault Refusal := happen (forcedReset scope) s

/-! ## Boot from flash (R414, R415) -/

/-- The body of a copy of the boot firmware. -/
def fwBody (f : List Byte) : List Byte := (f.drop 512).take (leAt f 8 8)

/-- The fields of a copy of the boot firmware pass Table 19.1. -/
def State.firmwareFields (s : State) (f : List Byte) : Bool :=
  let n := leAt f 8 8
  f.take 4 == [0x4A, 0x51, 0x42, 0x46] && decide (s.boot.rollback.toNat ≤ leAt f 4 4) && decide (1 ≤ n) && decide (n ≤ 0x0FF00000) &&
  (fwBody f).length == n && leAt f 16 8 % 4096 == 0 && decide (leAt f 16 8 < n) &&
  Config.shake256 256 ((f.drop 24).take 57) == Config.fuseRootHash && ((f.drop 81).take 7).all (· == 0) &&
  ((f.drop 316).take 4).all (· == 0) && ((f.drop 498).take 14).all (· == 0)

/-- The DIGEST of a copy is that of its body, and its SIGNATURE verifies. -/
def firmwareSigned (f : List Byte) : Bool :=
  Config.shake256 512 (fwBody f) == leAt f 320 64 && Config.ed448Verify (leAt f 24 57) (f.take 384) (leAt f 384 114)

/-- Step 1 of Table 19.2 for a copy: its fields are checked, its body is copied to hub SRAM, and then its digest and signature are
judged. A copy whose digest or signature fails leaves its body there. -/
def State.tryCopy (s : State) (f : List Byte) : State × Bool :=
  if s.firmwareFields f then (s.store 0x870100000 (fwBody f), firmwareSigned f) else (s, false)

/-- A hub core at the start of the firmware: PC and both vector bases at the entry. -/
def Core.atEntry (a : Addr) : Core :=
  { Core.hubReset with
    pc := a, hub := { Hub.reset with bankS := { TrapBank.reset with vec := a }, bankM := { TrapBank.reset with vec := a } } }

/-- Steps 2 and 3 of Table 19.2 with a good copy. -/
def State.bootFrom (s : State) (f : List Byte) : State :=
  let a : Addr := BitVec.ofNat 40 (0xF870100000 + leAt f 16 8)
  let keys := (List.range 4).foldl (fun m i => sset 0 m i (BitVec.ofNat 456 (leAt f (88 + 57 * i) 57))) []
  let s2 := { s with boot := { s.boot with
    fwdig := BitVec.ofNat 512 (leAt f 320 64), rootKey := BitVec.ofNat 456 (leAt f 24 57), domKeys := keys } }
  (List.range 8).foldl (fun t h => t.setCore (512 + h) (Core.atEntry a)) s2

/-- Neither copy is good: the hub cores stay in reset and I3C reports BOOTFAIL. -/
def State.bootFail (s : State) : State :=
  let s1 := { s with power := { s.power with bootfail := true } }
  (List.range 8).foldl (fun t h => t.modCore (512 + h) fun k => { k with hub := { k.hub with inReset := true } }) s1

/-- What outlives a reset: flash, fuses, THERMTRIP, the draws of the security block, and the model's own counters. -/
def State.cleared (s : State) (off thermtrip : Bool) : State :=
  { State.reset with
    power := { Power.reset with off := off, thermtrip := thermtrip }
    boot := { Boot.reset with flashA := s.boot.flashA, flashB := s.boot.flashB, rollback := s.boot.rollback, draws := s.boot.draws }
    focus := s.focus, stream := s.stream, agenda := s.agenda, ticks := s.ticks }

/-- The boot sequence: copy A, else copy B, else BOOTFAIL (Table 19.2). -/
def State.startUp (s : State) : State :=
  let a := s.tryCopy s.boot.flashA
  if a.2 then a.1.bootFrom s.boot.flashA
  else
    let b := a.1.tryCopy s.boot.flashB
    if b.2 then b.1.bootFrom s.boot.flashB else b.1.bootFail

/-- Table 1.13 and the boot sequence; THERMTRIP stays until power-on (R437, R439). -/
def State.restart (s : State) (powerOn : Bool) : State :=
  { s.cleared false (s.power.thermtrip && !powerOn) with focus := 512, stream := 0 }.startUp

/-- PACKAGE_RESET, by power-on, the I3C RESET command, or the debug port once that is unlocked; the debug port's other access is an
action of dbg.ctl (R432, R437). [DESIGN CHOICE, log 59] -/
def packageReset (cause : ResetCause) (s : State) : Option State :=
  match cause with
  | .powerOn => some (s.restart true)
  | .i3c => some (s.restart false)
  | .debug => if s.boot.debugOpen then some (s.restart false) else none
  | .debugCtl sel act => debugCtl sel act s
def execPackageReset (cause : ResetCause) (s : State) : Host.Outcome State Fault Refusal := happen (packageReset cause) s

/-! ## The management port (R433) -/

/-- The MAC address of the port: the low 6 bytes of the serial with bit 1 of the first byte set. -/
def macAddress : List Byte :=
  match (bytesOf 16 Config.fuseSerial).take 6 with
  | b :: t => (b ||| 2) :: t
  | [] => []

/-- A frame for this port: its destination is the MAC address, or a group address (bit 0 of the first byte). [PRESUMED, log 48] -/
def frameForUs (f : List Byte) : Bool := f.take 6 == macAddress || (f.head?.getD 0).getLsbD 0

/-- Take a frame into the queue and its place in hub SRAM, or drop it at the port and count it. [DESIGN CHOICE, log 48] -/
def State.receive (s : State) (f : List Byte) : State :=
  if s.mgmtRx.length < 64 then
    { s.store (0x800000000 + Config.mgmtSlot (s.mgmtCnt % 64) % 2 ^ 30) f with mgmtRx := s.mgmtRx ++ [f], mgmtCnt := s.mgmtCnt + 1 }
  else { s with power := { s.power with rxdrop := s.power.rxdrop + 1 } }

/-- MANAGEMENT_FRAME: a frame on the wire, of up to 2^16 bytes; or (none) hub software takes the oldest frame of the queue. The port
is closed before boot step 3. [DESIGN CHOICE, log 48] -/
def managementFrame (bytes : Option (List Byte)) (s : State) : Option State :=
  if s.power.off || s.power.bootfail then none
  else
    match bytes with
    | some f => if frameForUs f && decide (f.length ≤ 2 ^ 16) then some (s.receive f) else none
    | none => if s.mgmtRx.isEmpty then none else some { s with mgmtRx := s.mgmtRx.drop 1 }
def execManagementFrame (bytes : Option (List Byte)) (s : State) : Host.Outcome State Fault Refusal := happen (managementFrame bytes) s

/-! ## I3C (R434, Table 20.2) -/

/-- Answer an I3C command. -/
def State.i3cSay (s : State) (a : I3cAnswer) : State := { s with power := { s.power with i3cOut := a } }
def State.i3c (s : State) (w : Word) : Option State := some (s.i3cSay (.word w))

/-- The codes of Table 20.2. -/
def i3cCodes : List Byte := [0x01, 0x02, 0x03, 0x10, 0x11, 0x20, 0x21]

/-- Word 1 of the telemetry page: the five sensors (Table 20.3). -/
def Power.sensors (p : Power) : Word :=
  BitVec.ofNat 64 ((sget 0 p.temps 4).toNat <<< 48 + packNat 12 (fun q => sget 0 p.temps q) 4)

/-- What STATUS returns: IDLE in bits [3:0], OFF 4, BOOTFAIL 5, THERMTRIP 6, throttle bits [11:8]; the table gives the contents and
no layout (log 16). [DESIGN CHOICE, log 16] -/
def Power.statusWord (p : Power) : Word :=
  let b (x : Bool) (n : Nat) : Nat := if x then 1 <<< n else 0
  BitVec.ofNat 64 (p.throt.toNat <<< 8 + b p.thermtrip 6 + b p.bootfail 5 + b p.off 4 + p.idle.toNat)

/-- STATUS -/
def status (s : State) : Option State := s.i3c s.power.statusWord
def execStatus (s : State) : Host.Outcome State Fault Refusal := happen status s

/-- TEMP -/
def temp (s : State) : Option State := s.i3c s.power.sensors
def execTemp (s : State) : Host.Outcome State Fault Refusal := happen temp s

/-- POWER: a fresh reading. -/
def power (s : State) : Option State :=
  let w := BitVec.ofNat 16 (Config.freeSensor s.ticks)
  { s with power := { s.power with watts := w } }.i3c (w.setWidth 64)
def execPower (s : State) : Host.Outcome State Fault Refusal := happen power s

/-- PCAP: 300..1,800 W, or 0 for none; another value sets nothing and is answered with a NACK, as a command code that no row of
Table 20.2 gives is (R434); the codes of its other rows have their own events. [DESIGN CHOICE, log 16] -/
def pcap (x : I3cWrite) (s : State) : Option State :=
  match x with
  | .cap w =>
    if w == 0 || (decide (300 ≤ w.toNat) && decide (w.toNat ≤ 1800)) then
      some { s with power := { s.power with pcap := w, i3cOut := .ack } }
    else some (s.i3cSay .nack)
  | .other code => if i3cCodes.contains code then none else some (s.i3cSay .nack)
def execPcap (x : I3cWrite) (s : State) : Host.Outcome State Fault Refusal := happen (pcap x) s

/-- IDLEEN -/
def idleen (q : BitVec 4) (s : State) : Option State := some { s with power := { s.power with idleen := q, i3cOut := .ack } }
def execIdleen (q : BitVec 4) (s : State) : Host.Outcome State Fault Refusal := happen (idleen q) s

/-- RESET -/
def i3cReset (s : State) : Option State := some ((s.restart false).i3cSay .ack)
def execI3cReset (s : State) : Host.Outcome State Fault Refusal := happen i3cReset s

/-- OFF (R436): every state is lost and the links go DOWN. -/
def off (s : State) : Option State := some ((s.cleared true s.power.thermtrip).i3cSay .ack)
def execOff (s : State) : Host.Outcome State Fault Refusal := happen off s

/-! ## Quarters (R435) -/

/-- Compute cores of a quarter. -/
def quarterCores (q : Nat) : List Nat := (scopeRegion (.quarter (BitVec.ofNat 2 q))).cores

/-- The core of a remote-engine end has packets to send, or waits for their answers, on the circuit. -/
def State.engineBeats (s : State) (x : Circ) : Bool :=
  x.ends == 1 && (s.core x.core).eng.any fun e => match e.op with
    | .remote r => r.pkg == x.remote
    | _ => false

/-- A circuit has flits on their way through the package: to send, accepted in part, in a relay's buffer. -/
def State.circBeats (s : State) (x : Circ) : Bool :=
  x.state == .isOpen && (!x.txq.isEmpty || x.credOut != 0 || !x.rxBuf.isEmpty || !x.mrsp.isEmpty || !x.relay.isEmpty ||
    !x.probes.isEmpty || x.reqData.isSome || s.engineBeats x)

/-- A mesh route through quarter q, or one that ends there, carries a beat: of an entry, a free-slot notice, a circuit, a CONTROL
message. -/
def State.beatIn (s : State) (q : Nat) : Bool :=
  (s.cores.any fun e =>
    (e.2.iq.any fun p => !p.2.coming.isEmpty && (routeQuarters p.2.bind e.1).contains q) ||
    e.2.oq.any fun p => p.2.notices != 0 && (noticeQuarters p.2.bind e.1).contains q) ||
  (s.circs.any fun e => s.circBeats e.2 && e.2.quarters.contains q) ||
  s.links.any fun e => linkQuarter e.1 == q && !e.2.ctlq.isEmpty

/-- A quarter is quiet: no stage FIRING or ready, ENG.BUSY 0, no mesh route through it carries a beat; an array operation that has not
completed has not had 4,096 clk. [DEDUCED, log 64] -/
def State.quietQuarter (s : State) (q : Nat) : Bool :=
  !s.beatIn q && (s.cores.filter fun e => decide (e.1 < 288) && quarterOf e.1 == q).all fun e =>
    e.2.firing.isNone && e.2.busyWord == 0 && e.2.arr.isEmpty && (List.range 8).all fun t => !s.ready e.1 t

/-- Count quiet clk for the quarters that IDLEEN permits. -/
def State.countQuiet (s : State) (clk : Nat) : State :=
  if s.power.idleen = 0 then (if s.power.quiet.isEmpty then s else { s with power := { s.power with quiet := [] } })
  else
    { s with power := { s.power with quiet := (List.range 4).foldl (fun m q =>
        sset 0 m q (if s.power.idleen.getLsbD q && s.quietQuarter q then sget 0 s.power.quiet q + clk else 0)) [] } }

/-- QUARTER_IDLE: after 4,096 quiet clk of a permitted quarter. -/
def quarterIdle (q : BitVec 2) (s : State) : Option State :=
  let p := s.power
  if p.idleen.getLsbD q.toNat && !p.idle.getLsbD q.toNat && decide (4096 ≤ sget 0 p.quiet q.toNat) && s.quietQuarter q.toNat then
    some { s with power := { p with idle := p.idle ||| BitVec.ofNat 4 (2 ^ q.toNat) } }
  else none
def execQuarterIdle (q : BitVec 2) (s : State) : Host.Outcome State Fault Refusal := happen (quarterIdle q) s

/-- QUARTER_WAKE: a beat reaches the quarter, be it only in transit. -/
def quarterWake (q : BitVec 2) (s : State) : Option State :=
  if s.power.idle.getLsbD q.toNat && s.beatIn q.toNat then some { s with power := s.power.awake q.toNat } else none
def execQuarterWake (q : BitVec 2) (s : State) : Host.Outcome State Fault Refusal := happen (quarterWake q) s

/-! ## Heat, power, telemetry (R439, R440) -/

/-- THERMAL_TRIP: sensor q (4 is the hub die) reads t in 0.125 °C; at 120 °C the package trips to OFF.
[DESIGN CHOICE, log 13] -/
def thermalTrip (q : BitVec 3) (t : BitVec 12) (s : State) : Option State :=
  if 4 < q.toNat || s.power.off then none
  else if 960 ≤ t.toNat then some (s.cleared true true)
  else some { s with power := { s.power with temps := sset 0 s.power.temps q.toNat t } }
def execThermalTrip (q : BitVec 3) (t : BitVec 12) (s : State) : Host.Outcome State Fault Refusal := happen (thermalTrip q t) s

/-- A quarter's condition for throttling: its sensor at 105 °C or more, or the package power over the cap. -/
def Power.hot (p : Power) (q : Nat) : Bool :=
  decide (840 ≤ (sget 0 p.temps q).toNat) || (p.pcap != 0 && decide (10 * p.pcap.toNat < p.watts.toNat))

/-- THROTTLING: starts when the condition holds and ends when it clears. -/
def throttling (q : BitVec 2) (on : Bool) (s : State) : Option State :=
  let p := s.power
  let bit := BitVec.ofNat 4 (2 ^ q.toNat)
  if on && !p.throt.getLsbD q.toNat && p.hot q.toNat then some { s with power := { p with throt := p.throt ||| bit, throttled := true } }
  else if !on && p.throt.getLsbD q.toNat && !p.hot q.toNat then some { s with power := { p with throt := p.throt &&& ~~~bit } }
  else none
def execThrottling (q : BitVec 2) (on : Bool) (s : State) : Host.Outcome State Fault Refusal := happen (throttling q on) s

/-- Store one word of the telemetry page that is still to be stored: any of them. [DESIGN CHOICE, log 13] -/
def State.telemetryWord (s : State) : State :=
  let l := s.power.telLeft
  match l[Config.freeChoice s.ticks % l.length]? with
  | some x => { s with power := { s.power with telLeft := l.erase x } }.store (0x870080000 + x.1) (bytesOf 8 x.2)
  | none => s

/-- TELEMETRY_REWRITE: every 2^20 clk the page is rewritten with the next SEQ (Table 20.3), a word at a time (R440).
[DESIGN CHOICE, log 13] -/
def telemetryRewrite (s : State) : Option State :=
  let p := s.power
  if p.off then none
  else if !p.telLeft.isEmpty then some s.telemetryWord
  else if BitVec.ofNat 32 (s.cycles.toNat / 2 ^ 20) == p.telSeq then none
  else
    let w := BitVec.ofNat 16 (Config.freeSensor s.ticks)
    let stalls := if p.throttled then Config.freeSensor (s.ticks + 1) % 2 ^ 32 else 0
    let words : List Word :=
      [BitVec.ofNat 64 ((p.telSeq + 1).toNat <<< 32 + w.toNat <<< 16 + p.pcap.toNat), p.sensors,
       BitVec.ofNat 64 (p.throt.toNat <<< 4 + p.idle.toNat), BitVec.ofNat 64 (p.rxdrop.toNat <<< 32 + stalls)]
    let left := (List.range 4).map fun i => (8 * i, words.getD i 0)
    some { s with power := { p with telSeq := p.telSeq + 1, watts := w, throttled := p.throt != 0, telLeft := left } }.telemetryWord
def execTelemetryRewrite (s : State) : Host.Outcome State Fault Refusal := happen telemetryRewrite s

end Sys2Proof.Machine
end

