-- ==== Sys2Proof/Machine/Scalar.lean ====
section
/-! DEFINITION. The S slot (spec/05): integer arithmetic, predicates, scalar floating point, local loads, stores and atomics.
For each instruction `opX` is its meaning as one slot of a bundle and `execX` runs it as the only one. -/

namespace Sys2Proof.Machine

/-- g(d) := f(g(a), g(b)), sources as before the bundle (R94, R121). -/
def op3 (sl : Slot) (f : Word → Word → Word) (d a b : GReg) : SlotOp :=
  plainOp sl (Uses.ofG d) fun pre cur => cur.setG d (f (pre.g a) (pre.g b))

/-- g(d) := f(g(a)). -/
def op2 (sl : Slot) (f : Word → Word) (d a : GReg) : SlotOp :=
  plainOp sl (Uses.ofG d) fun pre cur => cur.setG d (f (pre.g a))

/-- A result of 1 or 0. -/
def ofCond (b : Bool) : Word := if b then 1 else 0

/-- The shift amount g(b)[5:0] (R123). -/
def shamt (b : Word) : Nat := b.toNat % 64

/-- Signed quotient, truncated; -1 for a zero divisor, -2^63 on overflow (Table 5.2). -/
def divS (a b : Word) : Word := if b = 0 then -1 else a.sdiv b
def divU (a b : Word) : Word := if b = 0 then -1 else a.udiv b
/-- Remainder with the sign of the dividend; the dividend for a zero divisor. -/
def remS (a b : Word) : Word := if b = 0 then a else a.srem b
def remU (a b : Word) : Word := if b = 0 then a else a.umod b
/-- High halves of the 128-bit products. -/
def mulHi (a b : Word) : Word := (a.signExtend 128 * b.signExtend 128).extractLsb' 64 64
def mulHiU (a b : Word) : Word := (a.setWidth 128 * b.setWidth 128).extractLsb' 64 64

/-- Number of leading zeros, trailing zeros and ones (Table 5.3). -/
def clz64 (a : Word) : Word := if a = 0 then 64 else BitVec.ofNat 64 (63 - a.toNat.log2)
def ctz64 (a : Word) : Word := BitVec.ofNat 64 (lowestSet a)
def popc64 (a : Word) : Word := BitVec.ofNat 64 ((List.range 64).countP fun i => a.getLsbD i)
def bswap64 (a : Word) : Word := packN 64 8 8 fun j => elem 8 (7 - j) a
def sextW (w : ExtW) (a : Word) : Word :=
  match w with
  | .w8 => (a.extractLsb' 0 8).signExtend 64
  | .w16 => (a.extractLsb' 0 16).signExtend 64
  | .w32 => (a.extractLsb' 0 32).signExtend 64
def zextW (w : ExtW) (a : Word) : Word :=
  match w with
  | .w8 => (a.extractLsb' 0 8).setWidth 64
  | .w16 => (a.extractLsb' 0 16).setWidth 64
  | .w32 => (a.extractLsb' 0 32).setWidth 64

/-- Funnel shifts of the pair a:b (R126). -/
def fshlW (a b : Word) (n : Nat) : Word := ((a ++ b : BitVec 128) <<< n).extractLsb' 64 64
def fshrW (a b : Word) (n : Nat) : Word := ((a ++ b : BitVec 128) >>> n).extractLsb' 0 64

/-- Ones in bits [pos+len-1 : pos]. -/
def fieldMask (pos len : Nat) : Word := BitVec.ofNat 64 ((2 ^ len - 1) <<< pos)
def bextW (a : Word) (pos len : Nat) : Word := (a >>> pos) &&& fieldMask 0 len
def binsW (d a : Word) (pos len : Nat) : Word := (d &&& ~~~fieldMask pos len) ||| ((a <<< pos) &&& fieldMask pos len)

/-- lih: imm16 into bits [63:48] (R129). -/
def lihW (a : Word) (imm : BitVec 16) : Word := imm ++ a.extractLsb' 0 48

/-- A predicate write. -/
def opP (sl : Slot) (pd : PReg) (f : State → Bool) : SlotOp :=
  plainOp sl (Uses.ofP pd) fun pre cur => cur.setP pd (f pre)

/-! ## Scalar floating point (R132 to R137) -/

/-- The binary32 value in bits [31:0]. -/
def f32Of (a : Word) : Num := Fmt.b32.value (a.toNat % 2 ^ 32)
/-- A binary32 result in [31:0], the rest zero. -/
def f32Round (r : Rnd) (x : Num) : Word := BitVec.ofNat 64 (Fmt.b32.round r x).1

/-- A rounding operation of two sources. -/
def fop3 (sl : Slot) (f : Rnd → Num → Num → Num) (d a b : GReg) (r : Rnd) : SlotOp :=
  plainOp sl (Uses.ofG d) fun pre cur => cur.setG d (f32Round (pre.rnd r) (f (pre.rnd r) (f32Of (pre.g a)) (f32Of (pre.g b))))

/-- A conversion (Table 5.6): the result and CORE.SAT. -/
def fcvtW (op : FcvtOp) (r : Rnd) (a : Word) : Word × Bool :=
  let fl (x : Num) := Fmt.b32.round r x
  let toInt (lo hi : Int) := roundClamp lo hi r (f32Of a)
  match op with
  | .i32f32 => let c := toInt (-2147483648) 2147483647; (BitVec.ofInt 64 c.1, c.2)
  | .n32f32 => let c := toInt 0 4294967295; (BitVec.ofInt 64 c.1, c.2)
  | .f32i32 => let c := fl (.ofInt (a.extractLsb' 0 32).toInt); (BitVec.ofNat 64 c.1, c.2)
  | .f32n32 => let c := fl (.ofInt ((a.extractLsb' 0 32).toNat : Int)); (BitVec.ofNat 64 c.1, c.2)
  | .f16f32 => let c := Fmt.b16.round r (f32Of a); (BitVec.ofNat 64 c.1, c.2)
  | .f32f16 => let c := fl (Fmt.b16.value (a.toNat % 2 ^ 16)); (BitVec.ofNat 64 c.1, c.2)
  | .bf16f32 => let c := Fmt.bf.round r (f32Of a); (BitVec.ofNat 64 c.1, c.2)
  | .f32bf16 => let c := fl (Fmt.bf.value (a.toNat % 2 ^ 16)); (BitVec.ofNat 64 c.1, c.2)
  | .f32i64 => let c := fl (.ofInt a.toInt); (BitVec.ofNat 64 c.1, c.2)
  | .i64f32 => let c := toInt (-9223372036854775808) 9223372036854775807; (BitVec.ofInt 64 c.1, c.2)

/-! ## Local memory (R138 to R142) -/

/-- Bytes of a load or store. -/
def ldSize : LdW → Nat
  | .i8 | .n8 => 1
  | .i16 | .n16 => 2
  | .i32 | .n32 => 4
  | .d64 => 8
def stSize : StW → Nat
  | .i8 => 1 | .i16 => 2 | .i32 => 4 | .d64 => 8

/-- The extension of a loaded value (R139). -/
def ldExtend (w : LdW) (x : Nat) : Word :=
  match w with
  | .i8 => (BitVec.ofNat 8 x).signExtend 64
  | .i16 => (BitVec.ofNat 16 x).signExtend 64
  | .i32 => (BitVec.ofNat 32 x).signExtend 64
  | .n8 | .n16 | .n32 | .d64 => BitVec.ofNat 64 x

/-- The effective address of a sum that has passed its width check. -/
def eaOf (sum : Word) : Nat := fld sum.toNat 0 40

/-- A load of size bytes at an effective sum: the value, and the state (a load outside memory can change it). -/
def State.ldAt (s : State) (sum : Word) (size : Nat) : Res (Nat × State) := do
  let pa ← s.tr .ld sum size size
  if (rangeOf pa).isMem then
    if s.badIn pa size then eccu 0 (eaOf sum) else .ok (s.load pa size, s)
  else do
    let r ← s.ldSpecial s.focus pa (eaOf sum)
    .ok (r.1.toNat, r.2)

/-- A store of the low size bytes of a word. -/
def State.stAt (s : State) (sum : Word) (size : Nat) (v : Word) : Res State := do
  let pa ← s.tr .st sum size size
  if (rangeOf pa).isMem then .ok (s.store pa (bytesOf size v)) else s.stSpecial s.focus pa (eaOf sum) v

/-- The new value of an atomic operation on size bytes; a cas that fails writes nothing (R142). -/
def amoNew (op : AmoOp) {w : Nat} (old x c : BitVec w) : Option (BitVec w) :=
  match op with
  | .add => some (old + x)
  | .and => some (old &&& x)
  | .or => some (old ||| x)
  | .xor => some (old ^^^ x)
  | .min => some (if old.slt x then old else x)
  | .max => some (if old.slt x then x else old)
  | .minn => some (if old.ult x then old else x)
  | .maxn => some (if old.ult x then x else old)
  | .swap => some x
  | .cas => if old = c then some x else none

/-- An atomic operation at an effective sum: the old value zero-extended, and the state. Table 18.3 gives ADDR for a load's ECCU; an
amo's has it too. [DESIGN CHOICE, log 63] -/
def State.amoAt (s : State) (op : AmoOp) (wide : Bool) (sum x c : Word) : Res (Word × State) := do
  let size := if wide then 8 else 4
  let pa ← s.tr .amo sum size size
  if s.badIn pa size then eccu 0 (eaOf sum)
  else
    let old := s.load pa size
    let new := if wide then (amoNew op (BitVec.ofNat 64 old) x c).map fun n => bytesOf 8 n
      else (amoNew op (BitVec.ofNat 32 old) (x.setWidth 32) (c.setWidth 32)).map fun n => bytesOf 4 n
    .ok (BitVec.ofNat 64 old, match new with | some bs => s.store pa bs | none => s)

/-- A memory operation of the S slot: no transfer, decode faults as a plain operation. -/
def memOp (sl : Slot) (uses : Uses) (f : State → State → Res State) : SlotOp :=
  { plainOp sl uses (fun _ cur => cur) with fx := fun pre cur => (f pre cur).map fun s => (s, Flow.seq) }

/-! ## The instructions -/

/-- R122 -/
def opAdd (sl : Slot) (d a b : GReg) : SlotOp := op3 sl (fun x y => x + y) d a b
def execAdd (d a b : GReg) (s : State) : Host.Outcome State Fault Refusal := issue (opAdd .s0 d a b) s

/-- R122 -/
def opSub (sl : Slot) (d a b : GReg) : SlotOp := op3 sl (fun x y => x - y) d a b
def execSub (d a b : GReg) (s : State) : Host.Outcome State Fault Refusal := issue (opSub .s0 d a b) s

/-- R122 -/
def opAnd (sl : Slot) (d a b : GReg) : SlotOp := op3 sl (fun x y => x &&& y) d a b
def execAnd (d a b : GReg) (s : State) : Host.Outcome State Fault Refusal := issue (opAnd .s0 d a b) s

/-- R122 -/
def opOr (sl : Slot) (d a b : GReg) : SlotOp := op3 sl (fun x y => x ||| y) d a b
def execOr (d a b : GReg) (s : State) : Host.Outcome State Fault Refusal := issue (opOr .s0 d a b) s

/-- R122 -/
def opXor (sl : Slot) (d a b : GReg) : SlotOp := op3 sl (fun x y => x ^^^ y) d a b
def execXor (d a b : GReg) (s : State) : Host.Outcome State Fault Refusal := issue (opXor .s0 d a b) s

/-- R123 -/
def opShl (sl : Slot) (d a b : GReg) : SlotOp := op3 sl (fun x y => x <<< shamt y) d a b
def execShl (d a b : GReg) (s : State) : Host.Outcome State Fault Refusal := issue (opShl .s0 d a b) s

/-- R123 -/
def opShr (sl : Slot) (d a b : GReg) : SlotOp := op3 sl (fun x y => x >>> shamt y) d a b
def execShr (d a b : GReg) (s : State) : Host.Outcome State Fault Refusal := issue (opShr .s0 d a b) s

/-- R123 -/
def opSar (sl : Slot) (d a b : GReg) : SlotOp := op3 sl (fun x y => x.sshiftRight (shamt y)) d a b
def execSar (d a b : GReg) (s : State) : Host.Outcome State Fault Refusal := issue (opSar .s0 d a b) s

/-- R123 -/
def opRotl (sl : Slot) (d a b : GReg) : SlotOp := op3 sl (fun x y => x.rotateLeft (shamt y)) d a b
def execRotl (d a b : GReg) (s : State) : Host.Outcome State Fault Refusal := issue (opRotl .s0 d a b) s

/-- R122 -/
def opSlt (sl : Slot) (d a b : GReg) : SlotOp := op3 sl (fun x y => ofCond (x.slt y)) d a b
def execSlt (d a b : GReg) (s : State) : Host.Outcome State Fault Refusal := issue (opSlt .s0 d a b) s

/-- R122 -/
def opSltn (sl : Slot) (d a b : GReg) : SlotOp := op3 sl (fun x y => ofCond (x.ult y)) d a b
def execSltn (d a b : GReg) (s : State) : Host.Outcome State Fault Refusal := issue (opSltn .s0 d a b) s

/-- R122 -/
def opSeq (sl : Slot) (d a b : GReg) : SlotOp := op3 sl (fun x y => ofCond (x == y)) d a b
def execSeq (d a b : GReg) (s : State) : Host.Outcome State Fault Refusal := issue (opSeq .s0 d a b) s

/-- R122 -/
def opMin (sl : Slot) (d a b : GReg) : SlotOp := op3 sl (fun x y => if x.slt y then x else y) d a b
def execMin (d a b : GReg) (s : State) : Host.Outcome State Fault Refusal := issue (opMin .s0 d a b) s

/-- R122 -/
def opMax (sl : Slot) (d a b : GReg) : SlotOp := op3 sl (fun x y => if x.slt y then y else x) d a b
def execMax (d a b : GReg) (s : State) : Host.Outcome State Fault Refusal := issue (opMax .s0 d a b) s

/-- R122 -/
def opMinn (sl : Slot) (d a b : GReg) : SlotOp := op3 sl (fun x y => if x.ult y then x else y) d a b
def execMinn (d a b : GReg) (s : State) : Host.Outcome State Fault Refusal := issue (opMinn .s0 d a b) s

/-- R122 -/
def opMaxn (sl : Slot) (d a b : GReg) : SlotOp := op3 sl (fun x y => if x.ult y then y else x) d a b
def execMaxn (d a b : GReg) (s : State) : Host.Outcome State Fault Refusal := issue (opMaxn .s0 d a b) s

/-- R124 -/
def opMul (sl : Slot) (d a b : GReg) : SlotOp := op3 sl (fun x y => x * y) d a b
def execMul (d a b : GReg) (s : State) : Host.Outcome State Fault Refusal := issue (opMul .s0 d a b) s

/-- R124 -/
def opMulh (sl : Slot) (d a b : GReg) : SlotOp := op3 sl mulHi d a b
def execMulh (d a b : GReg) (s : State) : Host.Outcome State Fault Refusal := issue (opMulh .s0 d a b) s

/-- R124 -/
def opMulhn (sl : Slot) (d a b : GReg) : SlotOp := op3 sl mulHiU d a b
def execMulhn (d a b : GReg) (s : State) : Host.Outcome State Fault Refusal := issue (opMulhn .s0 d a b) s

/-- R124 -/
def opDiv (sl : Slot) (d a b : GReg) : SlotOp := op3 sl divS d a b
def execDiv (d a b : GReg) (s : State) : Host.Outcome State Fault Refusal := issue (opDiv .s0 d a b) s

/-- R124 -/
def opDivn (sl : Slot) (d a b : GReg) : SlotOp := op3 sl divU d a b
def execDivn (d a b : GReg) (s : State) : Host.Outcome State Fault Refusal := issue (opDivn .s0 d a b) s

/-- R124 -/
def opRem (sl : Slot) (d a b : GReg) : SlotOp := op3 sl remS d a b
def execRem (d a b : GReg) (s : State) : Host.Outcome State Fault Refusal := issue (opRem .s0 d a b) s

/-- R124 -/
def opRemn (sl : Slot) (d a b : GReg) : SlotOp := op3 sl remU d a b
def execRemn (d a b : GReg) (s : State) : Host.Outcome State Fault Refusal := issue (opRemn .s0 d a b) s

/-- R125 -/
def opClz (sl : Slot) (d a : GReg) : SlotOp := op2 sl clz64 d a
def execClz (d a : GReg) (s : State) : Host.Outcome State Fault Refusal := issue (opClz .s0 d a) s

/-- R125 -/
def opCtz (sl : Slot) (d a : GReg) : SlotOp := op2 sl ctz64 d a
def execCtz (d a : GReg) (s : State) : Host.Outcome State Fault Refusal := issue (opCtz .s0 d a) s

/-- R125 -/
def opPopc (sl : Slot) (d a : GReg) : SlotOp := op2 sl popc64 d a
def execPopc (d a : GReg) (s : State) : Host.Outcome State Fault Refusal := issue (opPopc .s0 d a) s

/-- R125 -/
def opBswap (sl : Slot) (d a : GReg) : SlotOp := op2 sl bswap64 d a
def execBswap (d a : GReg) (s : State) : Host.Outcome State Fault Refusal := issue (opBswap .s0 d a) s

/-- R125 -/
def opSxt (sl : Slot) (d a : GReg) (w : ExtW) : SlotOp := op2 sl (sextW w) d a
def execSxt (d a : GReg) (w : ExtW) (s : State) : Host.Outcome State Fault Refusal := issue (opSxt .s0 d a w) s

/-- R125 -/
def opZxt (sl : Slot) (d a : GReg) (w : ExtW) : SlotOp := op2 sl (zextW w) d a
def execZxt (d a : GReg) (w : ExtW) (s : State) : Host.Outcome State Fault Refusal := issue (opZxt .s0 d a w) s

/-- R126: the shift amount is g(d)[5:0] as it stood before the bundle -/
def opFshl (sl : Slot) (d a b : GReg) : SlotOp := 
  plainOp sl (Uses.ofG d) fun pre cur => cur.setG d (fshlW (pre.g a) (pre.g b) (shamt (pre.g d)))
def execFshl (d a b : GReg) (s : State) : Host.Outcome State Fault Refusal := issue (opFshl .s0 d a b) s

/-- R126 -/
def opFshr (sl : Slot) (d a b : GReg) : SlotOp := 
  plainOp sl (Uses.ofG d) fun pre cur => cur.setG d (fshrW (pre.g a) (pre.g b) (shamt (pre.g d)))
def execFshr (d a b : GReg) (s : State) : Host.Outcome State Fault Refusal := issue (opFshr .s0 d a b) s

/-- R127 -/
def opBext (sl : Slot) (d a : GReg) (pos len1 : BitVec 6) : SlotOp := op2 sl (fun x => bextW x pos.toNat (len1.toNat + 1)) d a
def execBext (d a : GReg) (pos len1 : BitVec 6) (s : State) : Host.Outcome State Fault Refusal := issue (opBext .s0 d a pos len1) s

/-- R127 -/
def opBins (sl : Slot) (d a : GReg) (pos len1 : BitVec 6) : SlotOp := 
  plainOp sl (Uses.ofG d) fun pre cur => cur.setG d (binsW (pre.g d) (pre.g a) pos.toNat (len1.toNat + 1))
def execBins (d a : GReg) (pos len1 : BitVec 6) (s : State) : Host.Outcome State Fault Refusal := issue (opBins .s0 d a pos len1) s

/-- R128 -/
def opAddi (sl : Slot) (d a : GReg) (imm : BitVec 16) : SlotOp := op2 sl (fun x => x + sx16 imm) d a
def execAddi (d a : GReg) (imm : BitVec 16) (s : State) : Host.Outcome State Fault Refusal := issue (opAddi .s0 d a imm) s

/-- R128 -/
def opAndi (sl : Slot) (d a : GReg) (imm : BitVec 16) : SlotOp := op2 sl (fun x => x &&& imm.setWidth 64) d a
def execAndi (d a : GReg) (imm : BitVec 16) (s : State) : Host.Outcome State Fault Refusal := issue (opAndi .s0 d a imm) s

/-- R128 -/
def opOri (sl : Slot) (d a : GReg) (imm : BitVec 16) : SlotOp := op2 sl (fun x => x ||| imm.setWidth 64) d a
def execOri (d a : GReg) (imm : BitVec 16) (s : State) : Host.Outcome State Fault Refusal := issue (opOri .s0 d a imm) s

/-- R128 -/
def opXori (sl : Slot) (d a : GReg) (imm : BitVec 16) : SlotOp := op2 sl (fun x => x ^^^ imm.setWidth 64) d a
def execXori (d a : GReg) (imm : BitVec 16) (s : State) : Host.Outcome State Fault Refusal := issue (opXori .s0 d a imm) s

/-- R128 -/
def opShli (sl : Slot) (d a : GReg) (n : BitVec 6) : SlotOp := op2 sl (fun x => x <<< n.toNat) d a
def execShli (d a : GReg) (n : BitVec 6) (s : State) : Host.Outcome State Fault Refusal := issue (opShli .s0 d a n) s

/-- R128 -/
def opShri (sl : Slot) (d a : GReg) (n : BitVec 6) : SlotOp := op2 sl (fun x => x >>> n.toNat) d a
def execShri (d a : GReg) (n : BitVec 6) (s : State) : Host.Outcome State Fault Refusal := issue (opShri .s0 d a n) s

/-- R128 -/
def opSari (sl : Slot) (d a : GReg) (n : BitVec 6) : SlotOp := op2 sl (fun x => x.sshiftRight n.toNat) d a
def execSari (d a : GReg) (n : BitVec 6) (s : State) : Host.Outcome State Fault Refusal := issue (opSari .s0 d a n) s

/-- R128 -/
def opRotli (sl : Slot) (d a : GReg) (n : BitVec 6) : SlotOp := op2 sl (fun x => x.rotateLeft n.toNat) d a
def execRotli (d a : GReg) (n : BitVec 6) (s : State) : Host.Outcome State Fault Refusal := issue (opRotli .s0 d a n) s

/-- R129 -/
def opLih (sl : Slot) (d a : GReg) (imm : BitVec 16) : SlotOp := op2 sl (fun x => lihW x imm) d a
def execLih (d a : GReg) (imm : BitVec 16) (s : State) : Host.Outcome State Fault Refusal := issue (opLih .s0 d a imm) s

/-- R87, R129 -/
def opLimm (sl : Slot) (d : GReg) (imm : BitVec 53) : SlotOp := plainOp sl (Uses.ofG d) fun _ cur => cur.setG d (imm.signExtend 64)
def execLimm (d : GReg) (imm : BitVec 53) (s : State) : Host.Outcome State Fault Refusal := issue (opLimm .s0 d imm) s

/-- R130 -/
def opCmp (sl : Slot) (cc : CmpCc) (pd : PReg) (a b : GReg) : SlotOp := opP sl pd fun s => cmpHolds cc (s.g a) (s.g b)
def execCmp (cc : CmpCc) (pd : PReg) (a b : GReg) (s : State) : Host.Outcome State Fault Refusal := issue (opCmp .s0 cc pd a b) s

/-- R131 -/
def opPand (sl : Slot) (pd pa pb : PReg) : SlotOp := opP sl pd fun s => s.p pa && s.p pb
def execPand (pd pa pb : PReg) (s : State) : Host.Outcome State Fault Refusal := issue (opPand .s0 pd pa pb) s

/-- R131 -/
def opPor (sl : Slot) (pd pa pb : PReg) : SlotOp := opP sl pd fun s => s.p pa || s.p pb
def execPor (pd pa pb : PReg) (s : State) : Host.Outcome State Fault Refusal := issue (opPor .s0 pd pa pb) s

/-- R131 -/
def opPxor (sl : Slot) (pd pa pb : PReg) : SlotOp := opP sl pd fun s => s.p pa != s.p pb
def execPxor (pd pa pb : PReg) (s : State) : Host.Outcome State Fault Refusal := issue (opPxor .s0 pd pa pb) s

/-- R131 -/
def opPnot (sl : Slot) (pd pa : PReg) : SlotOp := opP sl pd fun s => !s.p pa
def execPnot (pd pa : PReg) (s : State) : Host.Outcome State Fault Refusal := issue (opPnot .s0 pd pa) s

/-- R131 -/
def opPget (sl : Slot) (d : GReg) : SlotOp := 
  plainOp sl (Uses.ofG d) fun pre cur => cur.setG d (packN 64 1 8 fun i => BitVec.ofBool (pre.p (BitVec.ofNat 3 i)))
def execPget (d : GReg) (s : State) : Host.Outcome State Fault Refusal := issue (opPget .s0 d) s

/-- R131 -/
def opSel (sl : Slot) (d a b : GReg) (q : PReg) : SlotOp := 
  plainOp sl (Uses.ofG d) fun pre cur => cur.setG d (if pre.p q then pre.g a else pre.g b)
def execSel (d a b : GReg) (q : PReg) (s : State) : Host.Outcome State Fault Refusal := issue (opSel .s0 d a b q) s

/-- R133 -/
def opFadd (sl : Slot) (d a b : GReg) (r : Rnd) : SlotOp := fop3 sl (fun r x y => x.add r y) d a b r
def execFadd (d a b : GReg) (r : Rnd) (s : State) : Host.Outcome State Fault Refusal := issue (opFadd .s0 d a b r) s

/-- R133 -/
def opFsub (sl : Slot) (d a b : GReg) (r : Rnd) : SlotOp := fop3 sl (fun r x y => x.add r y.neg) d a b r
def execFsub (d a b : GReg) (r : Rnd) (s : State) : Host.Outcome State Fault Refusal := issue (opFsub .s0 d a b r) s

/-- R133 -/
def opFmul (sl : Slot) (d a b : GReg) (r : Rnd) : SlotOp := fop3 sl (fun _ x y => x.mul y) d a b r
def execFmul (d a b : GReg) (r : Rnd) (s : State) : Host.Outcome State Fault Refusal := issue (opFmul .s0 d a b r) s

/-- R133 -/
def opFdiv (sl : Slot) (d a b : GReg) (r : Rnd) : SlotOp := fop3 sl (fun _ x y => x.div y) d a b r
def execFdiv (d a b : GReg) (r : Rnd) (s : State) : Host.Outcome State Fault Refusal := issue (opFdiv .s0 d a b r) s

/-- R133 -/
def opFsqrt (sl : Slot) (d a : GReg) (r : Rnd) : SlotOp := 
  plainOp sl (Uses.ofG d) fun pre cur => cur.setG d (f32Round (pre.rnd r) (f32Of (pre.g a)).sqrt)
def execFsqrt (d a : GReg) (r : Rnd) (s : State) : Host.Outcome State Fault Refusal := issue (opFsqrt .s0 d a r) s

/-- R134 -/
def opFmin (sl : Slot) (d a b : GReg) : SlotOp := fop3 sl (fun _ x y => Num.min x y) d a b .rne
def execFmin (d a b : GReg) (s : State) : Host.Outcome State Fault Refusal := issue (opFmin .s0 d a b) s

/-- R134 -/
def opFmax (sl : Slot) (d a b : GReg) : SlotOp := fop3 sl (fun _ x y => Num.max x y) d a b .rne
def execFmax (d a b : GReg) (s : State) : Host.Outcome State Fault Refusal := issue (opFmax .s0 d a b) s

/-- R134 -/
def opFclass (sl : Slot) (d a : GReg) : SlotOp := op2 sl (fun x => 1#64 <<< fclassBit (f32Of x)) d a
def execFclass (d a : GReg) (s : State) : Host.Outcome State Fault Refusal := issue (opFclass .s0 d a) s

/-- R135 -/
def opFfma (sl : Slot) (d a b c : GReg) (r : Rnd) : SlotOp := 
  plainOp sl (Uses.ofG d) fun pre cur =>
    cur.setG d (f32Round (pre.rnd r) (Num.fma (pre.rnd r) (f32Of (pre.g a)) (f32Of (pre.g b)) (f32Of (pre.g c))))
def execFfma (d a b c : GReg) (r : Rnd) (s : State) : Host.Outcome State Fault Refusal := issue (opFfma .s0 d a b c r) s

/-- R136 -/
def opFcmp (sl : Slot) (cc : FcmpCc) (pd : PReg) (a b : GReg) : SlotOp := opP sl pd fun s => fcmpHolds cc (f32Of (s.g a)) (f32Of (s.g b))
def execFcmp (cc : FcmpCc) (pd : PReg) (a b : GReg) (s : State) : Host.Outcome State Fault Refusal := issue (opFcmp .s0 cc pd a b) s

/-- R137 -/
def opFcvt (sl : Slot) (op : FcvtOp) (d a : GReg) (r : Rnd) : SlotOp := 
  plainOp sl (Uses.ofG d) fun pre cur =>
    let c := fcvtW op (pre.rnd r) (pre.g a)
    (cur.setG d c.1).setSat c.2
def execFcvt (op : FcvtOp) (d a : GReg) (r : Rnd) (s : State) : Host.Outcome State Fault Refusal := issue (opFcvt .s0 op d a r) s

/-- R139 -/
def opLd (sl : Slot) (w : LdW) (d a : GReg) (imm : BitVec 13) : SlotOp := 
  memOp sl (Uses.ofG d) fun pre cur => do
    let r ← cur.ldAt (pre.ea a imm) (ldSize w)
    .ok (r.2.setG d (ldExtend w r.1))
def execLd (w : LdW) (d a : GReg) (imm : BitVec 13) (s : State) : Host.Outcome State Fault Refusal := issue (opLd .s0 w d a imm) s

/-- R140 -/
def opSt (sl : Slot) (w : StW) (d a : GReg) (imm : BitVec 13) : SlotOp := 
  memOp sl Uses.none fun pre cur => cur.stAt (pre.ea a imm) (stSize w) (pre.g d)
def execSt (w : StW) (d a : GReg) (imm : BitVec 13) (s : State) : Host.Outcome State Fault Refusal := issue (opSt .s0 w d a imm) s

/-- R141 -/
def opLda (sl : Slot) (k : BitVec 2) (d a : GReg) (imm : BitVec 13) : SlotOp := op2 sl (fun x => x + sx13 imm <<< k.toNat) d a
def execLda (k : BitVec 2) (d a : GReg) (imm : BitVec 13) (s : State) : Host.Outcome State Fault Refusal := issue (opLda .s0 k d a imm) s

/-- R142 -/
def opAmo (sl : Slot) (op : AmoOp) (wide : Bool) (d a b : GReg) : SlotOp := 
  { memOp sl (Uses.ofG d) (fun pre cur => do
      let r ← cur.amoAt op wide (pre.g a) (pre.g b) (pre.g d)
      .ok (r.2.setG d r.1)) with rmw := true }
def execAmo (op : AmoOp) (wide : Bool) (d a b : GReg) (s : State) : Host.Outcome State Fault Refusal := issue (opAmo .s0 op wide d a b) s

end Sys2Proof.Machine
end

