-- ==== Sys2Proof/Machine/Dispatch.lean ====
section
/-! DEFINITION. The dispatch from an instruction to its meaning: one arm per constructor of Instr, in the order of
spec/opcode_table.json's families. -/

namespace Sys2Proof.Machine

def exec (i : Instr) (s : State) : Host.Outcome State Fault Refusal :=
  match i with
  | .add d a b => Sys2Proof.Machine.execAdd d a b s
  | .sub d a b => Sys2Proof.Machine.execSub d a b s
  | .and d a b => Sys2Proof.Machine.execAnd d a b s
  | .or d a b => Sys2Proof.Machine.execOr d a b s
  | .xor d a b => Sys2Proof.Machine.execXor d a b s
  | .shl d a b => Sys2Proof.Machine.execShl d a b s
  | .shr d a b => Sys2Proof.Machine.execShr d a b s
  | .sar d a b => Sys2Proof.Machine.execSar d a b s
  | .rotl d a b => Sys2Proof.Machine.execRotl d a b s
  | .slt d a b => Sys2Proof.Machine.execSlt d a b s
  | .sltn d a b => Sys2Proof.Machine.execSltn d a b s
  | .seq d a b => Sys2Proof.Machine.execSeq d a b s
  | .min d a b => Sys2Proof.Machine.execMin d a b s
  | .max d a b => Sys2Proof.Machine.execMax d a b s
  | .minn d a b => Sys2Proof.Machine.execMinn d a b s
  | .maxn d a b => Sys2Proof.Machine.execMaxn d a b s
  | .mul d a b => Sys2Proof.Machine.execMul d a b s
  | .mulh d a b => Sys2Proof.Machine.execMulh d a b s
  | .mulhn d a b => Sys2Proof.Machine.execMulhn d a b s
  | .div d a b => Sys2Proof.Machine.execDiv d a b s
  | .divn d a b => Sys2Proof.Machine.execDivn d a b s
  | .rem d a b => Sys2Proof.Machine.execRem d a b s
  | .remn d a b => Sys2Proof.Machine.execRemn d a b s
  | .clz d a => Sys2Proof.Machine.execClz d a s
  | .ctz d a => Sys2Proof.Machine.execCtz d a s
  | .popc d a => Sys2Proof.Machine.execPopc d a s
  | .bswap d a => Sys2Proof.Machine.execBswap d a s
  | .sxt d a w => Sys2Proof.Machine.execSxt d a w s
  | .zxt d a w => Sys2Proof.Machine.execZxt d a w s
  | .fshl d a b => Sys2Proof.Machine.execFshl d a b s
  | .fshr d a b => Sys2Proof.Machine.execFshr d a b s
  | .bext d a pos len1 => Sys2Proof.Machine.execBext d a pos len1 s
  | .bins d a pos len1 => Sys2Proof.Machine.execBins d a pos len1 s
  | .addi d a imm => Sys2Proof.Machine.execAddi d a imm s
  | .andi d a imm => Sys2Proof.Machine.execAndi d a imm s
  | .ori d a imm => Sys2Proof.Machine.execOri d a imm s
  | .xori d a imm => Sys2Proof.Machine.execXori d a imm s
  | .shli d a n => Sys2Proof.Machine.execShli d a n s
  | .shri d a n => Sys2Proof.Machine.execShri d a n s
  | .sari d a n => Sys2Proof.Machine.execSari d a n s
  | .rotli d a n => Sys2Proof.Machine.execRotli d a n s
  | .lih d a imm => Sys2Proof.Machine.execLih d a imm s
  | .limm d imm => Sys2Proof.Machine.execLimm d imm s
  | .cmp cc pd a b => Sys2Proof.Machine.execCmp cc pd a b s
  | .pand pd pa pb => Sys2Proof.Machine.execPand pd pa pb s
  | .por pd pa pb => Sys2Proof.Machine.execPor pd pa pb s
  | .pxor pd pa pb => Sys2Proof.Machine.execPxor pd pa pb s
  | .pnot pd pa => Sys2Proof.Machine.execPnot pd pa s
  | .pget d => Sys2Proof.Machine.execPget d s
  | .sel d a b q => Sys2Proof.Machine.execSel d a b q s
  | .fadd d a b r => Sys2Proof.Machine.execFadd d a b r s
  | .fsub d a b r => Sys2Proof.Machine.execFsub d a b r s
  | .fmul d a b r => Sys2Proof.Machine.execFmul d a b r s
  | .fdiv d a b r => Sys2Proof.Machine.execFdiv d a b r s
  | .fsqrt d a r => Sys2Proof.Machine.execFsqrt d a r s
  | .fmin d a b => Sys2Proof.Machine.execFmin d a b s
  | .fmax d a b => Sys2Proof.Machine.execFmax d a b s
  | .fclass d a => Sys2Proof.Machine.execFclass d a s
  | .ffma d a b c r => Sys2Proof.Machine.execFfma d a b c r s
  | .fcmp cc pd a b => Sys2Proof.Machine.execFcmp cc pd a b s
  | .fcvt op d a r => Sys2Proof.Machine.execFcvt op d a r s
  | .ld w d a imm => Sys2Proof.Machine.execLd w d a imm s
  | .st w d a imm => Sys2Proof.Machine.execSt w d a imm s
  | .lda r d a imm => Sys2Proof.Machine.execLda r d a imm s
  | .amo op wide d a b => Sys2Proof.Machine.execAmo op wide d a b s
  | .br g disp => Sys2Proof.Machine.execBr g disp s
  | .brr g t => Sys2Proof.Machine.execBrr g t s
  | .call g disp => Sys2Proof.Machine.execCall g disp s
  | .callr g t => Sys2Proof.Machine.execCallr g t s
  | .ret g => Sys2Proof.Machine.execRet g s
  | .loop g c len => Sys2Proof.Machine.execLoop g c len s
  | .halt g => Sys2Proof.Machine.execHalt g s
  | .trap g code => Sys2Proof.Machine.execTrap g code s
  | .eret g => Sys2Proof.Machine.execEret g s
  | .idle g => Sys2Proof.Machine.execIdle g s
  | .brk g code => Sys2Proof.Machine.execBrk g code s
  | .fireEnd g => Sys2Proof.Machine.execFireEnd g s
  | .fireNext g => Sys2Proof.Machine.execFireNext g s
  | .split g r => Sys2Proof.Machine.execSplit g r s
  | .join g => Sys2Proof.Machine.execJoin g s
  | .barGrp g => Sys2Proof.Machine.execBarGrp g s
  | .cfArmReg g cf t => Sys2Proof.Machine.execCfArmReg g cf t s
  | .cfArmImm g cf imm => Sys2Proof.Machine.execCfArmImm g cf imm s
  | .cfWaitAny g d m => Sys2Proof.Machine.execCfWaitAny g d m s
  | .cfWaitAll g d m => Sys2Proof.Machine.execCfWaitAll g d m s
  | .cfFfr g d m => Sys2Proof.Machine.execCfFfr g d m s
  | .cfStat g cf d => Sys2Proof.Machine.execCfStat g cf d s
  | .sysr g d num => Sys2Proof.Machine.execSysr g d num s
  | .sysw g r num => Sys2Proof.Machine.execSysw g r num s
  | .cfErrWrite g r => Sys2Proof.Machine.execCfErrWrite g r s
  | .coreRmodeWrite g r => Sys2Proof.Machine.execCoreRmodeWrite g r s
  | .coreSatRead g d => Sys2Proof.Machine.execCoreSatRead g d s
  | .loopCntWrite g r j => Sys2Proof.Machine.execLoopCntWrite g r j s
  | .loopStartWrite g r j => Sys2Proof.Machine.execLoopStartWrite g r j s
  | .cycCmpWrite g r => Sys2Proof.Machine.execCycCmpWrite g r s
  | .hubStatusWrite g r => Sys2Proof.Machine.execHubStatusWrite g r s
  | .qpop d iq stall t => Sys2Proof.Machine.execQpop d iq stall t s
  | .qpush r oq stall t => Sys2Proof.Machine.execQpush r oq stall t s
  | .qpeek d iq stall beat w => Sys2Proof.Machine.execQpeek d iq stall beat w s
  | .qhead d iq stall w => Sys2Proof.Machine.execQhead d iq stall w s
  | .qskip iq stall => Sys2Proof.Machine.execQskip iq stall s
  | .qmark r oq stall k => Sys2Proof.Machine.execQmark r oq stall k s
  | .qfree d oq => Sys2Proof.Machine.execQfree d oq s
  | .qavail d iq => Sys2Proof.Machine.execQavail d iq s
  | .epop d e stall => Sys2Proof.Machine.execEpop d e stall s
  | .mov d a => Sys2Proof.Machine.execMov d a s
  | .movp pd pa neg => Sys2Proof.Machine.execMovp pd pa neg s
  | .qstat d port => Sys2Proof.Machine.execQstat d port s
  | .qcopy iq oq stall => Sys2Proof.Machine.execQcopy iq oq stall s
  | .vadd h t r vd va vb => Sys2Proof.Machine.execVadd h t r vd va vb s
  | .vsub h t r vd va vb => Sys2Proof.Machine.execVsub h t r vd va vb s
  | .vmul h t r vd va vb => Sys2Proof.Machine.execVmul h t r vd va vb s
  | .vfma h t r vd va vb vc => Sys2Proof.Machine.execVfma h t r vd va vb vc s
  | .vfms h t r vd va vb vc => Sys2Proof.Machine.execVfms h t r vd va vb vc s
  | .vfnma h t r vd va vb vc => Sys2Proof.Machine.execVfnma h t r vd va vb vc s
  | .vmin h t vd va vb => Sys2Proof.Machine.execVmin h t vd va vb s
  | .vmax h t vd va vb => Sys2Proof.Machine.execVmax h t vd va vb s
  | .vabs h t vd va => Sys2Proof.Machine.execVabs h t vd va s
  | .vneg h t vd va => Sys2Proof.Machine.execVneg h t vd va s
  | .vcopysign h t vd va vb => Sys2Proof.Machine.execVcopysign h t vd va vb s
  | .vdiv h t r vd va vb => Sys2Proof.Machine.execVdiv h t r vd va vb s
  | .vsqrt h t r vd va => Sys2Proof.Machine.execVsqrt h t r vd va s
  | .vrcp h t r vd va => Sys2Proof.Machine.execVrcp h t r vd va s
  | .vrsq h t r vd va => Sys2Proof.Machine.execVrsq h t r vd va s
  | .vexp2 h t r vd va => Sys2Proof.Machine.execVexp2 h t r vd va s
  | .vlog2 h t r vd va => Sys2Proof.Machine.execVlog2 h t r vd va s
  | .vsin h t r vd va => Sys2Proof.Machine.execVsin h t r vd va s
  | .vcos h t r vd va => Sys2Proof.Machine.execVcos h t r vd va s
  | .vtanh h t r vd va => Sys2Proof.Machine.execVtanh h t r vd va s
  | .viadd h t sat vd va vb => Sys2Proof.Machine.execViadd h t sat vd va vb s
  | .visub h t sat vd va vb => Sys2Proof.Machine.execVisub h t sat vd va vb s
  | .vimul h t vd va vb => Sys2Proof.Machine.execVimul h t vd va vb s
  | .vimulh h t vd va vb => Sys2Proof.Machine.execVimulh h t vd va vb s
  | .vimin h t vd va vb => Sys2Proof.Machine.execVimin h t vd va vb s
  | .vimax h t vd va vb => Sys2Proof.Machine.execVimax h t vd va vb s
  | .vand h t vd va vb => Sys2Proof.Machine.execVand h t vd va vb s
  | .vor h t vd va vb => Sys2Proof.Machine.execVor h t vd va vb s
  | .vxor h t vd va vb => Sys2Proof.Machine.execVxor h t vd va vb s
  | .vnot h t vd va => Sys2Proof.Machine.execVnot h t vd va s
  | .vshlImm h t vd va n => Sys2Proof.Machine.execVshlImm h t vd va n s
  | .vshlVb h t vd va vb => Sys2Proof.Machine.execVshlVb h t vd va vb s
  | .vshrImm h t vd va n => Sys2Proof.Machine.execVshrImm h t vd va n s
  | .vshrVb h t vd va vb => Sys2Proof.Machine.execVshrVb h t vd va vb s
  | .vsarImm h t vd va n => Sys2Proof.Machine.execVsarImm h t vd va n s
  | .vsarVb h t vd va vb => Sys2Proof.Machine.execVsarVb h t vd va vb s
  | .vbext h t vd va pos len1 => Sys2Proof.Machine.execVbext h t vd va pos len1 s
  | .vfsh h t vd va vb n => Sys2Proof.Machine.execVfsh h t vd va vb n s
  | .vpopc h t vd va => Sys2Proof.Machine.execVpopc h t vd va s
  | .vclz h t vd va => Sys2Proof.Machine.execVclz h t vd va s
  | .vsatn h t u vd va => Sys2Proof.Machine.execVsatn h t u vd va s
  | .vcmp cc h t md va vb => Sys2Proof.Machine.execVcmp cc h t md va vb s
  | .vsel h vd va vb mc => Sys2Proof.Machine.execVsel h vd va vb mc s
  | .mand cl md ma mb => Sys2Proof.Machine.execMand cl md ma mb s
  | .mor cl md ma mb => Sys2Proof.Machine.execMor cl md ma mb s
  | .mxor cl md ma mb => Sys2Proof.Machine.execMxor cl md ma mb s
  | .mnot cl md ma => Sys2Proof.Machine.execMnot cl md ma s
  | .mpopc cl md ma => Sys2Proof.Machine.execMpopc cl md ma s
  | .mfirst cl md ma => Sys2Proof.Machine.execMfirst cl md ma s
  | .mset cl md code => Sys2Proof.Machine.execMset cl md code s
  | .vcvt h t u r vd va => Sys2Proof.Machine.execVcvt h t u r vd va s
  | .vpack h t vd va vb => Sys2Proof.Machine.execVpack h t vd va vb s
  | .vunpack h t hi vd va => Sys2Proof.Machine.execVunpack h t hi vd va s
  | .vscale h t q vd va => Sys2Proof.Machine.execVscale h t q vd va s
  | .vquant h t q r vd va vb => Sys2Proof.Machine.execVquant h t q r vd va vb s
  | .vdeq h t q r vd va vb => Sys2Proof.Machine.execVdeq h t q r vd va vb s
  | .vld h vd ga off => Sys2Proof.Machine.execVld h vd ga off s
  | .vst h vd ga off => Sys2Proof.Machine.execVst h vd ga off s
  | .vlds h vd ga gb => Sys2Proof.Machine.execVlds h vd ga gb s
  | .vsts h vd ga gb => Sys2Proof.Machine.execVsts h vd ga gb s
  | .vgather h vd ga vb => Sys2Proof.Machine.execVgather h vd ga vb s
  | .vscatter h vd ga vb => Sys2Proof.Machine.execVscatter h vd ga vb s
  | .vldb h vd ga => Sys2Proof.Machine.execVldb h vd ga s
  | .vrget h vd va vb => Sys2Proof.Machine.execVrget h vd va vb s
  | .vrput h vd va vb => Sys2Proof.Machine.execVrput h vd va vb s
  | .vcmprSt h t nf vd ga gb => Sys2Proof.Machine.execVcmprSt h t nf vd ga gb s
  | .vexpdLd h t vd ga => Sys2Proof.Machine.execVexpdLd h t vd ga s
  | .vqpop h vd ga => Sys2Proof.Machine.execVqpop h vd ga s
  | .vqpush h t close vd ga gb => Sys2Proof.Machine.execVqpush h t close vd ga gb s
  | .vperm h vd va vb => Sys2Proof.Machine.execVperm h vd va vb s
  | .vshuf h p vd va vb => Sys2Proof.Machine.execVshuf h p vd va vb s
  | .vrotl h vd va n => Sys2Proof.Machine.execVrotl h vd va n s
  | .vxcl h vd va gb => Sys2Proof.Machine.execVxcl h vd va gb s
  | .vred h op t r vd va => Sys2Proof.Machine.execVred h op t r vd va s
  | .vargmax h t vd va => Sys2Proof.Machine.execVargmax h t vd va s
  | .vscan h op t r vd va => Sys2Proof.Machine.execVscan h op t r vd va s
  | .viota h vd => Sys2Proof.Machine.execViota h vd s
  | .vmovs h vd gb => Sys2Proof.Machine.execVmovs h vd gb s
  | .vbcast h vd va gb => Sys2Proof.Machine.execVbcast h vd va gb s
  | .vzero h vd => Sys2Proof.Machine.execVzero h vd s
  | .kset cl kd gb e => Sys2Proof.Machine.execKset cl kd gb e s
  | .mbatLd pg bat src t form => Sys2Proof.Machine.execMbatLd pg bat src t form s
  | .mbatSel pg bat => Sys2Proof.Machine.execMbatSel pg bat s
  | .mma pg ac bat src rows ta tb set => Sys2Proof.Machine.execMma pg ac bat src rows ta tb set s
  | .macClr pg ac => Sys2Proof.Machine.execMacClr pg ac s
  | .macRd pg ac dst rows t r => Sys2Proof.Machine.execMacRd pg ac dst rows t r s
  | .macRdq pg ac dst rows q r sc => Sys2Proof.Machine.execMacRdq pg ac dst rows q r sc s
  | .mrows pg ac mask => Sys2Proof.Machine.execMrows pg ac mask s
  | .mscale pg bat src => Sys2Proof.Machine.execMscale pg bat src s
  | .mstat pg ac vd => Sys2Proof.Machine.execMstat pg ac vd s
  | .mwait pg ac => Sys2Proof.Machine.execMwait pg ac s
  | .dxCopy pg cf ga gb gc => Sys2Proof.Machine.execDxCopy pg cf ga gb gc s
  | .dxPat pg cf ga gb gc => Sys2Proof.Machine.execDxPat pg cf ga gb gc s
  | .dxGat pg cf ga gb gc fsh n => Sys2Proof.Machine.execDxGat pg cf ga gb gc fsh n s
  | .dxSct pg cf ga gb gc fsh n => Sys2Proof.Machine.execDxSct pg cf ga gb gc fsh n s
  | .dxStream pg cf ga gb sp bg8 => Sys2Proof.Machine.execDxStream pg cf ga gb sp bg8 s
  | .dxDrain pg => Sys2Proof.Machine.execDxDrain pg s
  | .rst pg cf ga gb gc => Sys2Proof.Machine.execRst pg cf ga gb gc s
  | .rld pg cf ga gb gc => Sys2Proof.Machine.execRld pg cf ga gb gc s
  | .rldIq pg cf ga gb gc => Sys2Proof.Machine.execRldIq pg cf ga gb gc s
  | .ramo pg cf ga gb gc op wide => Sys2Proof.Machine.execRamo pg cf ga gb gc op wide s
  | .rcfAdd pg cf ga gb => Sys2Proof.Machine.execRcfAdd pg cf ga gb s
  | .cfAdd pg cf imm => Sys2Proof.Machine.execCfAdd pg cf imm s
  | .fenceCore pg => Sys2Proof.Machine.execFenceCore pg s
  | .fencePkg pg => Sys2Proof.Machine.execFencePkg pg s
  | .fenceDom pg => Sys2Proof.Machine.execFenceDom pg s
  | .fenceF pg cf ga gb => Sys2Proof.Machine.execFenceF pg cf ga gb s
  | .kilnAdmit pg ga => Sys2Proof.Machine.execKilnAdmit pg ga s
  | .kilnStep pg iq inst => Sys2Proof.Machine.execKilnStep pg iq inst s
  | .kilnRet pg cf ga gb inst => Sys2Proof.Machine.execKilnRet pg cf ga gb inst s
  | .kilnRd pg ga gb => Sys2Proof.Machine.execKilnRd pg ga gb s
  | .kilnCancel pg ga => Sys2Proof.Machine.execKilnCancel pg ga s
  | .kilnEvict pg ga => Sys2Proof.Machine.execKilnEvict pg ga s
  | .kilnAbort pg ga fail all => Sys2Proof.Machine.execKilnAbort pg ga fail all s
  | .cfgLoad pg ga gb gc => Sys2Proof.Machine.execCfgLoad pg ga gb gc s
  | .cfgCommit pg ga start => Sys2Proof.Machine.execCfgCommit pg ga start s
  | .cfgAbort pg ga => Sys2Proof.Machine.execCfgAbort pg ga s
  | .cfgTok pg ga => Sys2Proof.Machine.execCfgTok pg ga s
  | .segSet pg n ga gb => Sys2Proof.Machine.execSegSet pg n ga gb s
  | .winSet pg w ga gb gc => Sys2Proof.Machine.execWinSet pg w ga gb gc s
  | .winRevoke pg w => Sys2Proof.Machine.execWinRevoke pg w s
  | .circBind pg ga => Sys2Proof.Machine.execCircBind pg ga s
  | .circBindRel pg ga => Sys2Proof.Machine.execCircBindRel pg ga s
  | .eventPop pg ga => Sys2Proof.Machine.execEventPop pg ga s
  | .logRd pg ga gb => Sys2Proof.Machine.execLogRd pg ga gb s
  | .dbgCtlHalt pg ga => Sys2Proof.Machine.execDbgCtlHalt pg ga s
  | .dbgCtlHaltq pg ga => Sys2Proof.Machine.execDbgCtlHaltq pg ga s
  | .dbgCtlRun pg ga => Sys2Proof.Machine.execDbgCtlRun pg ga s
  | .dbgCtlStep pg ga => Sys2Proof.Machine.execDbgCtlStep pg ga s
  | .dbgCtlResume pg ga => Sys2Proof.Machine.execDbgCtlResume pg ga s
  | .dbgCtlSkip pg ga => Sys2Proof.Machine.execDbgCtlSkip pg ga s
  | .dbgCtlAbort pg ga => Sys2Proof.Machine.execDbgCtlAbort pg ga s
  | .idleWake h => Sys2Proof.Machine.execIdleWake h s
  | .batFillComplete c n => Sys2Proof.Machine.execBatFillComplete c n s
  | .mmaPassComplete c n => Sys2Proof.Machine.execMmaPassComplete c n s
  | .accReadComplete c n => Sys2Proof.Machine.execAccReadComplete c n s
  | .dxDrainSatisfied c n => Sys2Proof.Machine.execDxDrainSatisfied c n s
  | .rldReplyTile c n => Sys2Proof.Machine.execRldReplyTile c n s
  | .engineCommandComplete c n => Sys2Proof.Machine.execEngineCommandComplete c n s
  | .kilnFormCharge => Sys2Proof.Machine.execKilnFormCharge s
  | .chargeDelivery inst => Sys2Proof.Machine.execChargeDelivery inst s
  | .kilnReturn => Sys2Proof.Machine.execKilnReturn s
  | .chargeAbortSettle => Sys2Proof.Machine.execChargeAbortSettle s
  | .tokenPass c r => Sys2Proof.Machine.execTokenPass c r s
  | .coreCommit c => Sys2Proof.Machine.execCoreCommit c s
  | .windowRevokeComplete w => Sys2Proof.Machine.execWindowRevokeComplete w s
  | .haltedStageResumes c => Sys2Proof.Machine.execHaltedStageResumes c s
  | .entryArrives c iq ext => Sys2Proof.Machine.execEntryArrives c iq ext s
  | .freeSlotNotice c oq n ext => Sys2Proof.Machine.execFreeSlotNotice c oq n ext s
  | .firingGrant c => Sys2Proof.Machine.execFiringGrant c s
  | .passThrough c => Sys2Proof.Machine.execPassThrough c s
  | .firingWatchdog c => Sys2Proof.Machine.execFiringWatchdog c s
  | .discardRemoval c r => Sys2Proof.Machine.execDiscardRemoval c r s
  | .abortCe c r => Sys2Proof.Machine.execAbortCe c r s
  | .interrupt h => Sys2Proof.Machine.execInterrupt h s
  | .cyclesCompare => Sys2Proof.Machine.execCyclesCompare s
  | .configSpaceWrite h pa v => Sys2Proof.Machine.execConfigSpaceWrite h pa v s
  | .cfgStatusRead h c d => Sys2Proof.Machine.execCfgStatusRead h c d s
  | .scrub word => Sys2Proof.Machine.execScrub word s
  | .write circ p => Sys2Proof.Machine.execWrite circ p s
  | .read circ p => Sys2Proof.Machine.execRead circ p s
  | .atomic circ p => Sys2Proof.Machine.execAtomic circ p s
  | .flag circ p => Sys2Proof.Machine.execFlag circ p s
  | .fence circ p => Sys2Proof.Machine.execFence circ p s
  | .kret circ p => Sys2Proof.Machine.execKret circ p s
  | .probe circ p => Sys2Proof.Machine.execProbe circ p s
  | .resp circ p => Sys2Proof.Machine.execResp circ p s
  | .data circ p => Sys2Proof.Machine.execData circ p s
  | .probeAns circ p => Sys2Proof.Machine.execProbeAns circ p s
  | .ack link lseq => Sys2Proof.Machine.execAck link lseq s
  | .nak link lseq => Sys2Proof.Machine.execNak link lseq s
  | .retrain link => Sys2Proof.Machine.execRetrain link s
  | .retrainSuccess link => Sys2Proof.Machine.execRetrainSuccess link s
  | .retrainTimeout link => Sys2Proof.Machine.execRetrainTimeout link s
  | .identityRecord link r => Sys2Proof.Machine.execIdentityRecord link r s
  | .relayForward circ f => Sys2Proof.Machine.execRelayForward circ f s
  | .img src m => Sys2Proof.Machine.execImg src m s
  | .imgack link m => Sys2Proof.Machine.execImgack link m s
  | .imgnak link m => Sys2Proof.Machine.execImgnak link m s
  | .keyx link m => Sys2Proof.Machine.execKeyx link m s
  | .fail link m => Sys2Proof.Machine.execFail link m s
  | .close link m => Sys2Proof.Machine.execClose link m s
  | .abort link m => Sys2Proof.Machine.execAbort link m s
  | .pkgdown link m => Sys2Proof.Machine.execPkgdown link m s
  | .forcedReset scope => Sys2Proof.Machine.execForcedReset scope s
  | .packageReset cause => Sys2Proof.Machine.execPackageReset cause s
  | .managementFrame bytes => Sys2Proof.Machine.execManagementFrame bytes s
  | .status => Sys2Proof.Machine.execStatus s
  | .temp => Sys2Proof.Machine.execTemp s
  | .power => Sys2Proof.Machine.execPower s
  | .pcap x => Sys2Proof.Machine.execPcap x s
  | .idleen q => Sys2Proof.Machine.execIdleen q s
  | .i3cReset => Sys2Proof.Machine.execI3cReset s
  | .off => Sys2Proof.Machine.execOff s
  | .quarterIdle q => Sys2Proof.Machine.execQuarterIdle q s
  | .quarterWake q => Sys2Proof.Machine.execQuarterWake q s
  | .thermalTrip q t => Sys2Proof.Machine.execThermalTrip q t s
  | .telemetryRewrite => Sys2Proof.Machine.execTelemetryRewrite s
  | .flitSlot link => Sys2Proof.Machine.execFlitSlot link s
  | .crcFailure x => Sys2Proof.Machine.execCrcFailure x s
  | .throttling q on => Sys2Proof.Machine.execThrottling q on s

end Sys2Proof.Machine
end

