-- ==== Sys2Proof/Machine/SlotOps.lean ====
section
/-! DEFINITION. The slot operation of each instruction that fills a slot of a bundle; the events fill none. -/

namespace Sys2Proof.Machine

/-- What an instruction decoded from slot `sl` does as a part of its bundle (spec/03 R92 to R100). -/
def slotOp (sl : Slot) (i : Instr) : Option SlotOp :=
  match i with
  | .add d a b => some (opAdd sl d a b)
  | .sub d a b => some (opSub sl d a b)
  | .and d a b => some (opAnd sl d a b)
  | .or d a b => some (opOr sl d a b)
  | .xor d a b => some (opXor sl d a b)
  | .shl d a b => some (opShl sl d a b)
  | .shr d a b => some (opShr sl d a b)
  | .sar d a b => some (opSar sl d a b)
  | .rotl d a b => some (opRotl sl d a b)
  | .slt d a b => some (opSlt sl d a b)
  | .sltn d a b => some (opSltn sl d a b)
  | .seq d a b => some (opSeq sl d a b)
  | .min d a b => some (opMin sl d a b)
  | .max d a b => some (opMax sl d a b)
  | .minn d a b => some (opMinn sl d a b)
  | .maxn d a b => some (opMaxn sl d a b)
  | .mul d a b => some (opMul sl d a b)
  | .mulh d a b => some (opMulh sl d a b)
  | .mulhn d a b => some (opMulhn sl d a b)
  | .div d a b => some (opDiv sl d a b)
  | .divn d a b => some (opDivn sl d a b)
  | .rem d a b => some (opRem sl d a b)
  | .remn d a b => some (opRemn sl d a b)
  | .clz d a => some (opClz sl d a)
  | .ctz d a => some (opCtz sl d a)
  | .popc d a => some (opPopc sl d a)
  | .bswap d a => some (opBswap sl d a)
  | .sxt d a w => some (opSxt sl d a w)
  | .zxt d a w => some (opZxt sl d a w)
  | .fshl d a b => some (opFshl sl d a b)
  | .fshr d a b => some (opFshr sl d a b)
  | .bext d a pos len1 => some (opBext sl d a pos len1)
  | .bins d a pos len1 => some (opBins sl d a pos len1)
  | .addi d a imm => some (opAddi sl d a imm)
  | .andi d a imm => some (opAndi sl d a imm)
  | .ori d a imm => some (opOri sl d a imm)
  | .xori d a imm => some (opXori sl d a imm)
  | .shli d a n => some (opShli sl d a n)
  | .shri d a n => some (opShri sl d a n)
  | .sari d a n => some (opSari sl d a n)
  | .rotli d a n => some (opRotli sl d a n)
  | .lih d a imm => some (opLih sl d a imm)
  | .limm d imm => some (opLimm sl d imm)
  | .cmp cc pd a b => some (opCmp sl cc pd a b)
  | .pand pd pa pb => some (opPand sl pd pa pb)
  | .por pd pa pb => some (opPor sl pd pa pb)
  | .pxor pd pa pb => some (opPxor sl pd pa pb)
  | .pnot pd pa => some (opPnot sl pd pa)
  | .pget d => some (opPget sl d)
  | .sel d a b q => some (opSel sl d a b q)
  | .fadd d a b r => some (opFadd sl d a b r)
  | .fsub d a b r => some (opFsub sl d a b r)
  | .fmul d a b r => some (opFmul sl d a b r)
  | .fdiv d a b r => some (opFdiv sl d a b r)
  | .fsqrt d a r => some (opFsqrt sl d a r)
  | .fmin d a b => some (opFmin sl d a b)
  | .fmax d a b => some (opFmax sl d a b)
  | .fclass d a => some (opFclass sl d a)
  | .ffma d a b c r => some (opFfma sl d a b c r)
  | .fcmp cc pd a b => some (opFcmp sl cc pd a b)
  | .fcvt op d a r => some (opFcvt sl op d a r)
  | .ld w d a imm => some (opLd sl w d a imm)
  | .st w d a imm => some (opSt sl w d a imm)
  | .lda r d a imm => some (opLda sl r d a imm)
  | .amo op wide d a b => some (opAmo sl op wide d a b)
  | .br g disp => some (opBr g disp)
  | .brr g t => some (opBrr g t)
  | .call g disp => some (opCall g disp)
  | .callr g t => some (opCallr g t)
  | .ret g => some (opRet g)
  | .loop g c len => some (opLoop g c len)
  | .halt g => some (opHalt g)
  | .trap g code => some (opTrap g code)
  | .eret g => some (opEret g)
  | .idle g => some (opIdle g)
  | .brk g code => some (opBrk g code)
  | .fireEnd g => some (opFireEnd g)
  | .fireNext g => some (opFireNext g)
  | .split g r => some (opSplit g r)
  | .join g => some (opJoin g)
  | .barGrp g => some (opBarGrp g)
  | .cfArmReg g cf t => some (opCfArmReg g cf t)
  | .cfArmImm g cf imm => some (opCfArmImm g cf imm)
  | .cfWaitAny g d m => some (opCfWaitAny g d m)
  | .cfWaitAll g d m => some (opCfWaitAll g d m)
  | .cfFfr g d m => some (opCfFfr g d m)
  | .cfStat g cf d => some (opCfStat g cf d)
  | .sysr g d num => some (opSysr g d num)
  | .sysw g r num => some (opSysw g r num)
  | .cfErrWrite g r => some (opCfErrWrite g r)
  | .coreRmodeWrite g r => some (opCoreRmodeWrite g r)
  | .coreSatRead g d => some (opCoreSatRead g d)
  | .loopCntWrite g r j => some (opLoopCntWrite g r j)
  | .loopStartWrite g r j => some (opLoopStartWrite g r j)
  | .cycCmpWrite g r => some (opCycCmpWrite g r)
  | .hubStatusWrite g r => some (opHubStatusWrite g r)
  | .qpop d iq stall t => some (opQpop d iq stall t)
  | .qpush r oq stall t => some (opQpush r oq stall t)
  | .qpeek d iq stall beat w => some (opQpeek d iq stall beat w)
  | .qhead d iq stall w => some (opQhead d iq stall w)
  | .qskip iq stall => some (opQskip iq stall)
  | .qmark r oq stall k => some (opQmark r oq stall k)
  | .qfree d oq => some (opQfree d oq)
  | .qavail d iq => some (opQavail d iq)
  | .epop d e stall => some (opEpop d e stall)
  | .mov d a => some (opMov d a)
  | .movp pd pa neg => some (opMovp pd pa neg)
  | .qstat d port => some (opQstat d port)
  | .qcopy iq oq stall => some (opQcopy iq oq stall)
  | .vadd h t r vd va vb => some (opVadd h t r vd va vb)
  | .vsub h t r vd va vb => some (opVsub h t r vd va vb)
  | .vmul h t r vd va vb => some (opVmul h t r vd va vb)
  | .vfma h t r vd va vb vc => some (opVfma h t r vd va vb vc)
  | .vfms h t r vd va vb vc => some (opVfms h t r vd va vb vc)
  | .vfnma h t r vd va vb vc => some (opVfnma h t r vd va vb vc)
  | .vmin h t vd va vb => some (opVmin h t vd va vb)
  | .vmax h t vd va vb => some (opVmax h t vd va vb)
  | .vabs h t vd va => some (opVabs h t vd va)
  | .vneg h t vd va => some (opVneg h t vd va)
  | .vcopysign h t vd va vb => some (opVcopysign h t vd va vb)
  | .vdiv h t r vd va vb => some (opVdiv h t r vd va vb)
  | .vsqrt h t r vd va => some (opVsqrt h t r vd va)
  | .vrcp h t r vd va => some (opVrcp h t r vd va)
  | .vrsq h t r vd va => some (opVrsq h t r vd va)
  | .vexp2 h t r vd va => some (opVexp2 h t r vd va)
  | .vlog2 h t r vd va => some (opVlog2 h t r vd va)
  | .vsin h t r vd va => some (opVsin h t r vd va)
  | .vcos h t r vd va => some (opVcos h t r vd va)
  | .vtanh h t r vd va => some (opVtanh h t r vd va)
  | .viadd h t sat vd va vb => some (opViadd h t sat vd va vb)
  | .visub h t sat vd va vb => some (opVisub h t sat vd va vb)
  | .vimul h t vd va vb => some (opVimul h t vd va vb)
  | .vimulh h t vd va vb => some (opVimulh h t vd va vb)
  | .vimin h t vd va vb => some (opVimin h t vd va vb)
  | .vimax h t vd va vb => some (opVimax h t vd va vb)
  | .vand h t vd va vb => some (opVand h t vd va vb)
  | .vor h t vd va vb => some (opVor h t vd va vb)
  | .vxor h t vd va vb => some (opVxor h t vd va vb)
  | .vnot h t vd va => some (opVnot h t vd va)
  | .vshlImm h t vd va n => some (opVshlImm h t vd va n)
  | .vshlVb h t vd va vb => some (opVshlVb h t vd va vb)
  | .vshrImm h t vd va n => some (opVshrImm h t vd va n)
  | .vshrVb h t vd va vb => some (opVshrVb h t vd va vb)
  | .vsarImm h t vd va n => some (opVsarImm h t vd va n)
  | .vsarVb h t vd va vb => some (opVsarVb h t vd va vb)
  | .vbext h t vd va pos len1 => some (opVbext h t vd va pos len1)
  | .vfsh h t vd va vb n => some (opVfsh h t vd va vb n)
  | .vpopc h t vd va => some (opVpopc h t vd va)
  | .vclz h t vd va => some (opVclz h t vd va)
  | .vsatn h t u vd va => some (opVsatn h t u vd va)
  | .vcmp cc h t md va vb => some (opVcmp cc h t md va vb)
  | .vsel h vd va vb mc => some (opVsel h vd va vb mc)
  | .mand cl md ma mb => some (opMand cl md ma mb)
  | .mor cl md ma mb => some (opMor cl md ma mb)
  | .mxor cl md ma mb => some (opMxor cl md ma mb)
  | .mnot cl md ma => some (opMnot cl md ma)
  | .mpopc cl md ma => some (opMpopc cl md ma)
  | .mfirst cl md ma => some (opMfirst cl md ma)
  | .mset cl md code => some (opMset cl md code)
  | .vcvt h t u r vd va => some (opVcvt h t u r vd va)
  | .vpack h t vd va vb => some (opVpack h t vd va vb)
  | .vunpack h t hi vd va => some (opVunpack h t hi vd va)
  | .vscale h t q vd va => some (opVscale h t q vd va)
  | .vquant h t q r vd va vb => some (opVquant h t q r vd va vb)
  | .vdeq h t q r vd va vb => some (opVdeq h t q r vd va vb)
  | .vld h vd ga off => some (opVld h vd ga off)
  | .vst h vd ga off => some (opVst h vd ga off)
  | .vlds h vd ga gb => some (opVlds h vd ga gb)
  | .vsts h vd ga gb => some (opVsts h vd ga gb)
  | .vgather h vd ga vb => some (opVgather h vd ga vb)
  | .vscatter h vd ga vb => some (opVscatter h vd ga vb)
  | .vldb h vd ga => some (opVldb h vd ga)
  | .vrget h vd va vb => some (opVrget h vd va vb)
  | .vrput h vd va vb => some (opVrput h vd va vb)
  | .vcmprSt h t nf vd ga gb => some (opVcmprSt h t nf vd ga gb)
  | .vexpdLd h t vd ga => some (opVexpdLd h t vd ga)
  | .vqpop h vd ga => some (opVqpop h vd ga)
  | .vqpush h t close vd ga gb => some (opVqpush h t close vd ga gb)
  | .vperm h vd va vb => some (opVperm h vd va vb)
  | .vshuf h p vd va vb => some (opVshuf h p vd va vb)
  | .vrotl h vd va n => some (opVrotl h vd va n)
  | .vxcl h vd va gb => some (opVxcl h vd va gb)
  | .vred h op t r vd va => some (opVred h op t r vd va)
  | .vargmax h t vd va => some (opVargmax h t vd va)
  | .vscan h op t r vd va => some (opVscan h op t r vd va)
  | .viota h vd => some (opViota h vd)
  | .vmovs h vd gb => some (opVmovs h vd gb)
  | .vbcast h vd va gb => some (opVbcast h vd va gb)
  | .vzero h vd => some (opVzero h vd)
  | .kset cl kd gb e => some (opKset cl kd gb e)
  | .mbatLd pg bat src t form => some (opMbatLd pg bat src t form)
  | .mbatSel pg bat => some (opMbatSel pg bat)
  | .mma pg ac bat src rows ta tb set => some (opMma pg ac bat src rows ta tb set)
  | .macClr pg ac => some (opMacClr pg ac)
  | .macRd pg ac dst rows t r => some (opMacRd pg ac dst rows t r)
  | .macRdq pg ac dst rows q r sc => some (opMacRdq pg ac dst rows q r sc)
  | .mrows pg ac mask => some (opMrows pg ac mask)
  | .mscale pg bat src => some (opMscale pg bat src)
  | .mstat pg ac vd => some (opMstat pg ac vd)
  | .mwait pg ac => some (opMwait pg ac)
  | .dxCopy pg cf ga gb gc => some (opDxCopy pg cf ga gb gc)
  | .dxPat pg cf ga gb gc => some (opDxPat pg cf ga gb gc)
  | .dxGat pg cf ga gb gc fsh n => some (opDxGat pg cf ga gb gc fsh n)
  | .dxSct pg cf ga gb gc fsh n => some (opDxSct pg cf ga gb gc fsh n)
  | .dxStream pg cf ga gb sp bg8 => some (opDxStream pg cf ga gb sp bg8)
  | .dxDrain pg => some (opDxDrain pg)
  | .rst pg cf ga gb gc => some (opRst pg cf ga gb gc)
  | .rld pg cf ga gb gc => some (opRld pg cf ga gb gc)
  | .rldIq pg cf ga gb gc => some (opRldIq pg cf ga gb gc)
  | .ramo pg cf ga gb gc op wide => some (opRamo pg cf ga gb gc op wide)
  | .rcfAdd pg cf ga gb => some (opRcfAdd pg cf ga gb)
  | .cfAdd pg cf imm => some (opCfAdd pg cf imm)
  | .fenceCore pg => some (opFenceCore pg)
  | .fencePkg pg => some (opFencePkg pg)
  | .fenceDom pg => some (opFenceDom pg)
  | .fenceF pg cf ga gb => some (opFenceF pg cf ga gb)
  | .kilnAdmit pg ga => some (opKilnAdmit pg ga)
  | .kilnStep pg iq inst => some (opKilnStep pg iq inst)
  | .kilnRet pg cf ga gb inst => some (opKilnRet pg cf ga gb inst)
  | .kilnRd pg ga gb => some (opKilnRd pg ga gb)
  | .kilnCancel pg ga => some (opKilnCancel pg ga)
  | .kilnEvict pg ga => some (opKilnEvict pg ga)
  | .kilnAbort pg ga fail all => some (opKilnAbort pg ga fail all)
  | .cfgLoad pg ga gb gc => some (opCfgLoad pg ga gb gc)
  | .cfgCommit pg ga start => some (opCfgCommit pg ga start)
  | .cfgAbort pg ga => some (opCfgAbort pg ga)
  | .cfgTok pg ga => some (opCfgTok pg ga)
  | .segSet pg n ga gb => some (opSegSet pg n ga gb)
  | .winSet pg w ga gb gc => some (opWinSet pg w ga gb gc)
  | .winRevoke pg w => some (opWinRevoke pg w)
  | .circBind pg ga => some (opCircBind pg ga)
  | .circBindRel pg ga => some (opCircBindRel pg ga)
  | .eventPop pg ga => some (opEventPop pg ga)
  | .logRd pg ga gb => some (opLogRd pg ga gb)
  | .dbgCtlHalt pg ga => some (opDbgCtlHalt pg ga)
  | .dbgCtlHaltq pg ga => some (opDbgCtlHaltq pg ga)
  | .dbgCtlRun pg ga => some (opDbgCtlRun pg ga)
  | .dbgCtlStep pg ga => some (opDbgCtlStep pg ga)
  | .dbgCtlResume pg ga => some (opDbgCtlResume pg ga)
  | .dbgCtlSkip pg ga => some (opDbgCtlSkip pg ga)
  | .dbgCtlAbort pg ga => some (opDbgCtlAbort pg ga)
  | .idleWake _ | .batFillComplete _ _ | .mmaPassComplete _ _ | .accReadComplete _ _ | .dxDrainSatisfied _ _
  | .rldReplyTile _ _ | .engineCommandComplete _ _ | .kilnFormCharge | .chargeDelivery _ | .kilnReturn
  | .chargeAbortSettle | .tokenPass _ _ | .coreCommit _ | .windowRevokeComplete _ | .haltedStageResumes _
  | .entryArrives _ _ _ | .freeSlotNotice _ _ _ _ | .firingGrant _ | .passThrough _ | .firingWatchdog _
  | .discardRemoval _ _ | .abortCe _ _ | .interrupt _ | .cyclesCompare | .configSpaceWrite _ _ _
  | .cfgStatusRead _ _ _ | .scrub _ | .write _ _ | .read _ _ | .atomic _ _ | .flag _ _ | .fence _ _ | .kret _ _
  | .probe _ _ | .resp _ _ | .data _ _ | .probeAns _ _ | .ack _ _ | .nak _ _ | .retrain _ | .retrainSuccess _
  | .retrainTimeout _ | .identityRecord _ _ | .relayForward _ _ | .img _ _ | .imgack _ _ | .imgnak _ _ | .keyx _ _
  | .fail _ _ | .close _ _ | .abort _ _ | .pkgdown _ _ | .forcedReset _ | .packageReset _ | .managementFrame _
  | .status | .temp | .power | .pcap _ | .idleen _ | .i3cReset | .off | .quarterIdle _ | .quarterWake _
  | .thermalTrip _ _ | .telemetryRewrite | .flitSlot _ | .crcFailure _ | .throttling _ _ => none

/-- The instruction is an event: it fills no slot. -/
def isEvent (i : Instr) : Bool := (slotOp .s0 i).isNone

end Sys2Proof.Machine
end

