-- ==== Sys2Proof/Machine/Fetch.lean ====
section
/-! DEFINITION. Fetching a bundle (spec/03 R74, spec/06 R146, spec/13 R299), the bundle or interrupt of the focused core, what
moves when no agenda names it, and the passing of clk. `step` calls these. -/

namespace Sys2Proof.Machine

/-! ## Fetch -/

/-- The bundle at code address `pc` of core c: through a segment or the direct map on a hub core, the instruction store on a
compute core (R74, R145, R146, R305). -/
def State.fetch (s : State) (c : Nat) (pc : Addr) : Except TrapInfo (BitVec 256) :=
  if isHub c then
    match s.xlat c .fetch (pc.setWidth 64) 32 32 with
    | .ok pa => if s.badIn pa 32 then .error ⟨0x05, 0, 0⟩ else .ok (BitVec.ofNat 256 (s.load pa 32))
    | .error (.trap t) => .error t
    | .error .wait => .error ⟨0x03, 6, pc.toNat⟩
  else .ok (sget 0 (s.core c).istore (pc.toNat / 32))

/-- The slots of a decoded bundle that do not decode, with their faults (R75, R86 to R91). -/
def badSlots (l : List (Slot × Dec)) : List (Slot × TrapInfo) :=
  l.filterMap fun x => match x.2 with
    | .ok _ => none
    | .error e => some (x.1, ⟨0x01, e.detail, 0⟩)

/-- The operations of a decoded bundle. -/
def goodSlots (l : List (Slot × Dec)) : List SlotOp :=
  l.filterMap fun x => match x.2 with
    | .ok i => slotOp x.1 i
    | .error _ => none

/-- A bundle word at the pc of the focused core: an undecodable bundle faults as a whole with SLOT 7; none where it waits
(R75, R95 to R100). -/
def State.runWord (s : State) (b : BitVec 256) : Option State :=
  match decodeBundle b with
  | .error e => some ((s.takeException ⟨0x01, e.detail, 0⟩ 7 s.pc).afterBundle s.focus)
  | .ok l => s.issueTry (badSlots l) (goodSlots l)

/-! ## The focused core -/

/-- Core c has a bundle to run on a stream: a hub core that is awake, a compute core with a FIRING stage, a stream that has
not joined (R156, R163, R343). -/
def State.canRun (s : State) (c stream : Nat) : Bool :=
  let k := s.core c
  if isHub c then s.hubLive c && !k.hub.idle && stream == 0
  else
    s.clocked c && !k.halted &&
    match k.firing with
    | none => false
    | some t =>
      match (k.ctx t).split with
      | none => stream == 0
      | some b => decide (stream < 4) && !(sget Stream.reset b stream).joined

/-- The next bundle of the focused core: FWDOG where the watchdog has reached the limit (R161), or an interrupt that the hub
core takes at the boundary, comes first (R403). None where the core has nothing to run or its bundle waits. [DEDUCED, log 10] -/
def State.runFocus (s : State) : Option State :=
  if !s.canRun s.focus s.stream then none
  else firingWatchdog s.focus s <|>
    match (if s.hub then s.irqToTake s.focus else none) with
    | some n => some (s.takeIrq s.focus n)
    | none =>
      match s.fetch s.focus s.pc with
      | .error t => some ((s.takeException t 7 s.pc).afterBundle s.focus)
      | .ok b => s.runWord b

/-! ## What moves when no agenda names it (log 2) -/

/-- Cores that hold anything, and the hub cores. -/
def State.coreKeys (s : State) : List Nat := (s.cores.map (·.1)).filter (· < 288) ++ (List.range 8).map (512 + ·)

/-- The first event of a core that is enabled. -/
def State.coreEvent (s : State) (c : Nat) : Option State :=
  let k := s.core c
  let arr := List.range k.arr.length
  let eng := List.range k.eng.length
  (List.range 8).findSome? (fun t => discardRemoval c t s) <|>
  (List.range 8).findSome? (fun t => abortCe c t s) <|>
  firingWatchdog c s <|> haltedStageResumes c s <|> passThrough c s <|> firingGrant c s <|>
  arr.findSome? (fun i => batFill c i s) <|> arr.findSome? (fun i => mmaPass c i s) <|> arr.findSome? (fun i => accRead c i s) <|>
  eng.findSome? (fun i => engineComplete c i s) <|> eng.findSome? (fun i => drainSatisfied c i s) <|>
  eng.findSome? (fun i => replyTile c i s) <|>
  (List.range 16).findSome? (fun n => entryArrives c n none s) <|>
  (List.range 16).findSome? (fun n => freeSlotNotice c n 1 none s) <|>
  (List.range 8).findSome? (fun t => tokenPass c t s) <|> coreCommit c s <|>
  if isHub c then idleWake (c - 512) s else none

/-- The Kiln's next action, in the order of its queue. [DESIGN CHOICE, log 2] -/
def State.kilnEvent (s : State) : Option State :=
  match s.kiln.queue.head? with
  | some x => if x.isStep then kilnForm s else kilnRet s
  | none => none

/-- The first event inside the package that is enabled. [DESIGN CHOICE, log 2] -/
def State.ownEvent (s : State) : Option State :=
  s.coreKeys.findSome? s.coreEvent <|>
  s.kilnEvent <|> (List.range 8).findSome? (fun i => chargeDeliver (BitVec.ofNat 3 i) s) <|> abortSettle s <|>
  (s.wins.map (·.1)).findSome? (fun w => windowRevokeComplete w s) <|>
  (List.range 4).findSome? (fun q => quarterWake (BitVec.ofNat 2 q) s) <|>
  (List.range 4).findSome? (fun q => quarterIdle (BitVec.ofNat 2 q) s) <|>
  (List.range 4).findSome? (fun q => throttling (BitVec.ofNat 2 q) (!s.power.throt.getLsbD q) s) <|>
  telemetryRewrite s

/-- Every core and stream that could run, from the one after the focus on. -/
def State.runnable (s : State) : List (Nat × Nat) :=
  let all := s.coreKeys.flatMap fun c => ((List.range 4).filter fun i => s.canRun c i).map fun i => (c, i)
  let after := all.filter fun x => decide (4 * s.focus + s.stream < 4 * x.1 + x.2)
  after ++ all.filter fun x => decide (4 * x.1 + x.2 ≤ 4 * s.focus + s.stream)

def State.focusOn (s : State) (c stream : Nat) : State := { s with focus := c, stream := stream }

/-- The focus moves to the next core that could run. -/
def State.passFocus (s : State) : State :=
  match s.runnable with
  | x :: _ => s.focusOn x.1 x.2
  | [] => s

/-- A bundle of some other core that does not wait. -/
def State.runOther (s : State) : Option State := s.runnable.findSome? fun x => (s.focusOn x.1 x.2).runFocus

/-- A link in turn sends its next flit when nothing else moves. -/
def State.sendTurn (s : State) : Option State := flitSlot (s.ticks % 96) s

/-- The move of a step with an empty agenda: one in four is an event's and passes the focus on; else the focused core's bundle,
an event, another core's bundle, a flit; else time passes (log 2). [DESIGN CHOICE, log 2] -/
def State.autoMove (s : State) : State :=
  if s.ticks % 4 = 3 then (s.ownEvent.getD s).passFocus
  else (s.runFocus <|> s.ownEvent <|> s.runOther <|> s.sendTurn).getD s

/-! ## The passing of clk (R37, R161, R346, R435; log 3) -/

/-- The clk that this step takes. [DESIGN CHOICE, log 3] -/
def State.clk (s : State) : Nat := 1 + Config.freeClk s.ticks

/-- A core's watchdog count: a FIRING stage whose sequencer is not halted. [DEDUCED, log 10] -/
def Core.watched (k : Core) (clk : Nat) : Core :=
  match k.firing with
  | none => k
  | some t => if k.halted then k else k.modStage t fun x => { x with watch := x.watch + clk }

/-- CYCLES, the compare, the watchdogs, the arbiters' counts of stages that are not ready (R344) and the quiet counts move on.
[DESIGN CHOICE, log 3; DEDUCED, log 10] -/
def State.tick (s : State) : State :=
  let n := s.cycles + BitVec.ofNat 64 s.clk
  ({ s with
    cycles := n
    cmpHit := s.cmpHit || decide (s.cycCmp.toNat ≤ n.toNat)
    cores := s.cores.map fun e => (e.1, (e.2.watched s.clk).lapse (s.ready e.1))
    ticks := s.ticks + 1 } : State).countQuiet s.clk

/-! ## Placing one instruction where the next step fetches it (log 4) -/

/-- The bundle that the words of a table row make. [DESIGN CHOICE, log 7] -/
def tableBundle (nbits w : Nat) : BitVec 256 :=
  match (if nbits ≤ 64 then tableCode nbits w else none) with
  | some c => c.bundle
  | none => BitVec.ofNat 256 w

/-- The bundle holds an operation of compute cores only. -/
def computeOnly (b : BitVec 256) : Bool :=
  match decodeBundle b with
  | .ok l => (goodSlots l).any fun o => o.legal == .cmp
  | .error _ => false

/-- A stage that declares every register, mask, accumulator and bat, FIRING. [DESIGN CHOICE, log 4] -/
def Stage.probe : Stage :=
  { Stage.reset with state := .firing, vlo := 0, vhi := 255, masks := 0xFFFF, accs := 0xFFFF, bats := 3, nbun := 4096 }

/-- A core that can run on stream 0 is given the bundle at its pc. -/
def State.placeHub (s : State) (b : BitVec 256) : State :=
  match s.xlat s.focus .fetch (s.pc.setWidth 64) 32 32 with
  | .ok pa => s.store pa (bytesOf 32 b)
  | .error _ =>
    (s.setPc bootEntry).store (bootEntry.toNat % 2 ^ 36) (bytesOf 32 b)

/-- Compute core 0 with a FIRING stage 0 that declares everything and to which every flag is assigned, the bundle at index 0. -/
def State.placeCompute (s : State) (b : BitVec 256) : State :=
  (s.focusOn 0 0).modCore 0 fun k =>
    { (k.setStage 0 Stage.probe) with
      firing := some 0, pc := 0, istore := sset 0 k.istore 0 b
      cf := (List.range 64).foldl (fun m i => smod Flag.reset m i fun f => { f with owner := some 0 }) k.cf }

/-- The bundle stored where the focused core fetches next; an operation of compute cores only goes to compute core 0.
[DESIGN CHOICE, log 4] -/
def State.place (s : State) (b : BitVec 256) : State :=
  let s1 :=
    if computeOnly b && s.hub then s.placeCompute b
    else if s.hub then s.placeHub b
    else s.modMe fun k => { k with istore := sset 0 k.istore (s.pc.toNat / 32) b }
  { s1 with agenda := [.run s1.focus s1.stream] }

end Sys2Proof.Machine
end

