-- ==== Sys2Proof/Machine/Step.lean ====
section
/-! DEFINITION. One step of the machine: the head of the agenda if there is one, else the move that State.autoMove picks; then
the clk passes. -/

namespace Sys2Proof.Machine

/-- After an outcome the clk passes. -/
def Outcome.ticked : Host.Outcome State Fault Refusal → Host.Outcome State Fault Refusal
  | .next s => .next s.tick
  | .fault f => .fault f
  | .refused r => .refused r

/-- One step (R36, R95 to R100, R403; log 2): an agenda names an event, or a core and stream whose bundle runs; a package that
is OFF moves only by an event (R436). [DESIGN CHOICE, log 1; DESIGN CHOICE, log 2; DEDUCED, log 49] -/
def step (s : State) : Host.Outcome State Fault Refusal :=
  match s.agenda with
  | .event i :: rest =>
    let s1 : State := { s with agenda := rest }
    if isEvent i then Outcome.ticked (exec i s1) else .next s1.tick
  | .run c stream :: rest =>
    let s1 : State := { s with agenda := rest, focus := c, stream := stream }
    if s.power.off then .fault .poweredOff else .next (s1.runFocus.getD s1).tick
  | [] => if s.power.off then .fault .poweredOff else .next s.autoMove.tick

/-- The state with the instruction of a table row stored where the next step fetches. [DESIGN CHOICE, log 4] -/
def State.withFetchWord (s : State) (nbits w : Nat) : State := s.place (tableBundle nbits w)

end Sys2Proof.Machine
end

