-- ==== Sys2Proof/Safety.lean ====
section
/-! DEFINITION. What a safe run keeps, in the terms the claims use: the canonical forms of memory and of the core table, and the
alignment of the code addresses. -/

namespace Sys2Proof.Safety

open Sys2Proof.Machine

/-- Memory is in canonical form. -/
def memCanonical (s : State) : Prop := Memory.wf s.mem = true

/-- A code address is a multiple of 32. -/
def aligned (a : Addr) : Prop := a.toNat % 32 = 0

/-- What a step may end in: a next state unless the package is OFF. -/
def runs (s : State) : Prop := ∃ t, step s = .next t

end Sys2Proof.Safety
end

