-- ==== Sys2Proof/Certificates/Slice0/Obligations.lean ====
section
/-! DEFINITION. The statements for the provers: what the rules of spec/ say each instruction and each event of the machine
does. `Sys2Proof.Claims` holds the words the statements share. -/

open Sys2Proof Sys2Proof.Machine

namespace Sys2Proof.Claims

abbrev Answer := Host.Outcome State Fault Refusal

/-! ## How an instruction ends -/

/-- The bundle has made `t` from `s`; no transfer: a loop branch or the next bundle (R100, R150). -/
def goesOn (s t : State) : State := (t.retire s.pc .seq).afterBundle s.focus
def completes (s t : State) : Answer := .next (goesOn s t)

/-- The bundle has made `t` from `s` and control is at `a` (R150). -/
def jumps (s t : State) (a : Addr) : Answer := .next ((t.setPc a).afterBundle s.focus)

/-- The bundle has made `t` from `s`, which says itself where the code goes on. -/
def ends (s t : State) : Answer := .next (t.afterBundle s.focus)

/-- The bundle faults: nothing of it commits, the exception is taken with TRAP.PC at the bundle (R33, R97). -/
def faults (s : State) (i : TrapInfo) (slot : Slot) : Answer := .next ((s.takeException i slot.code s.pc).afterBundle s.focus)

/-- ILLOP, PRIV, SEGV, ALIGN and ECCU with a DETAIL and an effective address. -/
def illopT (d : Nat) : TrapInfo := ⟨0x01, d, 0⟩
def privT (l : Nat) : TrapInfo := ⟨0x02, l, 0⟩
def segvT (d a : Nat) : TrapInfo := ⟨0x03, d, a⟩
def alignT (a : Nat) : TrapInfo := ⟨0x04, 0, a⟩
def eccuT (a : Nat) : TrapInfo := ⟨0x05, 0, a⟩

/-- In split mode a bundle writes no g1..g15 (R44). -/
def bankOk (s : State) (d : GReg) : Prop := s.inSplit = true → d = 0 ∨ 16 ≤ d.toNat

/-- The bundle at the pc is followed by the next one: no loop level ends here, a compute core's code goes on, and no
dbg.ctl.step waits for this bundle (R146, R150). -/
def ordinary (s : State) : Prop :=
  (∀ j < 4, (s.loop j).len = 0 ∨ s.pc ≠ (s.loop j).start + 32 * ((s.loop j).len.setWidth 40 - 1)) ∧
  (s.hub = true ∨ s.pc.toNat ≠ 4095 * 32) ∧ s.me.stepOne = none

/-- In split mode the banks of the other streams stay, and of the stream's own bank only scalar registers, predicates and the place
in the code may differ (R44). -/
def banksKept (s t : State) : Prop :=
  t.inSplit = s.inSplit ∧ (∀ j, j ≠ s.stream → t.ctx.bank j = s.ctx.bank j) ∧
  let b := s.ctx.bank s.stream
  { t.ctx.bank s.stream with g := b.g, p := b.p, pc := b.pc, since := b.since } = b

/-- Outside the contexts and the pc of the running core nothing differs; of its own context only scalar registers, predicates and,
in split mode, those of the stream's own bank may (the frame of a scalar operation). -/
def scalarFrame (s t : State) : Prop :=
  { t with cores := s.cores } = s ∧ (∀ c, c ≠ s.focus → t.core c = s.core c) ∧
  { t.me with ctxs := s.me.ctxs, pc := s.me.pc } = s.me ∧ (∀ x, x ≠ s.stg → t.me.ctx x = s.me.ctx x) ∧
  { t.ctx with g := s.ctx.g, p := s.ctx.p, split := s.ctx.split } = s.ctx ∧ banksKept s t ∧
  (∀ a, t.byte a = s.byte a)

/-! ## Scalar results (spec/05) -/

/-- The n low bits of a word as a number. -/
def low (n : Nat) (x : Word) : Nat := x.toNat % 2 ^ n
/-- Shift amounts are six bits. -/
def amt (x : Word) : Nat := low 6 x
/-- How many of the bits `f 0`, `f 1`, ... come before the first that is set, among 64. -/
def run0 (f : Nat → Bool) : Nat := ((List.range 64).takeWhile fun i => !f i).length
/-- Bit i of a word is `f i`. -/
def bitsOf (f : Nat → Bool) : Word := packN 64 1 64 fun i => BitVec.ofBool (f i)
def widthOf : ExtW → Nat
  | .w8 => 8 | .w16 => 16 | .w32 => 32
/-- The pair a:b as one number, bits [63+n:n]. -/
def pairBits (a b : Word) (n : Nat) : Word := BitVec.ofNat 64 ((a.toNat * 2 ^ 64 + b.toNat) / 2 ^ n)

/-- The destination and the result of every operation that computes one g-register from registers and immediates
(R121 to R131, R141, R250), as integers and bits. -/
def intResult : Instr → Option (GReg × (State → Word))
  | .add d a b => some (d, fun s => BitVec.ofNat 64 ((s.g a).toNat + (s.g b).toNat))
  | .sub d a b => some (d, fun s => BitVec.ofInt 64 ((s.g a).toInt - (s.g b).toInt))
  | .and d a b => some (d, fun s => bitsOf fun i => (s.g a).getLsbD i && (s.g b).getLsbD i)
  | .or d a b => some (d, fun s => bitsOf fun i => (s.g a).getLsbD i || (s.g b).getLsbD i)
  | .xor d a b => some (d, fun s => bitsOf fun i => (s.g a).getLsbD i != (s.g b).getLsbD i)
  | .shl d a b => some (d, fun s => BitVec.ofNat 64 ((s.g a).toNat * 2 ^ amt (s.g b)))
  | .shr d a b => some (d, fun s => BitVec.ofNat 64 ((s.g a).toNat / 2 ^ amt (s.g b)))
  | .sar d a b => some (d, fun s => BitVec.ofInt 64 ((s.g a).toInt / (2 ^ amt (s.g b) : Nat)))
  | .rotl d a b => some (d, fun s => bitsOf fun i => (s.g a).getLsbD ((i + 64 - amt (s.g b)) % 64))
  | .slt d a b => some (d, fun s => if (s.g a).toInt < (s.g b).toInt then 1 else 0)
  | .sltn d a b => some (d, fun s => if (s.g a).toNat < (s.g b).toNat then 1 else 0)
  | .seq d a b => some (d, fun s => if s.g a = s.g b then 1 else 0)
  | .min d a b => some (d, fun s => if (s.g a).toInt ≤ (s.g b).toInt then s.g a else s.g b)
  | .max d a b => some (d, fun s => if (s.g a).toInt ≤ (s.g b).toInt then s.g b else s.g a)
  | .minn d a b => some (d, fun s => if (s.g a).toNat ≤ (s.g b).toNat then s.g a else s.g b)
  | .maxn d a b => some (d, fun s => if (s.g a).toNat ≤ (s.g b).toNat then s.g b else s.g a)
  | .mul d a b => some (d, fun s => BitVec.ofInt 64 ((s.g a).toInt * (s.g b).toInt))
  | .mulh d a b => some (d, fun s => BitVec.ofInt 64 ((s.g a).toInt * (s.g b).toInt / (2 ^ 64 : Nat)))
  | .mulhn d a b => some (d, fun s => BitVec.ofNat 64 ((s.g a).toNat * (s.g b).toNat / 2 ^ 64))
  | .div d a b => some (d, fun s => if s.g b = 0 then -1 else BitVec.ofInt 64 ((s.g a).toInt.tdiv (s.g b).toInt))
  | .divn d a b => some (d, fun s => if s.g b = 0 then -1 else BitVec.ofNat 64 ((s.g a).toNat / (s.g b).toNat))
  | .rem d a b => some (d, fun s => if s.g b = 0 then s.g a else BitVec.ofInt 64 ((s.g a).toInt.tmod (s.g b).toInt))
  | .remn d a b => some (d, fun s => if s.g b = 0 then s.g a else BitVec.ofNat 64 ((s.g a).toNat % (s.g b).toNat))
  | .clz d a => some (d, fun s => BitVec.ofNat 64 (run0 fun i => (s.g a).getLsbD (63 - i)))
  | .ctz d a => some (d, fun s => BitVec.ofNat 64 (run0 fun i => (s.g a).getLsbD i))
  | .popc d a => some (d, fun s => BitVec.ofNat 64 ((List.range 64).countP fun i => (s.g a).getLsbD i))
  | .bswap d a => some (d, fun s => bitsOf fun i => (s.g a).getLsbD (8 * (7 - i / 8) + i % 8))
  | .sxt d a w => some (d, fun s => BitVec.ofInt 64 (BitVec.ofNat (widthOf w) (s.g a).toNat).toInt)
  | .zxt d a w => some (d, fun s => BitVec.ofNat 64 (low (widthOf w) (s.g a)))
  | .fshl d a b => some (d, fun s => pairBits (s.g a) (s.g b) (64 - amt (s.g d)))
  | .fshr d a b => some (d, fun s => pairBits (s.g a) (s.g b) (amt (s.g d)))
  | .bext d a pos len1 => some (d, fun s => BitVec.ofNat 64 ((s.g a).toNat / 2 ^ pos.toNat % 2 ^ (len1.toNat + 1)))
  | .bins d a pos len1 => some (d, fun s => bitsOf fun i =>
      if pos.toNat ≤ i ∧ i < pos.toNat + len1.toNat + 1 then (s.g a).getLsbD (i - pos.toNat) else (s.g d).getLsbD i)
  | .addi d a imm => some (d, fun s => BitVec.ofInt 64 ((s.g a).toInt + imm.toInt))
  | .andi d a imm => some (d, fun s => bitsOf fun i => (s.g a).getLsbD i && imm.getLsbD i)
  | .ori d a imm => some (d, fun s => bitsOf fun i => (s.g a).getLsbD i || imm.getLsbD i)
  | .xori d a imm => some (d, fun s => bitsOf fun i => (s.g a).getLsbD i != imm.getLsbD i)
  | .shli d a n => some (d, fun s => BitVec.ofNat 64 ((s.g a).toNat * 2 ^ n.toNat))
  | .shri d a n => some (d, fun s => BitVec.ofNat 64 ((s.g a).toNat / 2 ^ n.toNat))
  | .sari d a n => some (d, fun s => BitVec.ofInt 64 ((s.g a).toInt / (2 ^ n.toNat : Nat)))
  | .rotli d a n => some (d, fun s => bitsOf fun i => (s.g a).getLsbD ((i + 64 - n.toNat) % 64))
  | .lih d a imm => some (d, fun s => BitVec.ofNat 64 (imm.toNat * 2 ^ 48 + low 48 (s.g a)))
  | .limm d imm => some (d, fun _ => BitVec.ofInt 64 imm.toInt)
  | .pget d => some (d, fun s => bitsOf fun i => decide (i < 8) && s.p (BitVec.ofNat 3 i))
  | .sel d a b q => some (d, fun s => if s.p q then s.g a else s.g b)
  | .lda k d a imm => some (d, fun s => BitVec.ofInt 64 ((s.g a).toInt + imm.toInt * (2 ^ k.toNat : Nat)))
  | .mov d a => some (d, fun s => s.g a)
  | _ => none

/-- The condition of cmp on integers. -/
def cmpTrue (cc : CmpCc) (a b : Word) : Bool :=
  match cc with
  | .eq => decide (a = b)
  | .ne => decide (a ≠ b)
  | .lt => decide (a.toInt < b.toInt)
  | .ltn => decide (a.toNat < b.toNat)
  | .le => decide (a.toInt ≤ b.toInt)
  | .len => decide (a.toNat ≤ b.toNat)

/-- The predicate written and its value (R130, R131, R136, R250). -/
def predResult : Instr → Option (PReg × (State → Bool))
  | .cmp cc pd a b => some (pd, fun s => cmpTrue cc (s.g a) (s.g b))
  | .pand pd a b => some (pd, fun s => s.p a && s.p b)
  | .por pd a b => some (pd, fun s => s.p a || s.p b)
  | .pxor pd a b => some (pd, fun s => s.p a != s.p b)
  | .pnot pd a => some (pd, fun s => !s.p a)
  | .fcmp cc pd a b => some (pd, fun s => fcmpHolds cc (f32Of (s.g a)) (f32Of (s.g b)))
  | .movp pd a neg => some (pd, fun s => s.p a != neg)
  | _ => none

/-- The binary32 code of a value rounded once in a mode, zero-extended (R59, R132). -/
def rounded (s : State) (r : Rnd) (x : Rnd → Machine.Num) : Word := BitVec.ofNat 64 (Fmt.b32.round (s.rnd r) (x (s.rnd r))).1

/-- The destination and the result of the scalar floating-point operations (R132 to R135). -/
def floatResult : Instr → Option (GReg × (State → Word))
  | .fadd d a b r => some (d, fun s => rounded s r fun m => (f32Of (s.g a)).add m (f32Of (s.g b)))
  | .fsub d a b r => some (d, fun s => rounded s r fun m => (f32Of (s.g a)).add m (f32Of (s.g b)).neg)
  | .fmul d a b r => some (d, fun s => rounded s r fun _ => (f32Of (s.g a)).mul (f32Of (s.g b)))
  | .fdiv d a b r => some (d, fun s => rounded s r fun _ => (f32Of (s.g a)).div (f32Of (s.g b)))
  | .fsqrt d a r => some (d, fun s => rounded s r fun _ => (f32Of (s.g a)).sqrt)
  | .fmin d a b => some (d, fun s => rounded s .rne fun _ => Machine.Num.min (f32Of (s.g a)) (f32Of (s.g b)))
  | .fmax d a b => some (d, fun s => rounded s .rne fun _ => Machine.Num.max (f32Of (s.g a)) (f32Of (s.g b)))
  | .fclass d a => some (d, fun s => BitVec.ofNat 64 (2 ^ fclassBit (f32Of (s.g a))))
  | .ffma d a b c r => some (d, fun s => rounded s r fun m => Machine.Num.fma m (f32Of (s.g a)) (f32Of (s.g b)) (f32Of (s.g c)))
  | _ => none

/-- The destination of the other operations that write one g-register: conversions, loads and atomics, reads of system registers,
flags, ports and engine results. -/
def otherDest : Instr → Option GReg
  | .fcvt _ d _ _ | .ld _ d _ _ | .amo _ _ d _ _ => some d
  | .sysr _ d _ | .coreSatRead _ d | .cfWaitAny _ d _ | .cfWaitAll _ d _ | .cfFfr _ d _ | .cfStat _ _ d => some d
  | .qpop d .. | .qpeek d .. | .qhead d .. | .qfree d _ | .qavail d _ | .qstat d _ | .epop d .. => some d
  | _ => none

/-- Those of them that may wait, a hub core's load of halted state among them (R334), and those that write p7 (R80). -/
def mayWait (i : Instr) (s : State) : Bool :=
  match i with
  | .ld .. => s.hub
  | .coreSatRead .. | .cfWaitAny .. | .cfWaitAll .. => true
  | .qpop _ _ stall _ | .qpeek _ _ stall _ _ | .qhead _ _ stall _ | .epop _ _ stall => stall
  | _ => false
def writesP7 : Instr → Bool
  | .qpop _ _ stall _ | .qpeek _ _ stall _ _ | .qhead _ _ stall _ | .epop _ _ stall => !stall
  | _ => false

/-- What else than a g-register those operations may change: an atomic its bytes of memory, a load outside memory the CFG.STATUS that
it clears and the power state of the quarter that it wakes, a wait the flags of its core, a pop its port and what its credit goes back
to, a result read its queue, a conversion CORE.SAT; nothing more. -/
def otherFrame (i : Instr) (s t : State) : Prop :=
  let amo := match i with | .amo .. => true | _ => false
  let load := match i with | .ld .. => true | _ => false
  let wait := match i with | .cfWaitAny .. | .cfWaitAll .. => true | _ => false
  let pop := match i with | .qpop .. => true | _ => false
  let res := match i with | .epop .. => true | _ => false
  let cvt := match i with | .fcvt .. => true | _ => false
  { t with
    cores := s.cores, mem := if amo then s.mem else t.mem, eccBad := if amo then s.eccBad else t.eccBad
    eccSeen := if amo then s.eccSeen else t.eccSeen, power := if load then s.power else t.power
    circs := if pop then s.circs else t.circs, kiln := if pop then s.kiln else t.kiln } = s ∧
  (∀ c, c ≠ s.focus → { t.core c with
    oq := if pop then (s.core c).oq else (t.core c).oq
    cfgRefused := if load then (s.core c).cfgRefused else (t.core c).cfgRefused } = s.core c) ∧
  { t.me with
    ctxs := s.me.ctxs, pc := s.me.pc, cf := if wait then s.me.cf else t.me.cf, iq := if pop then s.me.iq else t.me.iq
    oq := if pop then s.me.oq else t.me.oq, rq := if res then s.me.rq else t.me.rq
    cfgRefused := if load then s.me.cfgRefused else t.me.cfgRefused } = s.me ∧
  (∀ x, x ≠ s.stg → t.me.ctx x = s.me.ctx x) ∧
  { t.ctx with g := s.ctx.g, p := s.ctx.p, split := s.ctx.split, sat := if cvt then s.ctx.sat else t.ctx.sat } = s.ctx ∧
  banksKept s t ∧ (amo = false → ∀ a, t.byte a = s.byte a)

/-- k is the exact value v rounded to an integer in mode r (R59, Table 2.6). -/
def roundsTo (r : Rnd) (v : Rat) (k : Int) : Prop :=
  let half : Rat := 1 / 2
  match r with
  | .rtz => if 0 ≤ v then (k : Rat) ≤ v ∧ v < k + 1 else v ≤ k ∧ (k : Rat) - 1 < v
  | .rdn => (k : Rat) ≤ v ∧ v < k + 1
  | .rup => v ≤ k ∧ (k : Rat) - 1 < v
  | .rto => (k : Rat) = v ∨ (k % 2 = 1 ∧ v - 1 < k ∧ (k : Rat) < v + 1)
  | .rna => v - half ≤ k ∧ (k : Rat) ≤ v + half ∧ ((k : Rat) = v - half → v < 0) ∧ ((k : Rat) = v + half → 0 < v)
  | .rne | .dyn => v - half ≤ k ∧ (k : Rat) ≤ v + half ∧ ((k : Rat) = v - half ∨ (k : Rat) = v + half → k % 2 = 0)

/-- Table 2.2: a format, its fraction bits, the exponent of its least subnormal, its largest finite magnitude, whether it has
infinities, and its width. -/
def fmtRows : List (Fmt × Nat × Int × Rat × Bool × Nat) :=
  [(.b32, 23, -149, (2 - pow2 (-23)) * pow2 127, true, 32), (.b16, 10, -24, 65504, true, 16),
   (.bf, 7, -133, (2 - pow2 (-7)) * pow2 127, true, 16), (.e4m3, 3, -9, 448, false, 8), (.e5m2, 2, -16, 57344, true, 8),
   (.e2m1, 1, -1, 6, false, 4), (.b128, 112, -16494, (2 - pow2 (-112)) * pow2 16383, true, 128)]

/-- n and n + 1 units of 2^u are the neighbours between which a magnitude lies, with f fraction bits and a least spacing of 2^lo, as if
the exponent had no upper bound (R60). -/
def between (f : Nat) (lo : Int) (x : Rat) (n : Nat) (u : Int) : Prop :=
  n < 2 ^ (f + 1) ∧ lo ≤ u ∧ (u = lo ∨ 2 ^ f ≤ n) ∧ (n : Rat) * pow2 u ≤ x ∧ x < ((n + 1 : Nat) : Rat) * pow2 u

/-- The neighbour that the mode takes for a magnitude and its sign, or the magnitude itself where it is one (Table 2.6); n counts the
units of the lower one, so its least significant bit is that of its significand. -/
def chosen (r : Rnd) (neg : Bool) (x : Rat) (n : Nat) (u : Int) : Rat :=
  let a : Rat := (n : Rat) * pow2 u
  let b : Rat := ((n + 1 : Nat) : Rat) * pow2 u
  if x = a then a
  else match r with
    | .rtz => a
    | .rdn => if neg then b else a
    | .rup => if neg then a else b
    | .rto => if n % 2 = 1 then a else b
    | .rna => if x - a < b - x then a else b
    | .rne | .dyn => if x - a < b - x ∨ (x - a = b - x ∧ n % 2 = 0) then a else b

/-- y is the neighbour of a magnitude x in a format. -/
def roundsInto (f : Nat) (lo : Int) (r : Rnd) (neg : Bool) (x y : Rat) : Prop := ∃ n u, between f lo x n u ∧ y = chosen r neg x n u

/-- An overflow gives an infinity in this mode, for a value of this sign (Table 2.7). -/
def overInf (r : Rnd) (neg : Bool) : Bool :=
  match r with
  | .rne | .rna | .dyn => true
  | .rtz | .rto => false
  | .rdn => neg
  | .rup => !neg

/-- The range of the integer that a conversion gives (Table 5.6). -/
def intTarget : FcvtOp → Option (Int × Int)
  | .i32f32 => some (-2 ^ 31, 2 ^ 31 - 1)
  | .n32f32 => some (0, 2 ^ 32 - 1)
  | .i64f32 => some (-2 ^ 63, 2 ^ 63 - 1)
  | _ => none

/-- The format that a conversion gives, and the exact value of its source (Table 5.6). -/
def floatTarget (op : FcvtOp) (x : Word) : Option (Fmt × Machine.Num) :=
  match op with
  | .f32i32 => some (.b32, .ofInt (x.setWidth 32).toInt)
  | .f32n32 => some (.b32, .ofInt (x.setWidth 32).toNat)
  | .f32i64 => some (.b32, .ofInt x.toInt)
  | .f16f32 => some (.b16, f32Of x)
  | .bf16f32 => some (.bf, f32Of x)
  | .f32f16 => some (.b32, Fmt.b16.value (low 16 x))
  | .f32bf16 => some (.b32, Fmt.bf.value (low 16 x))
  | _ => none

/-! ## Local memory -/

/-- An address whose byte a memory access reaches with no device behind it. -/
def reaches (s : State) (a : Access) (sum : Word) (n pa : Nat) : Prop :=
  s.tr a sum n n = .ok pa ∧ (rangeOf pa).isMem = true

/-- n bytes at an address that meet no entry of the logbook, which software does not reach (R394, log 57). -/
def offLogbook (pa n : Nat) : Prop := pa + n ≤ 0x870000000 ∨ 0x870008000 ≤ pa

/-- n bytes from an address as a number, the lowest address least significant. -/
def value (s : State) (pa : Nat) : Nat → Nat
  | 0 => 0
  | n + 1 => value s pa n + 256 ^ n * (s.byte (pa + n)).toNat

/-- A loaded value, extended by its width code (R139). -/
def extended : LdW → Nat → Word
  | .i8, x => BitVec.ofInt 64 (BitVec.ofNat 8 x).toInt
  | .i16, x => BitVec.ofInt 64 (BitVec.ofNat 16 x).toInt
  | .i32, x => BitVec.ofInt 64 (BitVec.ofNat 32 x).toInt
  | .n8, x | .n16, x | .n32, x | .d64, x => BitVec.ofNat 64 x

/-- What an atomic operation leaves in memory, on n-byte numbers; none when a compare fails (R142). -/
def amoLeaves (op : AmoOp) (bits old x c : Nat) : Option Nat :=
  let sgn (v : Nat) : Int := (BitVec.ofNat bits v).toInt
  match op with
  | .add => some ((old + x) % 2 ^ bits)
  | .and => some (old &&& x)
  | .or => some (old ||| x)
  | .xor => some (old ^^^ x)
  | .min => some (if sgn old < sgn x then old else x)
  | .max => some (if sgn old < sgn x then x else old)
  | .minn => some (if old < x then old else x)
  | .maxn => some (if old < x then x else old)
  | .swap => some x
  | .cas => if old = c then some x else none

end Sys2Proof.Claims

namespace Sys2Proof.Claims

/-! ## Control (spec/06) -/

/-- The first byte address beyond the code space (R145, R146). -/
def codeEnd (s : State) : Nat := if s.hub then 2 ^ 40 else 4096 * 32

/-- A target outside the code space: SEGV 0x01 on a hub core, ILLOP 0x0B on a compute core (R146). -/
def badTarget (s : State) (low40 : Nat) : TrapInfo := if s.hub then segvT 1 low40 else illopT 0x0B

/-- Where a displacement leads. -/
def dispTo (s : State) (disp : BitVec 22) : Int := s.pc.toNat + 32 * disp.toInt

/-- Level j's last bundle is the one at `pc`. -/
def endsAt (s : State) (j : Nat) (pc : Addr) : Prop :=
  (s.loop j).len ≠ 0 ∧ pc = (s.loop j).start + 32 * ((s.loop j).len.setWidth 40 - 1)

/-- A hub core at level U may not run an operation of level S, nor one below M an operation of level M (R85). -/
def privOk (s : State) (level : Nat) : Prop := s.hub = true → level ≤ s.me.hub.priv.code

/-- Guard of the guarded operations (R79): the C slot's, and pg of the X slot. -/
def guardOf : Instr → Option Guard
  | .br g _ | .brr g _ | .call g _ | .callr g _ | .ret g | .loop g _ _ | .halt g | .trap g _ | .brk g _ => some g
  | .eret g | .idle g | .fireEnd g | .fireNext g | .split g _ | .join g | .barGrp g => some g
  | .cfArmReg g _ _ | .cfArmImm g _ _ | .cfWaitAny g _ _ | .cfWaitAll g _ _ | .cfFfr g _ _ | .cfStat g _ _ => some g
  | .sysr g _ _ | .sysw g _ _ | .cfErrWrite g _ | .coreRmodeWrite g _ | .coreSatRead g _ => some g
  | .loopCntWrite g _ _ | .loopStartWrite g _ _ | .cycCmpWrite g _ | .hubStatusWrite g _ => some g
  | .mbatLd pg .. | .mbatSel pg .. | .mma pg .. | .macClr pg .. | .macRd pg .. | .macRdq pg .. | .mrows pg .. => some ⟨pg, false⟩
  | .mscale pg .. | .mstat pg .. | .mwait pg .. => some ⟨pg, false⟩
  | .dxCopy pg .. | .dxPat pg .. | .dxGat pg .. | .dxSct pg .. | .dxStream pg .. | .dxDrain pg => some ⟨pg, false⟩
  | .rst pg .. | .rld pg .. | .rldIq pg .. | .ramo pg .. | .rcfAdd pg .. | .cfAdd pg .. => some ⟨pg, false⟩
  | .fenceCore pg | .fencePkg pg | .fenceDom pg | .fenceF pg .. => some ⟨pg, false⟩
  | .kilnAdmit pg .. | .kilnStep pg .. | .kilnRet pg .. | .kilnRd pg .. | .kilnCancel pg .. | .kilnEvict pg .. => some ⟨pg, false⟩
  | .kilnAbort pg .. | .cfgLoad pg .. | .cfgCommit pg .. | .cfgAbort pg .. | .cfgTok pg .. | .segSet pg .. => some ⟨pg, false⟩
  | .winSet pg .. | .winRevoke pg .. | .circBind pg .. | .circBindRel pg .. | .eventPop pg .. | .logRd pg .. => some ⟨pg, false⟩
  | .dbgCtlHalt pg .. | .dbgCtlHaltq pg .. | .dbgCtlRun pg .. | .dbgCtlStep pg .. | .dbgCtlResume pg .. => some ⟨pg, false⟩
  | .dbgCtlSkip pg .. | .dbgCtlAbort pg .. => some ⟨pg, false⟩
  | _ => none

/-- The bundle has no decode fault of its own: its kind of core, its mode, its register number. -/
def decodes (i : Instr) (s : State) : Prop := ∀ sl o, slotOp sl i = some o → o.decodeFault s = none

/-- The table of R157 at a declared port of the firing that runs: in a data firing (REASON 0 in FIRE.DESC) as many tiles as the rate,
in a marker firing no more, and the cursor at beat 0. -/
def dataFiring (s : State) : Prop := s.ctx.fireDesc.toNat / 16 % 16 = 0
def inputDone (s : State) (p : Nat) : Prop :=
  let q := s.iq s.focus p
  (dataFiring s → q.popped = s.stage.rateIn p) ∧ q.popped ≤ s.stage.rateIn p ∧ q.beat = 0 ∧ q.word = 0
def outputDone (s : State) (p : Nat) : Prop :=
  let q := s.oq s.focus p
  (dataFiring s → q.pushed = s.stage.rateOut p) ∧ q.pushed ≤ s.stage.rateOut p ∧ q.cur = none

/-! ## Exceptions (spec/01 R35, spec/18) -/

/-- TRAP.CAUSE: the cause in [7:0], the slot from bit 24, DETAIL in [63:32] (Table 1.10). -/
def causeBits (cause slot detail : Nat) : Word := BitVec.ofNat 64 (detail % 2 ^ 32 * 2 ^ 32 + slot * 2 ^ 24 + cause)

/-! ## System registers (Table 1.4) -/

/-- What number n reads as, for the registers that every core has. -/
def commonReg (s : State) (n : Nat) : Option Word :=
  [(0x000, s.coreId s.focus), (0x001, s.me.ctxWord), (0x002, s.ctx.rmode.setWidth 64), (0x008, s.cycles),
   (0x010, s.ctx.fireDesc), (0x011, s.ctx.fireLimit.setWidth 64), (0x012, s.ctx.fireCnt.setWidth 64),
   (0x014, s.me.readyWord), (0x015, s.me.errWord), (0x016, s.me.busyWord),
   (0x018, loopCntWord (s.loop 0)), (0x019, loopCntWord (s.loop 1)), (0x01A, loopCntWord (s.loop 2)),
   (0x01B, loopCntWord (s.loop 3)), (0x01C, (s.loop 0).start.setWidth 64), (0x01D, (s.loop 1).start.setWidth 64),
   (0x01E, (s.loop 2).start.setWidth 64), (0x01F, (s.loop 3).start.setWidth 64)].lookup n

/-- What number n reads as on a hub core at a level that may read it: the bank of the level at 0x020, that of S at 0x028. -/
def hubOnlyReg (s : State) (n : Nat) : Option Word :=
  let b := s.me.hub.bank s.me.hub.priv
  let m := s.me.hub.bankS
  [(0x020, b.cause), (0x021, b.pc.setWidth 64), (0x022, (b.vec &&& ~~~0xFFF#40).setWidth 64), (0x023, statusWord b.pie b.ppriv),
   (0x028, m.cause), (0x029, m.pc.setWidth 64), (0x02A, (m.vec &&& ~~~0xFFF#40).setWidth 64), (0x02B, statusWord m.pie m.ppriv),
   (0x030, statusWord s.me.hub.ie s.me.hub.priv), (0x031, s.me.hub.irqEn.setWidth 64), (0x032, s.irqPend.setWidth 64),
   (0x033, s.cycCmp)].lookup n

/-- The level that Table 1.4 asks of a read. -/
def levelOf (n : Nat) : Nat := if n < 0x020 ∨ 0x040 ≤ n then 0 else if 0x028 ≤ n ∧ n < 0x030 then 3 else 1

/-- The numbers that Table 1.4 gives a hub core alone, and those that it gives any core. -/
def hubNumber (n : Nat) : Prop := n = 0x022 ∨ n = 0x023 ∨ (0x028 ≤ n ∧ n ≤ 0x02B) ∨ (0x030 ≤ n ∧ n ≤ 0x033)
def anyNumber (n : Nat) : Prop :=
  n ≤ 3 ∨ n = 8 ∨ (0x010 ≤ n ∧ n ≤ 0x012) ∨ (0x014 ≤ n ∧ n ≤ 0x016) ∨ (0x018 ≤ n ∧ n ≤ 0x021) ∨ (0x040 ≤ n ∧ n ≤ 0x04F)

/-- The numbers that no sysw writes on any core: read-only in Table 1.4. -/
def fixedNumber (n : Nat) : Prop :=
  n = 0x000 ∨ n = 0x008 ∨ (0x010 ≤ n ∧ n ≤ 0x012) ∨ n = 0x014 ∨ n = 0x016 ∨ (0x040 ≤ n ∧ n ≤ 0x04F)

/-- Nothing is stored under g0 and p0, and a loop level without passes left is inactive. -/
def quietZero (g : Store Word) (p : Store Bool) (loops : Store Loop) : Prop :=
  sget 0 g 0 = 0 ∧ sget false p 0 = false ∧ ∀ j, (sget Loop.reset loops j).count = 0 → (sget Loop.reset loops j).len = 0

/-- That of every context of every core, and of every bank of a split. -/
def Hardwired (s : State) : Prop :=
  ∀ c t, let x := (s.core c).ctx t
    quietZero x.g x.p x.loops ∧ ∀ i, quietZero (x.bank i).g (x.bank i).p (x.bank i).loops

/-- A stage that is FIRING is the one that its core runs. -/
def OneFiring (s : State) : Prop := ∀ c t, ((s.core c).stage t).state = .firing → (s.core c).firing = some t

/-- The bank that a write of one trap register leaves (Tables 1.10, 1.12). -/
def bankWritten (b : TrapBank) (k : Nat) (v : Word) : TrapBank :=
  match k with
  | 0 => { b with cause := v &&& 0xFFFFFFFFFF0000FF#64 }
  | 1 => { b with pc := v.extractLsb' 0 40 }
  | 2 => { b with vec := v.extractLsb' 12 28 ++ 0#12 }
  | _ => { b with pie := v.getLsbD 2, ppriv := if v.extractLsb' 0 2 = 0 then .u else if v.extractLsb' 0 2 = 1 then .s else .m }

end Sys2Proof.Claims

namespace Sys2Proof.Claims

/-! ## Queue ports (spec/10) -/

/-- A form with its stall bit clear clears p7 when it acts (R80). -/
def ready7 (stall : Bool) (t : State) : State := if stall then t else t.setP 7 false

/-- Port iq n may be named: in split mode only the stream's own; assigned to the stage, declared, bound (R239). -/
def iqNamed (s : State) (n : Nat) : Prop :=
  (s.inSplit = true → n = 12 + s.stream) ∧ (s.iq s.focus n).owner = some s.stg ∧ s.stage.rateIn n ≠ 0 ∧
  (s.iq s.focus n).bind ≠ .unbound
def oqNamed (s : State) (n : Nat) : Prop :=
  (s.inSplit = true → n = 12 + s.stream) ∧ (s.oq s.focus n).owner = some s.stg ∧ s.stage.rateOut n ≠ 0 ∧
  (s.oq s.focus n).bind ≠ .unbound

/-- A tile stands at the head of iq n. -/
def anyTileAt (s : State) (n : Nat) (e : Entry) : Prop := (s.iq s.focus n).q.head? = some e ∧ e.kind = .tile

/-- A tile without reserved head values stands at the head of iq n. -/
def tileAt (s : State) (n : Nat) (e : Entry) : Prop :=
  (s.iq s.focus n).q.head? = some e ∧ e.kind = .tile ∧ badHead e.head = false
def markerAtHead (s : State) (n : Nat) (e : Entry) : Prop := (s.iq s.focus n).q.head? = some e ∧ e.kind = .marker

/-- A tile may be taken further: begun already, or one more is within the rate (R238); beginning one counts it. -/
def mayTake (s : State) (n : Nat) : Prop := (s.iq s.focus n).beat = 0 → (s.iq s.focus n).popped < s.stage.rateIn n
def begun (s : State) (n : Nat) : State := if (s.iq s.focus n).beat = 0 then s.countPop s.focus n else s

/-- The beat that a pop reads next, and the one after the tile's last (R243). -/
def popBeat (s : State) (n : Nat) (e : Entry) : Nat :=
  if (s.iq s.focus n).beat = 0 then 1 + hScb e.head else (s.iq s.focus n).beat
def popNext (s : State) (n : Nat) (e : Entry) : Nat :=
  if (s.iq s.focus n).word = 7 then popBeat s n e + 1 else popBeat s n e

/-- The forms that read or remove the head of an iq: port, stall bit, and whether a marker is refused. -/
def readsIq : Instr → Option (Nat × Bool × Bool)
  | .qpop _ iq stall _ => some (iq.toNat, stall, true)
  | .qpeek _ iq stall _ _ => some (iq.toNat, stall, true)
  | .qhead _ iq stall _ => some (iq.toNat, stall, false)
  | .qskip iq stall => some (iq.toNat, stall, false)
  | _ => none

/-- The forms that push to an oq: port and stall bit. -/
def pushesOq : Instr → Option (Nat × Bool)
  | .qpush _ oq stall _ => some (oq.toNat, stall)
  | .qmark _ oq stall _ => some (oq.toNat, stall)
  | _ => none

/-- The g-register that a queue form writes, if any. -/
def queueDest : Instr → GReg
  | .qpop d _ _ _ | .qpeek d _ _ _ _ | .qhead d _ _ _ => d
  | _ => 0

/-- An open tile of scalar words with room, or none open and a credit to open one within the rate (R236, R238, R244). -/
def mayPush (s : State) (n : Nat) : Prop :=
  match (s.oq s.focus n).cur with
  | some t => t.byV = false ∧ t.words.length < 256 ∧ (s.oq s.focus n).failed = false
  | none => (s.oq s.focus n).failed = false ∧ (s.oq s.focus n).credits ≠ 0 ∧ (s.oq s.focus n).pushed < s.stage.rateOut n

/-- The port with its tile open: opening takes one credit and counts a push. -/
def opened (s : State) (n : Nat) (byV : Bool) (head : Beat) : State :=
  match (s.oq s.focus n).cur with
  | some _ => s
  | none => (s.takeCredit s.focus n).modOq s.focus n fun x =>
      { x with cur := some { byV := byV, head := head, words := [] }, pushed := x.pushed + 1 }

/-- The head that a scalar or vector push gives its tile: FMT, ROWB 128, the stage's charge (Table 10.1). -/
def pushHead (s : State) (fmt : Nat) : Beat :=
  BitVec.ofNat 512 (fmt * 2 ^ 4 + 128 * 2 ^ 16 + s.ctx.charge.toNat * 2 ^ 32)

/-- Words added to the open tile. -/
def added (s : State) (n : Nat) (ws : List Word) : State :=
  s.modOq s.focus n fun x => { x with cur := x.cur.map fun t => { t with words := t.words ++ ws } }

/-! ## The charge boundary (R43, Table 1.13) -/

/-- The working state of stage t at a charge boundary: g1..g31 but those declared .keep, predicates and index registers are 0, the loop
levels inactive, CORE.RMODE and CORE.SAT 0; of the vector registers, masks, accumulator tiles, poison masks and bats those in the
declaration are 0, and the active bat is bat0 where the stage declares one; FIRE.LIMIT and FIRE.CNT are kept. -/
def boundaryValues (k u : Core) (t : Nat) : Prop :=
  let st := k.stage t
  let x := k.ctx t
  let y := u.ctx t
  (∀ r, 0 < r → r < 32 → sget 0 y.g r = if 24 ≤ r ∧ st.keep.getLsbD (r - 24) = true then sget 0 x.g r else 0) ∧
  (∀ i, sget false y.p i = false) ∧ (∀ i, sget 0 y.k i = 0) ∧ (∀ j, (sget Loop.reset y.loops j).len = 0) ∧
  y.rmode = 0 ∧ y.sat = false ∧ y.fireLimit = x.fireLimit ∧ y.fireCnt = x.fireCnt ∧
  (∀ c < 4, ∀ r < 256, sget 0 u.v (vkey c r) = if st.hasV r then 0 else sget 0 k.v (vkey c r)) ∧
  (∀ c < 4, ∀ j < 16, sget 0 u.m (16 * c + j) = if st.masks.getLsbD j then 0 else sget 0 k.m (16 * c + j)) ∧
  (∀ a, ∀ i < 1536, sget 0 u.acc (1536 * a + i) = if st.hasAcc a then 0 else sget 0 k.acc (1536 * a + i)) ∧
  (∀ a, sget 0 u.poison a = if st.hasAcc a then 0 else sget 0 k.poison a) ∧
  (∀ b, sget Bat.reset u.bats b = if st.hasBat b then Bat.reset else sget Bat.reset k.bats b) ∧
  u.activeBat = (if st.bats ≠ 0 then false else k.activeBat)

/-- Without a charge boundary all of that stays; FIRE.DESC alone is written. -/
def workingKept (k u : Core) (t : Nat) : Prop :=
  { u.ctx t with fireDesc := (k.ctx t).fireDesc } = k.ctx t ∧ u.v = k.v ∧ u.m = k.m ∧ u.acc = k.acc ∧ u.poison = k.poison ∧
  u.bats = k.bats ∧ u.activeBat = k.activeBat

/-! ## Vector operations (spec/07, spec/08) -/

/-- A V-slot operation is legal here: a compute core, executing clusters, no accumulator read on its way to v-registers, and
its mask and every register of its fields, in every executing cluster, declared by the stage (R17, R40, R81, R92, R95). -/
def vReady (s : State) (h : VHead) (fields : List (BitVec 8)) : Prop :=
  s.hub = false ∧ (s.inSplit = true ∨ h.cl ≠ 0) ∧ (s.inSplit = true → s.stream < 4) ∧ s.me.vBusy = false ∧
  s.stage.hasMask h.m.toNat = true ∧
  ∀ c ∈ s.clusters h.cl, ∀ f ∈ fields, s.vnum h.ind c f ≤ 255 ∧ s.stage.hasV (s.vnum h.ind c f) = true

/-- The register that a field names in cluster c. -/
def vr (s : State) (h : VHead) (c : Nat) (f : BitVec 8) : VReg := s.v c (s.vnum h.ind c f)

/-- Lane l of cluster c takes a new value. -/
def active (s : State) (h : VHead) (c l : Nat) : Bool := (s.mask c h.m.toNat).getLsbD l

/-- Nothing but v-registers and CORE.SAT of the running core's stage differs. -/
def vectorFrame (s t : State) : Prop :=
  { t with cores := s.cores } = s ∧ (∀ c, c ≠ s.focus → t.core c = s.core c) ∧
  { t.me with v := s.me.v, ctxs := s.me.ctxs } = s.me ∧ (∀ x, x ≠ s.stg → t.me.ctx x = s.me.ctx x) ∧
  { t.ctx with sat := s.ctx.sat } = s.ctx

/-- `t` is `s` but for register vd of the executing clusters: the lanes that `on` selects hold `new`, the others what they held. -/
def lanesWritten (s t : State) (h : VHead) (vd : BitVec 8) (on : Nat → Nat → Bool) (new : Nat → Nat → Lane) : Prop :=
  vectorFrame s t ∧
  (∀ c ∈ s.clusters h.cl, ∀ l < 128,
    lane (t.v c (s.vnum h.ind c vd)) l = if on c l then new c l else lane (vr s h c vd) l) ∧
  ∀ c < 4, ∀ r < 256, (c ∉ s.clusters h.cl ∨ r ≠ s.vnum h.ind c vd) → t.v c r = s.v c r

/-- An element-wise operation: the width of its elements, its fields, the result of one element from those of its sources
(zero-extended, the low bits of the result count), and when an element saturates. -/
structure ElemRow where
  h    : VHead
  w    : Nat
  vd   : BitVec 8
  srcs : List (BitVec 8)
  f    : State → List Lane → Lane
  sat  : List Lane → Bool

def never : List Lane → Bool := fun _ => false
def x0 (xs : List Lane) : Lane := xs.getD 0 0
def x1 (xs : List Lane) : Lane := xs.getD 1 0
def x2 (xs : List Lane) : Lane := xs.getD 2 0

/-- One rounding in the instruction's mode into type t. -/
def fpElem (t : Ty) (r : Rnd) (f : Rnd → List Machine.Num → Machine.Num) (s : State) (xs : List Lane) : Lane :=
  (tyRound t (s.rnd r) (f (s.rnd r) (xs.map (tyValue t)))).1
def n0 (xs : List Machine.Num) : Machine.Num := xs.getD 0 .nan
def n1 (xs : List Machine.Num) : Machine.Num := xs.getD 1 .nan
def n2 (xs : List Machine.Num) : Machine.Num := xs.getD 2 .nan

/-- The sign bit of an element of type t replaced, a NaN becoming the canonical one (R178). -/
def signElem (t : Ty) (b : Bool → Bool) (x : Lane) : Lane :=
  if (tyValue t x).isNan then (tyRound t .rne .nan).1
  else BitVec.ofNat 32 (x.toNat % 2 ^ (t.width - 1) + if b (x.getLsbD (t.width - 1)) then 2 ^ (t.width - 1) else 0)

def inRange (t : Ty) (i : Int) : Bool := decide (tyMin t ≤ i) && decide (i ≤ tyMax t)
def nearest (t : Ty) (i : Int) : Int := if i < tyMin t then tyMin t else if tyMax t < i then tyMax t else i
def iv (t : Ty) (x : Lane) : Int := intValue t x

/-- The element-wise operations of spec/07 (R176 to R185). -/
def elemRow : Instr → Option ElemRow
  | .vadd h t r vd va vb => some ⟨h, t.width, vd, [va, vb], fpElem t r fun m x => (n0 x).add m (n1 x), never⟩
  | .vsub h t r vd va vb => some ⟨h, t.width, vd, [va, vb], fpElem t r fun m x => (n0 x).add m (n1 x).neg, never⟩
  | .vmul h t r vd va vb => some ⟨h, t.width, vd, [va, vb], fpElem t r fun _ x => (n0 x).mul (n1 x), never⟩
  | .vdiv h t r vd va vb => some ⟨h, t.width, vd, [va, vb], fpElem t r fun _ x => (n0 x).div (n1 x), never⟩
  | .vfma h t r vd va vb vc => some ⟨h, t.width, vd, [va, vb, vc], fpElem t r fun m x => Machine.Num.fma m (n0 x) (n1 x) (n2 x), never⟩
  | .vfms h t r vd va vb vc => some ⟨h, t.width, vd, [va, vb, vc], fpElem t r fun m x => Machine.Num.fma m (n0 x) (n1 x) (n2 x).neg, never⟩
  | .vfnma h t r vd va vb vc => some ⟨h, t.width, vd, [va, vb, vc], fpElem t r fun m x => Machine.Num.fma m (n0 x).neg (n1 x) (n2 x), never⟩
  | .vmin h t vd va vb => some ⟨h, t.width, vd, [va, vb], fpElem t .rne fun _ x => Machine.Num.min (n0 x) (n1 x), never⟩
  | .vmax h t vd va vb => some ⟨h, t.width, vd, [va, vb], fpElem t .rne fun _ x => Machine.Num.max (n0 x) (n1 x), never⟩
  | .vabs h t vd va => some ⟨h, t.width, vd, [va], fun _ x => signElem t (fun _ => false) (x0 x), never⟩
  | .vneg h t vd va => some ⟨h, t.width, vd, [va], fun _ x => signElem t (fun b => !b) (x0 x), never⟩
  | .vcopysign h t vd va vb =>
    some ⟨h, t.width, vd, [va, vb], fun _ x => signElem t (fun _ => (x1 x).getLsbD (t.width - 1)) (x0 x), never⟩
  | .vsqrt h t r vd va => some ⟨h, t.width, vd, [va], fpElem t r fun _ x => (n0 x).sqrt, never⟩
  | .vrcp h t r vd va => some ⟨h, t.width, vd, [va], fpElem t r fun _ x => (n0 x).rcp, never⟩
  | .vrsq h t r vd va => some ⟨h, t.width, vd, [va], fpElem t r fun _ x => (n0 x).rsq, never⟩
  | .vexp2 h t r vd va =>
    some ⟨h, t.width, vd, [va], fun s x => BitVec.ofNat 32 (roundElem (tyFmt t) (s.rnd r) .exp2 (tyValue t (x0 x))), never⟩
  | .vlog2 h t r vd va =>
    some ⟨h, t.width, vd, [va], fun s x => BitVec.ofNat 32 (roundElem (tyFmt t) (s.rnd r) .log2 (tyValue t (x0 x))), never⟩
  | .vsin h t r vd va =>
    some ⟨h, t.width, vd, [va], fun s x => BitVec.ofNat 32 (roundElem (tyFmt t) (s.rnd r) .sin (tyValue t (x0 x))), never⟩
  | .vcos h t r vd va =>
    some ⟨h, t.width, vd, [va], fun s x => BitVec.ofNat 32 (roundElem (tyFmt t) (s.rnd r) .cos (tyValue t (x0 x))), never⟩
  | .vtanh h t r vd va =>
    some ⟨h, t.width, vd, [va], fun s x => BitVec.ofNat 32 (roundElem (tyFmt t) (s.rnd r) .tanh (tyValue t (x0 x))), never⟩
  | .viadd h t sat vd va vb => some ⟨h, t.width, vd, [va, vb],
      fun _ x => BitVec.ofInt 32 (if sat then nearest t (iv t (x0 x) + iv t (x1 x)) else iv t (x0 x) + iv t (x1 x)),
      fun x => sat && !inRange t (iv t (x0 x) + iv t (x1 x))⟩
  | .visub h t sat vd va vb => some ⟨h, t.width, vd, [va, vb],
      fun _ x => BitVec.ofInt 32 (if sat then nearest t (iv t (x0 x) - iv t (x1 x)) else iv t (x0 x) - iv t (x1 x)),
      fun x => sat && !inRange t (iv t (x0 x) - iv t (x1 x))⟩
  | .vimul h t vd va vb => some ⟨h, t.width, vd, [va, vb], fun _ x => BitVec.ofInt 32 (iv t (x0 x) * iv t (x1 x)), never⟩
  | .vimulh h t vd va vb =>
    some ⟨h, t.width, vd, [va, vb], fun _ x => BitVec.ofInt 32 (iv t (x0 x) * iv t (x1 x) / (2 ^ t.width : Nat)), never⟩
  | .vimin h t vd va vb => some ⟨h, t.width, vd, [va, vb], fun _ x => if iv t (x0 x) ≤ iv t (x1 x) then x0 x else x1 x, never⟩
  | .vimax h t vd va vb => some ⟨h, t.width, vd, [va, vb], fun _ x => if iv t (x0 x) ≤ iv t (x1 x) then x1 x else x0 x, never⟩
  | .vand h t vd va vb => some ⟨h, t.width, vd, [va, vb], fun _ x => x0 x &&& x1 x, never⟩
  | .vor h t vd va vb => some ⟨h, t.width, vd, [va, vb], fun _ x => x0 x ||| x1 x, never⟩
  | .vxor h t vd va vb => some ⟨h, t.width, vd, [va, vb], fun _ x => x0 x ^^^ x1 x, never⟩
  | .vnot h t vd va => some ⟨h, t.width, vd, [va], fun _ x => ~~~x0 x, never⟩
  | .vshlImm h t vd va n => some ⟨h, t.width, vd, [va], fun _ x => BitVec.ofNat 32 ((x0 x).toNat * 2 ^ n.toNat), never⟩
  | .vshlVb h t vd va vb =>
    some ⟨h, t.width, vd, [va, vb], fun _ x => BitVec.ofNat 32 ((x0 x).toNat * 2 ^ ((x1 x).toNat % t.width)), never⟩
  | .vshrImm h t vd va n => some ⟨h, t.width, vd, [va], fun _ x => BitVec.ofNat 32 ((x0 x).toNat / 2 ^ n.toNat), never⟩
  | .vshrVb h t vd va vb =>
    some ⟨h, t.width, vd, [va, vb], fun _ x => BitVec.ofNat 32 ((x0 x).toNat / 2 ^ ((x1 x).toNat % t.width)), never⟩
  | .vsarImm h t vd va n =>
    some ⟨h, t.width, vd, [va], fun _ x => BitVec.ofInt 32 (((x0 x).setWidth t.width).toInt / (2 ^ n.toNat : Nat)), never⟩
  | .vsarVb h t vd va vb => some ⟨h, t.width, vd, [va, vb],
      fun _ x => BitVec.ofInt 32 (((x0 x).setWidth t.width).toInt / (2 ^ ((x1 x).toNat % t.width) : Nat)), never⟩
  | .vbext h t vd va pos len1 => some ⟨h, t.width, vd, [va],
      fun _ x => if t.signed then BitVec.ofInt 32 (BitVec.ofNat (len1.toNat + 1) ((x0 x).toNat / 2 ^ pos.toNat)).toInt
        else BitVec.ofNat 32 ((x0 x).toNat / 2 ^ pos.toNat % 2 ^ (len1.toNat + 1)), never⟩
  | .vfsh h t vd va vb n => some ⟨h, t.width, vd, [va, vb],
      fun _ x => BitVec.ofNat 32 (((x0 x).toNat * 2 ^ t.width + (x1 x).toNat) / 2 ^ n.toNat), never⟩
  | .vpopc h t vd va =>
    some ⟨h, t.width, vd, [va], fun _ x => BitVec.ofNat 32 ((List.range t.width).countP fun i => (x0 x).getLsbD i), never⟩
  | .vclz h t vd va => some ⟨h, t.width, vd, [va], fun _ x =>
      BitVec.ofNat 32 ((List.range t.width).takeWhile fun i => !(x0 x).getLsbD (t.width - 1 - i)).length, never⟩
  | .vsatn h t u vd va =>
    some ⟨h, t.width, vd, [va], fun _ x => BitVec.ofInt 32 (nearest u (iv t (x0 x))), fun x => !inRange u (iv t (x0 x))⟩
  | _ => none

/-- The elements of the accessed lanes, ascending E (R195). -/
def inputsOf (s : State) (h : VHead) (t : Ty) (va : BitVec 8) : List Lane :=
  (s.accessed h).flatMap fun x => (List.range (32 / t.width)).map fun e => laneElem t.width e (lane (vr s h x.1 va) x.2)
/-- How many accessed lanes come before a lane. -/
def rankOf (s : State) (h : VHead) (c l : Nat) : Nat :=
  (s.accessed h).countP fun x => decide (s.position x.1 x.2 < s.position c l)

/-- An operation that computes whole lanes of vd: its fields besides vd, further conditions, whether every lane is written
whatever the mask says, each new lane, and whether CORE.SAT is set. -/
structure LaneRow where
  h    : VHead
  vd   : BitVec 8
  srcs : List (BitVec 8)
  ok   : State → Prop
  all  : Bool
  new  : State → Nat → Nat → Lane
  sat  : State → Bool

def always : State → Prop := fun _ => True
def noneSat : State → Bool := fun _ => false
/-- Some active lane of an executing cluster satisfies a condition. -/
def someLane (s : State) (h : VHead) (f : Nat → Nat → Bool) : Bool :=
  (s.clusters h.cl).any fun c => (List.range 128).any fun l => active s h c l && f c l

/-- Lane i of vA followed by vB (Table 8.3). -/
def zipped (a b : VReg) (i : Nat) : Lane := if i < 128 then lane a i else lane b (i - 128)

/-- Conversions, packing, block scales, permutes, selects, register reads by index, reductions and scans (R187 to R194, R200 to
R208), lane by lane. -/
def laneRow : Instr → Option LaneRow
  | .vcvt h t u r vd va => some ⟨h, vd, [va], always, false,
      fun s c l => slots u.width t.width (fun x => (cvtElem t u (s.rnd r) x).1) (lane (vr s h c va) l),
      fun s => someLane s h fun c l => anySlot u.width t.width (fun x => (cvtElem t u (s.rnd r) x).2) (lane (vr s h c va) l)⟩
  | .vpack h t vd va vb => some ⟨h, vd, [va, vb], always, false,
      fun s c l => packElems t.width fun j => if j < 16 / t.width then laneElem t.width (2 * j) (lane (vr s h c va) l)
        else laneElem t.width (2 * (j - 16 / t.width)) (lane (vr s h c vb) l), noneSat⟩
  | .vunpack h t hi vd va => some ⟨h, vd, [va], always, false,
      fun s c l => packElems (2 * t.width) fun j =>
        let x := laneElem t.width ((if hi then 16 / t.width else 0) + j) (lane (vr s h c va) l)
        if t.signed then BitVec.ofInt 32 (x.setWidth t.width).toInt else x, noneSat⟩
  | .vscale h t q vd va => some ⟨h, vd, [va], always, false,
      fun s c l => ((blockScale q (blockValues t (s.mask c h.m.toNat) (vr s h c va) (l / t.width))).1).setWidth 32,
      fun s => (s.clusters h.cl).any fun c => (List.range (128 / t.width)).any fun b =>
        (blockScale q (blockValues t (s.mask c h.m.toNat) (vr s h c va) b)).2⟩
  | .vquant h t q r vd va vb => some ⟨h, vd, [va, vb], always, false,
      fun s c l => slots t.width q.width
        (fun x => (quantElem q (s.rnd r) (laneScale (lane (vr s h c vb) l)) (tyValue t x)).1) (lane (vr s h c va) l),
      fun s => someLane s h fun c l => anySlot t.width q.width
        (fun x => (quantElem q (s.rnd r) (laneScale (lane (vr s h c vb) l)) (tyValue t x)).2) (lane (vr s h c va) l)⟩
  | .vdeq h t q r vd va vb => some ⟨h, vd, [va, vb], always, false,
      fun s c l => slots q.width t.width (deqElem t q (s.rnd r) (laneScale (lane (vr s h c vb) l))) (lane (vr s h c va) l), noneSat⟩
  | .vsel h vd va vb mc => some ⟨h, vd, [va, vb], fun s => s.stage.hasMask mc.toNat = true, false,
      fun s c l => if (s.mask c mc.toNat).getLsbD l then lane (vr s h c va) l else lane (vr s h c vb) l, noneSat⟩
  | .vperm h vd va vb => some ⟨h, vd, [va, vb], always, false,
      fun s c l => lane (vr s h c va) ((lane (vr s h c vb) l).toNat % 128), noneSat⟩
  | .vshuf h p vd va vb => some ⟨h, vd, if p.oneSource then [va] else [va, vb], always, false,
      fun s c l => match p with
        | .zlo => if l % 2 = 0 then lane (vr s h c va) (l / 2) else lane (vr s h c vb) (l / 2)
        | .zhi => if l % 2 = 0 then lane (vr s h c va) (64 + l / 2) else lane (vr s h c vb) (64 + l / 2)
        | .uev => zipped (vr s h c va) (vr s h c vb) (2 * l)
        | .uod => zipped (vr s h c va) (vr s h c vb) (2 * l + 1)
        | .rev => lane (vr s h c va) (127 - l)
        | .swp => lane (vr s h c va) (if l % 2 = 0 then l + 1 else l - 1), noneSat⟩
  | .vrotl h vd va n => some ⟨h, vd, [va], always, false, fun s c l => lane (vr s h c va) ((l + (128 - n.toNat)) % 128), noneSat⟩
  | .vxcl h vd va gb => some ⟨h, vd, [va], fun s => s.inSplit = false, false,
      fun s c l => lane (s.v ((s.g gb).toNat / 4 ^ c % 4) (s.vnum h.ind c va)) l, noneSat⟩
  | .vmovs h vd gb => some ⟨h, vd, [], always, false, fun s _ _ => BitVec.ofNat 32 (s.g gb).toNat, noneSat⟩
  | .vbcast h vd va gb => some ⟨h, vd, [va], always, false, fun s c _ =>
      lane (s.v (if s.inSplit then c else (s.g gb).toNat / 128 % 4) (s.vnum h.ind c va)) ((s.g gb).toNat % 128), noneSat⟩
  | .vzero h vd => some ⟨h, vd, [], always, false, fun _ _ _ => 0, noneSat⟩
  | .viota h vd => some ⟨h, vd, [], always, false, fun s c l => BitVec.ofNat 32 (rankOf s h c l), noneSat⟩
  | .vred h op t r vd va => some ⟨h, vd, [va], always, true,
      fun s _ _ => packElems t.width fun _ => redAll op t (s.rnd r) (inputsOf s h t va), noneSat⟩
  | .vargmax h t vd va => some ⟨h, vd, [va], always, true, fun s _ _ => argmax t
      ((s.accessed h).flatMap fun x => (List.range (32 / t.width)).map fun e =>
        (s.position x.1 x.2 * (32 / t.width) + e, laneElem t.width e (lane (vr s h x.1 va) x.2))), noneSat⟩
  | .vscan h op t r vd va => some ⟨h, vd, [va], always, false, fun s c l => packElems t.width fun e =>
      redAll op.red t (s.rnd r) ((inputsOf s h t va).take (32 / t.width * rankOf s h c l + e + 1)), noneSat⟩
  | .vrget h vd va vb => some ⟨h, vd, [va, vb],
      fun s => ∀ c ∈ s.clusters h.cl, ∀ l < 128, active s h c l = true →
        s.vnum h.ind c va + (lane (vr s h c vb) l).toNat / 128 ≤ 255 ∧
        s.stage.hasV (s.vnum h.ind c va + (lane (vr s h c vb) l).toNat / 128) = true,
      false, fun s c l => lane (s.v c (s.vnum h.ind c va + (lane (vr s h c vb) l).toNat / 128))
        ((lane (vr s h c vb) l).toNat % 128), noneSat⟩
  | _ => none

/-- A mask operation: its clusters, the masks it names, its result for a cluster. -/
structure MaskRow where
  cl    : BitVec 4
  md    : BitVec 4
  masks : List (BitVec 4)
  new   : State → Nat → Mask

def maskRow : Instr → Option MaskRow
  | .mand cl md a b => some ⟨cl, md, [a, b], fun s c => s.mask c a.toNat &&& s.mask c b.toNat⟩
  | .mor cl md a b => some ⟨cl, md, [a, b], fun s c => s.mask c a.toNat ||| s.mask c b.toNat⟩
  | .mxor cl md a b => some ⟨cl, md, [a, b], fun s c => s.mask c a.toNat ^^^ s.mask c b.toNat⟩
  | .mnot cl md a => some ⟨cl, md, [a], fun s c => ~~~s.mask c a.toNat⟩
  | .mpopc cl md a => some ⟨cl, md, [a], fun s c =>
      BitVec.ofNat 128 (2 ^ ((List.range 128).countP fun i => (s.mask c a.toNat).getLsbD i) - 1)⟩
  | .mfirst cl md a => some ⟨cl, md, [a], fun s c =>
      match (List.range 128).find? fun i => (s.mask c a.toNat).getLsbD i with
      | some i => BitVec.ofNat 128 (2 ^ i)
      | none => 0⟩
  | .mset cl md code => some ⟨cl, md, [], fun _ _ =>
      if code.toNat ≤ 128 then BitVec.ofNat 128 (2 ^ code.toNat - 1)
      else packN 128 1 128 fun l => BitVec.ofBool (decide (l % 2 = code.toNat - 129))⟩
  | _ => none

/-- `t` is `s` but for mask md of the clusters in the list; a write to m0 changes nothing. -/
def maskWritten (s t : State) (cs : List Nat) (md : Nat) (new : Nat → Mask) : Prop :=
  { t with cores := s.cores } = s ∧ (∀ c, c ≠ s.focus → t.core c = s.core c) ∧ { t.me with m := s.me.m } = s.me ∧
  (∀ c ∈ cs, md ≠ 0 → t.mask c md = new c) ∧
  ∀ c < 4, ∀ j < 16, (c ∉ cs ∨ j ≠ md ∨ md = 0) → t.mask c j = s.mask c j

/-- The lane loads and stores: where the bytes of a lane lie (R199). -/
structure AddrRow where
  h     : VHead
  vd    : BitVec 8
  srcs  : List (BitVec 8)
  store : Bool
  base  : State → Prop
  addr  : State → Nat → Nat → Word

def rowAligned (ga : GReg) (off : BitVec 8) (s : State) : Prop := (s.g ga + BitVec.ofInt 64 (128 * off.toInt)).toNat % 128 = 0
def rowAt (ga : GReg) (off : BitVec 8) (s : State) (c l : Nat) : Word :=
  s.g ga + BitVec.ofInt 64 (128 * off.toInt) + BitVec.ofNat 64 (4 * s.position c l)

def addrRow : Instr → Option AddrRow
  | .vld h vd ga off => some ⟨h, vd, [], false, rowAligned ga off, rowAt ga off⟩
  | .vst h vd ga off => some ⟨h, vd, [], true, rowAligned ga off, rowAt ga off⟩
  | .vlds h vd ga gb => some ⟨h, vd, [], false, always, fun s c l => s.g ga + BitVec.ofNat 64 (s.position c l * (s.g gb).toNat)⟩
  | .vsts h vd ga gb => some ⟨h, vd, [], true, always, fun s c l => s.g ga + BitVec.ofNat 64 (s.position c l * (s.g gb).toNat)⟩
  | .vgather h vd ga vb => some ⟨h, vd, [vb], false, always, fun s c l => s.g ga + BitVec.ofNat 64 (lane (vr s h c vb) l).toNat⟩
  | .vscatter h vd ga vb => some ⟨h, vd, [vb], true, always, fun s c l => s.g ga + BitVec.ofNat 64 (lane (vr s h c vb) l).toNat⟩
  | .vldb h vd ga => some ⟨h, vd, [], false, always, fun s _ _ => s.g ga⟩
  | _ => none

/-- The sixteen rows of a tile in registers: rows 4j..4j+3 in cluster j's vd in VLIW mode, in the stream's registers vd + j in
split mode (R213). -/
def tileReg (s : State) (h : VHead) (vd : BitVec 8) (j : Nat) : Nat × Nat :=
  if s.inSplit then (s.stream, s.vnum h.ind s.stream vd + j) else (j, s.vnum h.ind j vd)
def tileReady (s : State) (h : VHead) (vd : BitVec 8) : Prop :=
  s.hub = false ∧ (s.inSplit = false → h.cl = 15) ∧ (s.inSplit = true → s.stream < 4) ∧ s.me.vBusy = false ∧
  ∀ j < 4, (tileReg s h vd j).2 ≤ 255 ∧ s.stage.hasV (tileReg s h vd j).2 = true

end Sys2Proof.Claims

namespace Sys2Proof.Claims

/-! ## The matrix array (spec/09) -/

/-- An X-slot operation acts: its guard holds and the core is not in split mode (R79, R92). -/
def xReady (s : State) (pg : PReg) : Prop := s.p pg = true ∧ s.inSplit = false

/-- An operation stands last in the array. -/
def entersArray (o : ArrOp) (k : Core) : Core := { k with arr := k.arr ++ [o] }

/-- No bank group of a list belongs to an active stream (R225); g is the lowest of it that does. -/
def groupsFree (active : List (List Nat)) (groups : List Nat) : Prop := ∀ l ∈ active, ∀ g ∈ groups, g ∉ l
def groupTaken (active : List (List Nat)) (groups : List Nat) (g : Nat) : Prop :=
  g ∈ groups ∧ (∃ l ∈ active, g ∈ l) ∧ ∀ h ∈ groups, h < g → ∀ l ∈ active, h ∉ l
/-- BGCONF at a bank group: the group in DETAIL [3:0], the slice from bit 4 on (Table 18.1). -/
def bgconfT (g : Nat) : TrapInfo := ⟨0x06, g % 8 + 16 * (g / 8), 0⟩

/-- Bytes in registers vn.. that the stage declares, rows of 128 bytes (Table 9.4). -/
def declared (s : State) (n bytes : Nat) : Prop := ∀ i < (bytes + 2047) / 2048, n + i ≤ 255 ∧ s.stage.hasV (n + i) = true

/-- An operand read at issue: how many bytes, where byte i lies, and which byte is delivered for a place in memory (R216, R224). -/
structure Operand where
  len : Nat
  at_ : Nat → Nat
  val : Nat → Byte

/-- A slice operand at an address; the next extent of a stream, of which a beat overwritten since the dx.stream comes old or new as
a whole (R261, R322, the choice between them is free: log 8). -/
def sliceOf (s : State) (pa len : Nat) : Operand := { len := len, at_ := fun i => pa + i, val := s.byte }
def streamOf (s : State) (p : StreamPort) (len : Nat) : Operand :=
  { len := len, at_ := fun i => p.addr (p.len - p.left + i)
    val := fun a => if Config.freeOld s.ticks (a / 64) then sget 0 p.old a else s.byte a }

/-- The operand meets an uncorrectable error in the 64-byte beat of its byte i: some byte of it there lies in a bad word (R223, R306);
and anywhere. -/
def badBeat (s : State) (o : Operand) (i : Nat) : Bool :=
  (List.range o.len).any fun j => decide (o.at_ j / 64 = o.at_ i / 64) && s.badIn (o.at_ j) 1
def badWord (s : State) (o : Operand) : Bool := (List.range o.len).any fun i => s.badIn (o.at_ i) 1
/-- Row i of an A operand, 128 bytes, zero in a beat with an uncorrectable error; the poison of its first m rows (R223). -/
def operandRow (s : State) (o : Operand) (i : Nat) : BitVec 1024 :=
  packN 1024 8 128 fun k => if badBeat s o (128 * i + k) then 0 else o.val (o.at_ (128 * i + k))
def operandPoison (s : State) (o : Operand) (m : Nat) : BitVec 16 :=
  packN 16 1 16 fun i => BitVec.ofBool (decide (i < m) && (List.range 128).any fun k => badBeat s o (128 * i + k))
/-- The bytes of a fill: those of a beat with an uncorrectable error are free, the model's choice (R220, log 56). -/
def fillBytes (s : State) (o : Operand) : List Byte :=
  (List.range o.len).map fun i => if badBeat s o i then Config.freeFill s.ticks i else o.val (o.at_ i)
/-- Byte b of the wide registers from vn on: byte b % 128 of row b / 128 (R15). -/
def wideByte (s : State) (n b : Nat) : Byte := elem 8 (b % 512) (s.v (b / 512 % 4) (n + b / 2048))

/-- A stream port that can give n bytes (R216, R262). -/
def streamGives (s : State) (n len : Nat) : Prop :=
  (s.me.port n).isOpen = true ∧ len ≤ (s.me.port n).left ∧ s.me.streamHeld (s.me.port n) = false

/-- The address of slice operand j (R216). -/
def sliceAt (s : State) (a : Access) (j : BitVec 4) (len pa : Nat) : Prop :=
  s.tr a (s.g (BitVec.ofNat 5 (16 + j.toNat))) 64 len = .ok pa

/-- A pass may issue: its tile and bat are declared, no fill of the bat is under way, its bat is whole and of the type named,
and the types pair (R222, R223, Table 2.10). -/
def passReady (s : State) (ac : BitVec 4) (bat : Bool) (ta tb : Ty) : Prop :=
  s.stage.hasAcc ac.toNat = true ∧ s.stage.hasBat bat.toNat = true ∧ s.me.batIdle bat.toNat = true ∧
  (pairClass ta).isSome = true ∧ pairClass ta = pairClass tb ∧ (s.me.bat bat.toNat).fmt = tb.code ∧
  (s.me.bat bat.toNat).werr = false ∧ (s.me.bat bat.toNat).serr = false

/-- The pass in the array; its bat is the active one. -/
def passes (s t : State) (bat : Bool) (o : ArrOp) : Answer :=
  completes s (t.modMe fun k => { (entersArray o k) with activeBat := bat })

/-- An accumulator read: guard, tile, destination, rows, type, rounding, whether it quantises, whether it scales, and whether its
form is one that R227 and R228 allow. -/
structure ReadRow where
  pg    : PReg
  ac    : BitVec 4
  dst   : DSel
  m     : Nat
  t     : Ty
  r     : Rnd
  quant : Bool
  sc    : Bool
  ok    : Prop

def readRow : Instr → Option ReadRow
  | .macRd pg ac dst rows t r => some ⟨pg, ac, dst, rows.toNat, t, r, false, false, True⟩
  | .macRdq pg ac dst rows q r sc => some ⟨pg, ac, dst, rows.toNat, q, r, true, sc,
      q.isQuant = true ∧ (sc = true → (∃ n, dst = .oq n) ∧ (q = .f4 → rows.toNat ≤ 10))⟩
  | _ => none

/-- Bytes of an output row: 96 elements (R229). -/
def outRow (t : Ty) : Nat := 12 * t.width

/-- The array operation of an accumulator read. -/
def readOp (s : State) (row : ReadRow) (dst : AccDst) : ArrOp :=
  .read row.ac.toNat dst row.m row.t (s.rnd row.r).code row.quant row.sc s.stg s.ctx.charge

/-- Accumulator entry (i, n) of tile t on core c, and poison bit i. -/
def accAt (s : State) (c t i n : Nat) : F128 := sget 0 (s.core c).acc (1536 * t + 96 * i + n)
def poisonOf (s : State) (c t i : Nat) : Bool := (sget 0 (s.core c).poison t).getLsbD i

/-- The exact sum of products (R67, R69): NaN where one is, or where two infinities are of opposite signs; an infinity where one is. -/
def sumsTo (l : List Machine.Num) (S : Machine.Num) : Prop :=
  if .nan ∈ l ∨ (.inf false ∈ l ∧ .inf true ∈ l) then S = .nan
  else if .inf false ∈ l then S = .inf false
  else if .inf true ∈ l then S = .inf true
  else ∃ neg q, S = .fin neg q ∧ signed neg q = (l.map fun x => match x with | .fin g v => signed g v | _ => 0).sum

/-- The value of an SC12 scale (Table 2.4). -/
def scaleMag (x : BitVec 12) : Rat := if x.toNat / 16 = 0 then 0 else ((16 + x.toNat % 16 : Nat) : Rat) * pow2 ((x.toNat / 16 : Nat) - 131)
def scaleNum (x : BitVec 12) : Machine.Num := if x = 0xFFF then .nan else .fin false (scaleMag x)

/-- The products of the contribution x to an entry: a block of 32, or, for bf16, one (R67). -/
def blockProducts (ta tb : Ty) (row col : BitVec 1024) (x : Nat) : List Machine.Num :=
  let n := if ta = .bf16 then 1 else 32
  (List.range n).map fun k => (tyValue ta ((elem ta.width (n * x + k) row).setWidth 32)).mul
    (tyValue tb ((elem tb.width (n * x + k) col).setWidth 32))
/-- How many contributions a pass makes to an entry. -/
def blockCount (ta : Ty) : Nat := if ta = .bf16 then 64 else if ta = .f4 then 8 else 4

/-- The largest magnitude of a quantised type, and its codes of either sign (R192, R193; -127 into i8, log 27). -/
def qmaxOf : Ty → Rat
  | .f8e4 => 448 | .f8e5 => 57344 | .f4 => 6 | .i8 => 127 | _ => 255
def qmaxCode (q : Ty) (neg : Bool) : Nat :=
  match q with
  | .f8e4 => if neg then 0xFE else 0x7E
  | .f8e5 => if neg then 0xFB else 0x7B
  | .f4 => if neg then 0xF else 7
  | .i8 => if neg then 0x81 else 127
  | _ => if neg then 0 else 255

/-- y is what x over a scale quantises to, and `sat` whether CORE.SAT becomes 1 (R61, R63, R64, R193). -/
def quantises (q : Ty) (r : Rnd) (sc : BitVec 12) (x : Machine.Num) (y : Nat) (sat : Bool) : Prop :=
  if x = .nan ∨ sc = 0xFFF then
    y = (if q = .f8e4 then 0x7F else if q = .f8e5 then 0x7E else 0) ∧ sat = decide (q ≠ .f8e4 ∧ q ≠ .f8e5)
  else if scaleMag sc = 0 then y = 0 ∧ sat = false
  else match x with
    | .nan => True
    | .inf neg => y = qmaxCode q neg ∧ sat = true
    | .fin neg v =>
      let z := v / scaleMag sc
      if q.isInt = true then
        ∃ k : Int, roundsTo r (if neg then -z else z) k ∧
          if k < (if q = .i8 then -127 else 0) then y = qmaxCode q true ∧ sat = true
          else if qmaxOf q < k then y = qmaxCode q false ∧ sat = true
          else (y : Int) = k % 256 ∧ sat = false
      else ∀ f lo, (q = .f8e4 → f = 3 ∧ lo = -9) → (q = .f8e5 → f = 2 ∧ lo = -16) → (q = .f4 → f = 1 ∧ lo = -1) →
        if z = 0 then (tyFmt q).value y = .fin neg 0 ∧ y < 2 ^ q.width ∧ sat = false
        else ∃ w, roundsInto f lo r neg z w ∧
          if qmaxOf q < w then y = qmaxCode q neg ∧ sat = true
          else (tyFmt q).value y = .fin neg w ∧ y < 2 ^ q.width ∧ sat = false

/-- The scale of a block and whether CORE.SAT becomes 1: the least that the largest magnitude over qmax does not exceed (R228). -/
def scales (q : Ty) (l : List Machine.Num) (s : BitVec 12) (sat : Bool) : Prop :=
  if .nan ∈ l then s = 0xFFF ∧ sat = true
  else if .inf false ∈ l ∨ .inf true ∈ l then s = 0xFFE ∧ sat = true
  else ∃ a : Rat, (∀ neg v, .fin neg v ∈ l → v ≤ a) ∧ (∃ neg, .fin neg a ∈ l) ∧
    if scaleMag 0xFFE < a / qmaxOf q then s = 0xFFE ∧ sat = true
    else sat = false ∧ s ≠ 0xFFF ∧ (s = 0 ∨ 16 ≤ s.toNat) ∧ a / qmaxOf q ≤ scaleMag s ∧
      ∀ x : BitVec 12, x ≠ 0xFFF → a / qmaxOf q ≤ scaleMag x → scaleMag s ≤ scaleMag x

/-- The core but for its accumulators. -/
def butAcc (k q : Core) : Prop := { k with acc := q.acc, poison := q.poison } = q

/-- The byte of a weight image that bank byte j comes from: column j / 128, byte j % 128 of the column (Table 9.3). -/
def weightByte (form : BatForm) (j : Nat) : Nat :=
  match form with
  | .plain => j
  | .t8 => 96 * (j % 128) + j / 128
  | .t16 => 192 * (j % 128 / 2) + 2 * (j / 128) + j % 2

/-! ## Engine commands (spec/11) -/

/-- Flag cf is assigned to the stage; all flags of a hub core are its one stage's (R41, R253; how a flag is assigned: log 15). -/
def flagMine (s : State) (cf : BitVec 6) : Prop := s.hub = true ∨ (s.me.flag cf.toNat).owner = some s.stg

/-- A dx.drain of the stage is not satisfied yet (R262). -/
def drainBefore (s : State) : Prop := ∃ e ∈ s.me.eng, e.stage = s.stg ∧ ∃ rq, e.op = .drain rq

/-- Two byte ranges share nothing. -/
def disjoint (a n b m : Nat) : Prop := a + n ≤ b ∨ b + m ≤ a

/-- A command in engine e of the running core, with the flag it counts at (R99, R255). -/
def commanded (s : State) (e : Nat) (flag : Option Nat) (op : EngOp) : State :=
  s.modMe fun k =>
    { k with
      eng := k.eng ++ [{ id := k.nextId, eng := e, stage := s.stg, pc := s.pc, charge := s.ctx.charge, flag := flag, err := false,
                         op := op }]
      nextId := k.nextId + 1 }

/-- The bundle puts a command into an engine and goes on. -/
def commands (s : State) (e : Nat) (flag : Option Nat) (op : EngOp) : Answer := completes s (commanded s e flag op)

/-- A remote command before its first packet. -/
def remoteOf (kind : RemKind) (pkg : Byte) (da : Word) (len pa : Nat) : Remote :=
  { kind := kind, pkg := pkg, da := da, len := len, pa := pa, iqCore := 0, iqPort := 0, op := .add, wide := false, opnd := 0,
    cmp := 0, cf := 0, inst := 0, sent := 0, out := [], bad := none, badOffs := [], reply := [], given := 0 }

/-- A domain address names this package, or one to which the core has a MEMORY circuit that has not failed (R264). -/
def targets (s : State) (da : Word) (p : Byte) : Prop :=
  da.toNat < 2 ^ 56 ∧ p = da.extractLsb' 48 8 ∧
  (p = s.pkgNo ∨ ∃ x, s.memCirc s.focus p = some x ∧ x.2.state ≠ .failed)

/-- Command e of core c has ended with nothing waiting for the core's engines: it is gone, its count is in its flag, and an error is
kept for the next dx.drain (R255, R262). -/
def endedAs (s t : State) (c : Nat) (e : EngCmd) (n : Int) (err : Bool) : Prop :=
  (∀ x ∈ (t.core c).eng, x.id ≠ e.id) ∧ (∀ x ∈ (s.core c).eng, x.id ≠ e.id → x ∈ (t.core c).eng) ∧
  (∀ f, e.flag = some f → ((t.core c).flag f).value.toInt = ((s.core c).flag f).value.toInt + n ∧
    ((t.core c).flag f).err = (((s.core c).flag f).err || err)) ∧
  (∀ f, e.flag ≠ some f → (t.core c).flag f = (s.core c).flag f) ∧
  (e.eng < 2 → ((t.core c).stage e.stage).drainErr = (((s.core c).stage e.stage).drainErr || err)) ∧
  (∀ d, d ≠ c → t.core d = s.core d)

/-- The sum that ends command e stays within 32 signed bits. -/
def countFits (s : State) (c : Nat) (e : EngCmd) (n : Int) : Prop :=
  ∀ f, e.flag = some f → flagOver (((s.core c).flag f).value.toInt + n) = false

/-- N copies of n bytes, one after the other: a byte holds what the last of them that lands there brings, and one where none does is as
before. A byte of a source beat with an uncorrectable error lands nowhere (R258 to R260). -/
def copied (s t : State) (N : Nat) (dst src : Nat → Nat) (n : Nat) : Prop :=
  let lands (k a : Nat) : Prop := dst k ≤ a ∧ a < dst k + n ∧
    ∀ b, src k ≤ b → b < src k + n → b / 64 = (src k + (a - dst k)) / 64 → s.badIn b 1 = false
  ∀ a, (∀ k < N, lands k a → (∀ j < N, k < j → ¬ lands j a) → t.byte a = s.byte (src k + (a - dst k))) ∧
    ((∀ k < N, ¬ lands k a) → t.byte a = s.byte a)

/-- A source of the copies meets an error. -/
def spoiltCopy (s : State) (N : Nat) (src : Nat → Nat) (n : Nat) : Prop := ∃ k < N, ∃ i < n, s.badIn (src k + i) 1 = true

/-- No copy writes what another reads; where there are errors, no 8-byte word holds bytes of both, since a store clears them (R305). -/
def noneReads (s : State) (N : Nat) (dst src : Nat → Nat) (n : Nat) : Prop :=
  (∀ k < N, ∀ j < N, disjoint (dst k) n (src j) n) ∧
  (spoiltCopy s N src n → ∀ k < N, ∀ j < N, ∀ x < n, ∀ y < n, (dst k + x) / 8 ≠ (src j + y) / 8)

/-- The source and destination offsets of element k of a pattern, dimension 0 innermost (R259). -/
def patAt : List (Nat × Int × Int) → Nat → Int × Int
  | [], _ => (0, 0)
  | (n, ss, ds) :: l, k =>
    let o := patAt l (k / n)
    (((k % n : Nat) : Int) * ss + o.1, ((k % n : Nat) : Int) * ds + o.2)

end Sys2Proof.Claims

namespace Sys2Proof.Claims

/-! ## System commands (spec/12) -/

/-- A hub core at level S or M may give a system command, and an entry of its result queue is free (R24, R273). -/
def sysLevel (s : State) (pg : PReg) : Prop := xReady s pg ∧ s.hub = true ∧ 1 ≤ s.me.hub.priv.code
def sysCall (s : State) (pg : PReg) : Prop := sysLevel s pg ∧ (s.me.rqOf 2).length < 16

/-- The state with an entry reserved, and the entry's name (R274). -/
def asked (s : State) : State := (s.reserve 2).1
def entry (s : State) : RqRef := { core := s.focus, eng := 2, id := s.me.nextId }

/-- The command acts at the commit of its bundle and its entry receives the result word. -/
def sysAnswer (s : State) (f : State → State × Word) : Answer :=
  completes s ((f (asked s)).1.fill (entry s) (f (asked s)).2)

/-- A result word: DATA in [55:0]; a refused command's has bit 63 and its reason in [62:56] (Table 12.3). -/
def done (data : Nat) : Word := BitVec.ofNat 64 (data % 2 ^ 56)
def refused (reason : Nat) : Word := BitVec.ofNat 64 (2 ^ 63 + reason * 2 ^ 56)

/-- A core selector names core c and stage t (R276). -/
def selects (x : Word) (c t : Nat) : Prop :=
  t < 8 ∧ ((c < 288 ∧ x.toNat = c + 2 ^ 10 * t) ∨ ∃ h < 8, c = 512 + h ∧ x.toNat = 2 ^ 9 + h + 2 ^ 10 * t)

/-- A region operand names rectangle r of the 16 x 18 grid (R276). -/
def names (x : Word) (r : Region) : Prop :=
  1 ≤ r.w ∧ 1 ≤ r.h ∧ r.x + r.w ≤ 16 ∧ r.y + r.h ≤ 18 ∧ x.toNat = r.x + 2 ^ 8 * r.y + 2 ^ 16 * r.w + 2 ^ 24 * r.h

/-- The running core may act on secure resources (R273). -/
def mayAct (s : State) : Prop := s.me.ctxWorld = true ∨ s.me.hub.priv = .m

/-- Core c belongs to the secure world: a hub core by its CORE.CTX, a compute core only while a stage is resident; a region holds
such a core, or a secure shadow (log 35). -/
def secureCore (s : State) (c : Nat) : Prop :=
  (s.core c).ctxWorld = true ∧ (512 ≤ c ∨ ∃ e ∈ (s.core c).stages, e.2.state ≠ .none)
def secureRegion (s : State) (r : Region) : Prop :=
  ∃ c ∈ r.cores, secureCore s c ∨ ∃ e ∈ (s.core c).shadow, e.2.world = true

/-- The RESIDENT stages of a region's cores become ELIGIBLE (R285). -/
def startedIn (s : State) (r : Region) : State :=
  r.cores.foldl (fun q c => q.modCore c fun k => { k with stages := k.stages.map fun e =>
    (e.1, if e.2.state = .resident then { e.2 with state := .eligible } else e.2) }) s

/-- The core but for request records and notices: what ending a record may change. -/
def recordOnly (s t : State) : Prop :=
  { t with kiln := s.kiln, notices := s.notices } = s ∧ { t.kiln with recs := s.kiln.recs } = s.kiln

/-- Record i ends in a state for a reason: its pages and slot go back and its notice is queued (R362). -/
def endsRecord (s t : State) (i : Nat) (st : RecState) (reason : Nat) : Prop :=
  recordOnly s t ∧ t.recd i = { (s.recd i) with pages := [], slot := none, state := st, reason := reason, inrows := 0 } ∧
  (∀ j, j ≠ i → t.recd j = s.recd j) ∧ ∃ n, t.notices = s.notices ++ [n]

/-- A record evicted, under the instance's eviction limit (R356). -/
def evictedRec (lim : Nat) (r : Rec) : Rec :=
  let r1 := { r with pages := [], slot := none, position := 0, pcons := 0, pfdone := false, evcnt := min 65535 (r.evcnt + 1),
                     evd := true, evmark := false }
  if lim ≠ 0 ∧ lim ≤ r1.evcnt then { r1 with state := .evicted, reason := 5 } else { r1 with state := .pending, wait := 0 }

/-- A record ended (R362); a record of an aborted charge settled (R368). -/
def endedRec (st : RecState) (reason : Nat) (r : Rec) : Rec :=
  { r with pages := [], slot := none, state := st, reason := reason, inrows := 0 }
def abortedRec (lim : Nat) (fail : Bool) (r : Rec) : Rec :=
  if r.cnmark then endedRec .done 4 r
  else if fail then endedRec .failed 0 { r with fault := 2 }
  else evictedRec lim { r with inrows := 0 }

/-- Record i has rows in a charge of an instance. -/
def inCharge (s : State) (inst : Nat) (ch : Charge) (i : Nat) : Prop :=
  (s.recd i).inst = inst ∧ (s.recd i).state = .inflight ∧ (s.recd i).infchg = ch.num

/-- A 16-bit number names a charge in flight: the older of two (R282). -/
def namesCharge (s : State) (inst num : Nat) (ch : Charge) : Prop :=
  ∃ pre post, (s.inst inst).charges = pre ++ ch :: post ∧ ch.num.toNat % 2 ^ 16 = num ∧ ∀ x ∈ pre, x.num.toNat % 2 ^ 16 ≠ num

/-- `t` is `s` with charges of an instance settled: each record with rows in one of them ends or is evicted, every other record
stays, and the charges are no longer in flight (R368). -/
def settled (s t : State) (inst : Nat) (fail : Bool) (l : List Charge) : Prop :=
  { t with kiln := s.kiln, notices := s.notices } = s ∧ t.kiln.queue = s.kiln.queue ∧ t.kiln.aborts = s.kiln.aborts ∧
  t.inst inst = { (s.inst inst) with charges := l.foldl (fun cs ch => cs.erase ch) (s.inst inst).charges } ∧
  (∀ j, j ≠ inst → t.inst j = s.inst j) ∧
  ∀ i, ((∃ ch ∈ l, inCharge s inst ch i) → t.recd i = abortedRec (s.inst inst).evlim fail (s.recd i)) ∧
    ((∀ ch ∈ l, ¬ inCharge s inst ch i) → t.recd i = s.recd i)

/-- The records, one for each listed charge that they are in. -/
def rowsOf (s : State) (inst : Nat) (l : List Charge) : Nat :=
  (l.map fun ch => s.kiln.recs.countP fun e =>
    decide (e.2.inst = inst) && decide (e.2.state = .inflight) && decide (e.2.infchg = ch.num)).sum

/-- A command that forms a charge, a step (R278). -/
def aStep (x : KilnCmd) : Prop := ∃ i q, x = .step i q

/-- A record's rows in flight: k rows from its position on, in a charge (R357). -/
def launched (k : Nat) (num : BitVec 32) (bad : Bool) (r : Rec) : Rec :=
  { r with
    state := .inflight, inrows := k, infchg := num, position := r.position + k
    pcons := if r.pfdone then r.pcons else r.pcons + k, pfdone := r.pfdone || decide (r.pcons + k = r.plen + r.gen), wait := 0
    fault := if bad = true ∧ r.fault = 0 then 3 else r.fault }

/-- A pending record that a formed charge passed over (R358). -/
def aged (r : Rec) : Rec :=
  if r.wait = 63 then { r with eprio := min 7 (r.eprio + 1), wait := 0 } else { r with wait := r.wait + 1 }

/-- A token word of a unit's rows holds an uncorrectable error (R365). -/
def badRows (s : State) (u : KUnit) : Bool :=
  (List.range u.k).any fun j => s.badIn ((s.recd u.rcd).tokenAddr ((s.recd u.rcd).position + j)) 4

/-- Record j is instance i's and in a state. -/
def isOf (s : State) (i : Nat) (st : RecState) (j : Nat) : Prop := (s.recd j).inst = i ∧ (s.recd j).state = st

/-- The rows that a record asks for: one when it decodes, else the next rows of its prefill up to CHUNK (R357). -/
def wantRows (p : Inst) (r : Rec) : Nat := if r.pfdone = true then 1 else min p.chunk (r.plen + r.gen - r.pcons)

/-- A decoding record's turn: ascending slot from the one after LASTSLOT, then around (R357). -/
def slotTurn (p : Inst) (r : Rec) : Nat := if p.lastslot < (r.slot.getD 0 : Int) then r.slot.getD 0 else r.slot.getD 0 + p.slots

/-- The page indices that k more rows of a record need and it does not hold; those of a list of units (R357). -/
def needs (r : Rec) (k : Nat) : Nat := if k = 0 then 0 else (r.position + k - 1) / 64 + 1 - r.pages.length
def pageNeed (s : State) (units : List KUnit) : Nat := (units.map fun u => needs (s.recd u.rcd) u.k).sum

/-- The order of the continuing records: who decodes by its turn, then who prefills by its SEQ. -/
def continuesBefore (p : Inst) (x y : Rec) : Prop :=
  if x.pfdone = y.pfdone then (if x.pfdone = true then slotTurn p x ≤ slotTurn p y else x.seq.toNat ≤ y.seq.toNat)
  else x.pfdone = true

/-- The order of admission, and that of eviction: EPRIO, then SEQ. -/
def admitBefore (x y : Rec) : Prop := y.eprio < x.eprio ∨ (x.eprio = y.eprio ∧ x.seq.toNat ≤ y.seq.toNat)
def evictBefore (x y : Rec) : Prop := x.eprio < y.eprio ∨ (x.eprio = y.eprio ∧ y.seq.toNat ≤ x.seq.toNat)

/-- The order of emission: decode units by slot, then prefill units by SEQ. -/
def emitBefore (s : State) (x y : KUnit) : Prop :=
  if x.dec = y.dec then
    (if x.dec = true then (s.recd x.rcd).slot.getD 0 ≤ (s.recd y.rcd).slot.getD 0
      else (s.recd x.rcd).seq.toNat ≤ (s.recd y.rcd).seq.toNat)
  else x.dec = true

/-- `t` is `s` with pages given to record j for k rows: the lowest free ones, each written to the record's page list (R357). -/
def pagesGiven (s t : State) (j k : Nat) : Prop :=
  let r := s.recd j
  let got := (s.freePages r.inst).take (needs r k)
  let base := s.pladdr r + 4 * r.pages.length
  t.recd j = { r with pages := r.pages ++ got } ∧ (∀ x, x ≠ j → t.recd x = s.recd x) ∧
  (∀ n < got.length, value t (base + 4 * n) 4 = got.getD n 0 % 2 ^ 32) ∧
  (∀ a, a < base ∨ base + 4 * got.length ≤ a → t.byte a = s.byte a) ∧
  { t.kiln with recs := s.kiln.recs } = s.kiln ∧ ∀ c, t.core c = s.core c

/-- The words of the stage's return list, 8 bytes each. -/
def returned (s : State) (pa n : Nat) (inst : Nat) : List KilnCmd :=
  (List.range n).map fun j => .ret inst (BitVec.ofNat 64 (value s (pa + 8 * j) 8)) (s.focus, s.me.nextId)

/-- A notice in memory: four words (Table 18.4). -/
def noticeAt (s : State) (pa : Nat) (n : Notice) : Prop :=
  value s pa 8 = n.w0.toNat ∧ value s (pa + 8) 8 = n.w1.toNat ∧ value s (pa + 16) 8 = n.w2.toNat ∧ value s (pa + 24) 8 = n.w3.toNat

/-- The running core may debug the core: a secure target needs level M (Table 12.1). -/
def mayDebug (s : State) (c : Nat) : Prop := (s.core c).ctxWorld = true → s.me.hub.priv = .m

end Sys2Proof.Claims

namespace Sys2Proof.Claims

/-! ## Arrivals, grants (spec/10, spec/15) -/

/-- A circuit's flits arrive and their tags verify; `bad` names the first flit whose tag fails, which a PLAIN circuit does not
check (R388). Each flit that has not come yet does so on a link that is UP. -/
def comes (s : State) (id : Nat) (run : List (Nat × Option RelayFlit)) (bad : Option Nat) : Prop :=
  s.live id run = true ∧ s.authFails id bad = false

/-- Iq n of core c has a slot for what comes next: on the package the producer's credit says so (R236). -/
def slotAt (s : State) (c n : Nat) : Prop :=
  ∀ id, (s.iq c n).bind = .circ id → (s.iq c n).q.length + (s.iq c n).held.length < (s.iq c n).cap

/-- Entry e is present at iq n of core c; nothing else of the core differs, and no byte of memory. -/
def present (s t : State) (c n : Nat) (e : Entry) : Prop :=
  (t.iq c n).q = (s.iq c n).q ++ [e] ∧ (∀ m, m ≠ n → t.iq c m = s.iq c m) ∧
  { (t.core c) with iq := (s.core c).iq } = s.core c ∧ (∀ d, d ≠ c → t.core d = s.core d) ∧ ∀ a, t.byte a = s.byte a

/-- Stage t of core c is granted: the choice of the arbiter, with nothing to discard first (R344). -/
def granted (s : State) (c t : Nat) : Prop :=
  s.evaluates c = true ∧ s.mustDiscard c = false ∧ s.arbiter c = some t

/-! ## Packets (Tables 11.3, 17.8) -/

/-- The flits of a packet, of TYPE ty, as they come on a circuit. -/
def itsFlits (s : State) (id ty : Nat) (p : Packet) : List (Nat × Option RelayFlit) := s.nextFlits id ty (packetFlits p).length

/-- A packet is taken at end `ends` of a MEMORY circuit in flits of TYPE ty, its tags right; those of its flits that came before hold
what it says. -/
def arrives (s : State) (id ends ty : Nat) (p : Packet) : Prop :=
  comes s id (itsFlits s id ty p) p.badTag ∧ (s.circ id).kind = 1 ∧ (s.circ id).ends = ends ∧
  s.runFits id (itsFlits s id ty p) (packetFlits p) = true

/-- Its flits accepted. -/
def accepted (s : State) (id ty : Nat) (p : Packet) : State := s.accepted id (itsFlits s id ty p)

/-- The bytes of a packet's data: LEN of them, as its data flit carries them (R384). -/
def carried (p : Packet) : List Byte := (List.range p.len.toNat).map fun i => p.data.getD i 0

/-- The fields that no response and no probe uses are zero (Table 17.8). -/
def blank (p : Packet) : Prop := p.sub = 0 ∧ p.da = 0 ∧ p.opnd = 0 ∧ p.cmp = 0 ∧ p.rest = 0

/-- An answer waits to be sent on the circuit. -/
def answers (t : State) (id : Nat) (op code : Byte) (tag : BitVec 32) (data : List Byte) : Answer :=
  .next (t.modCirc id fun x => { x with mrsp := x.mrsp ++
    [{ badTag := none, op := op, code := code, len := BitVec.ofNat 8 data.length, sub := 0, rtag := tag, da := 0, opnd := 0, cmp := 0,
       rest := 0, data := data }] })

/-- The header fields that a request of its OP leaves unused are zero; it is answered RANGE otherwise (R384, log 46). -/
def unusedZero (p : Packet) : Prop :=
  p.code = 0 ∧ p.rest = 0 ∧ p.da.toNat / 2 ^ 56 = 0 ∧
  (p.op = 1 ∨ p.op = 2 ∨ p.op = 6 → p.opnd = 0) ∧ (p.op ≠ 3 → p.cmp = 0) ∧ (p.op = 4 ∨ p.op = 5 → p.opnd.toNat / 2 ^ 32 = 0) ∧
  (p.op = 1 ∨ p.op = 2 → p.sub = 0) ∧ (p.op = 4 ∨ p.op = 5 → p.len = 0) ∧ (p.op = 6 → p.da = 0)

/-- Window checks that a request of n bytes passes (Table 11.3), and where it lands. -/
def opens (s : State) (id : Nat) (da : Word) (n : Nat) (right : Right) (pa : Nat) : Prop :=
  let w := s.win (da.toNat / 2 ^ 40 % 256)
  let off := da.toNat % 2 ^ 40
  w.state = .isOpen ∧ w.owner = (s.circ id).owner ∧ (w.world = true → (s.circ id).world = true) ∧ w.has right = true ∧
  off + n ≤ w.size.toNat * 65536 ∧ pa = w.base.toNat * 65536 + off ∧ offLogbook pa n

/-- The first check that fails, and its code. -/
def closedBy (s : State) (id : Nat) (da : Word) (n : Nat) (right : Right) (code : Byte) : Prop :=
  let w := s.win (da.toNat / 2 ^ 40 % 256)
  (w.state = .free ∧ code = 1) ∨ (w.state = .revoking ∧ code = 2) ∨
  (w.state = .isOpen ∧ (w.owner ≠ (s.circ id).owner ∨ (w.world = true ∧ (s.circ id).world = false)) ∧ code = 3) ∨
  (w.state = .isOpen ∧ w.owner = (s.circ id).owner ∧ (w.world = true → (s.circ id).world = true) ∧
    ((w.has right = false ∧ code = 4) ∨
     (w.has right = true ∧ w.size.toNat * 65536 < da.toNat % 2 ^ 40 + n ∧ code = 5)))

/-- What a remote atomic operation leaves; none when a compare fails (R268). -/
def ramoLeaves (op : RamoOp) (bits old x c : Nat) : Option Nat :=
  let sgn (v : Nat) : Int := (BitVec.ofNat bits v).toInt
  match op with
  | .add => some ((old + x) % 2 ^ bits)
  | .min => some (if sgn x < sgn old then x else old)
  | .max => some (if sgn old < sgn x then x else old)
  | .swap => some x
  | .cas => if old = c then some x else none

/-! ## Links and messages (spec/17, spec/19) -/

/-- The link with a message's flits received in order and counted. -/
def heard (s : State) (l : Nat) (m : CtlMsg) : State :=
  let n := 1 + (m.data.length + 63) / 64 - (s.link' l).ctlBuf.length
  ((s.wakeAll [linkQuarter l]).modLink l fun x =>
    { x with rxSeq := x.rxSeq + BitVec.ofNat 16 n, ackDue := true, nakDue := false, nakOut := false }).modLink l fun x =>
    { x with ctlRecv := x.ctlRecv + n, ctlBuf := [] }

/-- What has come of a message of a kind before its last flit: its first flits, in order. -/
def cameFirst (s : State) (l : Nat) (kind : Byte) (m : CtlMsg) : Prop :=
  (s.link' l).ctlBuf.length ≤ (m.data.length + 63) / 64 ∧ ∀ b ∈ (s.link' l).ctlBuf.zipIdx, ctlIs kind m b.2 b.1 = true

/-- No package that a report names can be declared failed: one of the neighbours that the root still hears has not reported it. -/
def notYet (s : State) (down : List (Nat × Nat)) (p : Nat) : Prop :=
  p ∈ s.boot.failed ∨ s.watchers p = [] ∨ ∃ q ∈ s.watchers p, (p, q) ∉ down

/-- A flit that R372 treats as one with a bad CRC: its CRC fails, its TYPE is reserved, or a reserved bit is set. -/
def unsound (f : Flit) : Prop :=
  mkFlit f.payload f.auth f.ctrl ≠ f ∨ 8 < f.ctrl.toNat / 2 ^ 8 % 16 ∨ f.ctrl.toNat / 2 ^ 3 % 32 ≠ 0

/-- A sound circuit flit with the LSEQ that the link expects, on circuit index j. -/
def inTurn (s : State) (l j : Nat) (f : Flit) : Prop :=
  ¬ unsound f ∧ 1 ≤ f.ctrl.toNat / 2 ^ 8 % 16 ∧ f.ctrl.toNat / 2 ^ 8 % 16 ≤ 5 ∧
  f.ctrl.extractLsb' 16 16 = (s.link' l).rxSeq ∧ f.ctrl.toNat / 2 ^ 12 % 16 = j

/-- No reserved slot of the frame takes this one (R382). -/
def slotFree (s : State) (l : Nat) : Prop :=
  ∀ id, s.slotOwner l (s.link' l).slot = some id → s.streamSend id = none

/-- A message comes on an UP link. -/
def spoken (s : State) (l : Nat) : Prop := (s.link' l).state = .up

/-- The state but for the power block. -/
def powerOnly (s t : State) : Prop := { t with power := s.power } = s

/-- I3C reads a word (Table 20.2). -/
def reports (s : State) (i : Instr) (w : Word) : Prop :=
  Machine.exec i s = .next { s with power := { s.power with i3cOut := .word w } }

/-- A copy of the boot firmware is good: its fields pass, its digest and signature verify (Table 19.1). -/
def goodCopy (s : State) (f : List Byte) : Prop := s.firmwareFields f = true ∧ firmwareSigned f = true

/-- The body of a copy of the firmware lies at the foot of secure hub SRAM (Table 19.2). -/
def bodyAt (t : State) (f : List Byte) : Prop := ∀ b < leAt f 8 8, t.byte (0x870100000 + b) = f.getD (512 + b) 0

/-- The words of the telemetry page, each with its offset (Table 20.3). -/
def telPage (s : State) (watts : BitVec 16) (stalls : Nat) : List (Nat × Word) :=
  [(0, BitVec.ofNat 64 ((s.power.telSeq + 1).toNat * 2 ^ 32 + watts.toNat * 2 ^ 16 + s.power.pcap.toNat)),
   (8, s.power.sensors), (16, BitVec.ofNat 64 (s.power.throt.toNat * 2 ^ 4 + s.power.idle.toNat)),
   (24, BitVec.ofNat 64 (s.power.rxdrop.toNat * 2 ^ 32 + stalls))]

end Sys2Proof.Claims

open Sys2Proof.Claims

/-! # Encoding -/

/-- R74 to R91: every well-formed instruction with an encoding is what its own words decode to, with every operand at every
value. -/
def Obligations.DecodeEncode : Prop :=
  ∀ (i : Instr) (c : Code), i.wf = true → encode i = some c → decodeCode c = .ok i

/-- R74 to R77: a bundle whose one filled slot holds the words of an instruction decodes to that instruction alone, in the slot
that its kind of word fills. -/
def Obligations.BundleDecodes : Prop :=
  ∀ (i : Instr) (c : Code), i.wf = true → encode i = some c →
    ∃ sl : Slot, decodeBundle c.bundle = .ok [(sl, .ok i)] ∧
      (match c with
       | .s _ | .limm _ _ => sl = .s0
       | .c _ => sl = .c
       | .q _ => sl = .q
       | .v _ => sl = .v
       | .x _ => sl = .x)

/-! # Scalar operations -/

/-- R121 to R131, R136, R141, R250: the bundle writes the result to g(d), a write to g0 being discarded, or, for a compare or a predicate
operation, to its predicate, a write to p0 being discarded, and goes on. -/
def Obligations.RegisterResults : Prop :=
  (∀ (i : Instr) (d : GReg) (f : State → Word), intResult i = some (d, f) → ∀ s : State, bankOk s d →
    Machine.exec i s = completes s (s.setG d (f s))) ∧
  ∀ (i : Instr) (pd : PReg) (f : State → Bool), predResult i = some (pd, f) → ∀ s : State,
    Machine.exec i s = completes s (s.setP pd (f s))

/-- R132 to R135, R137, R59 to R65: one rounding in the mode of the instruction, the binary32 result in [31:0] and zeros above; a
conversion writes its result, and CORE.SAT becomes 1 where it saturates and is otherwise left as it was. A conversion to an integer
rounds the exact value in the mode and clamps it to the range of Table 5.6, NaN giving 0 and an infinity the end of the range; one
into a floating-point format is RoundTo of the exact value, which leaves a value that the format holds as it is, gives the canonical
NaN for a NaN and an infinity for an infinity; a binary16 or bfloat16 value goes into binary32 exactly. RoundTo itself, into each
format of Table 2.2: zero keeps its sign; any other value becomes, with its sign, the one of its two neighbours that the mode names, or,
where that one is beyond the largest finite magnitude, an infinity or the largest magnitude by mode and sign, CORE.SAT becoming 1 where
the format has no infinities (R59 to R61); a code has the value that R50 gives it. -/
def Obligations.FloatResults : Prop :=
  (∀ (i : Instr) (d : GReg) (f : State → Word), floatResult i = some (d, f) → ∀ s : State, bankOk s d →
    Machine.exec i s = completes s (s.setG d (f s))) ∧
  (∀ (op : FcvtOp) (d a : GReg) (r : Rnd) (s : State), bankOk s d →
    Machine.exec (.fcvt op d a r) s =
      completes s (if (fcvtW op (s.rnd r) (s.g a)).2
        then (s.setG d (fcvtW op (s.rnd r) (s.g a)).1).modCtx fun x => { x with sat := true }
        else s.setG d (fcvtW op (s.rnd r) (s.g a)).1)) ∧
  (∀ (op : FcvtOp) (r : Rnd) (x : Word),
    (∀ lo hi, intTarget op = some (lo, hi) →
      (f32Of x = .nan → fcvtW op r x = (0, true)) ∧
      (∀ neg, f32Of x = .inf neg → fcvtW op r x = (BitVec.ofInt 64 (if neg then lo else hi), true)) ∧
      (∀ neg q, f32Of x = .fin neg q → ∃ k : Int, roundsTo r (if neg then -q else q) k ∧
        fcvtW op r x = if k < lo then (BitVec.ofInt 64 lo, true) else if hi < k then (BitVec.ofInt 64 hi, true)
          else (BitVec.ofInt 64 k, false))) ∧
    (∀ m v, floatTarget op x = some (m, v) → fcvtW op r x = (BitVec.ofNat 64 (m.round r v).1, (m.round r v).2)) ∧
    (let f : Nat := x.toNat % 2 ^ 23
     let e : Nat := x.toNat / 2 ^ 23 % 256
     f32Of x = if e = 255 then (if f = 0 then .inf (x.getLsbD 31) else .nan)
       else if e = 0 then .fin (x.getLsbD 31) ((f : Rat) * pow2 (-149))
       else .fin (x.getLsbD 31) (((2 ^ 23 + f : Nat) : Rat) * pow2 ((e : Int) - 150)))) ∧
  (∀ (m : Fmt) (bits nan inf : Nat), (m, bits, nan, inf) ∈ [(Fmt.b32, 32, 0x7FC00000, 0x7F800000), (Fmt.b16, 16, 0x7E00, 0x7C00),
      (Fmt.bf, 16, 0x7FC0, 0x7F80)] → ∀ r : Rnd,
    m.round r .nan = (nan, false) ∧ m.round r (.inf false) = (inf, false) ∧
    m.round r (.inf true) = (2 ^ (bits - 1) + inf, false) ∧
    ∀ x < 2 ^ bits, ∀ neg q, m.value x = .fin neg q → m.round r (.fin neg q) = (x, false) ∧
      (Fmt.b32.round r (.fin neg q)).2 = false ∧ Fmt.b32.value (Fmt.b32.round r (.fin neg q)).1 = .fin neg q) ∧
  (∀ (m : Fmt) (f : Nat) (lo : Int) (top : Rat) (hasInf : Bool) (bits : Nat), (m, f, lo, top, hasInf, bits) ∈ fmtRows →
    (∀ (r : Rnd) (neg : Bool),
      m.round r (.fin neg 0) = (if neg then 2 ^ (bits - 1) else 0, false) ∧
      ∀ x : Rat, 0 < x → ∃ y : Rat, roundsInto f lo r neg x y ∧ (m.round r (.fin neg x)).1 < 2 ^ bits ∧
        m.value (m.round r (.fin neg x)).1 =
          (if y ≤ top then .fin neg y else if hasInf = true ∧ overInf r neg = true then .inf neg else .fin neg top) ∧
        ((m.round r (.fin neg x)).2 = true ↔ top < y ∧ hasInf = false)) ∧
    ∀ x < 2 ^ bits,
      let frac : Nat := x % 2 ^ f
      let e : Nat := x / 2 ^ f % 2 ^ (bits - 1 - f)
      m.value x = if hasInf = true ∧ e = 2 ^ (bits - 1 - f) - 1 then (if frac = 0 then .inf (x.testBit (bits - 1)) else .nan)
        else if m = .e4m3 ∧ e = 15 ∧ frac = 7 then .nan
        else if e = 0 then .fin (x.testBit (bits - 1)) ((frac : Rat) * pow2 lo)
        else .fin (x.testBit (bits - 1)) (((2 ^ f + frac : Nat) : Rat) * pow2 (lo + e - 1)))

/-- R13, R138, R305: a g-register reads what was written last; g0 reads 0 and a write to it changes nothing; the same for predicates,
where p0 reads 1. Memory keeps what was stored and reads 0 where nothing was: a read after a store to the same place gives the
stored byte, and a store leaves every other byte. -/
def Obligations.ReadAfterWrite : Prop :=
  ∀ (s : State),
    (∀ (d r : GReg) (v : Word), (s.setG d v).g r = if r = 0 then 0 else if r = d then v else s.g r) ∧
    (∀ (d r : PReg) (b : Bool), (s.setP d b).p r = if r = 0 then true else if r = d then b else s.p r) ∧
    (∀ v : Word, s.setG 0 v = s) ∧ (∀ b : Bool, s.setP 0 b = s) ∧
    ∀ (a : Nat) (bs : List Byte) (b : Nat),
      (s.store a bs).byte b = (if a ≤ b ∧ b < a + bs.length then bs.getD (b - a) 0 else s.byte b) ∧
      (Memory.wf s.mem = true → Memory.wf (s.store a bs).mem = true) ∧ State.reset.byte b = 0

/-- The frame of the operations that write a g-register or a predicate: at an ordinary place in the code nothing changes but the
destination and the place in the code, which becomes PC + 32; every byte of memory, every other register, predicate, loop level, bank
of a split and core stays. The forms that may also wait or fault do one of the three, and when they act change nothing but what
`otherFrame` names and, with the stall bit clear, p7. -/
def Obligations.ScalarFrame : Prop :=
  ∀ (i : Instr) (s t : State), ordinary s → Machine.exec i s = .next t →
    (∀ (d : GReg) (f : State → Word), intResult i = some (d, f) ∨ floatResult i = some (d, f) → bankOk s d →
      scalarFrame s t ∧ t.pc = s.pc + 32 ∧ (∀ r : GReg, r ≠ d → t.g r = s.g r) ∧ (∀ r : PReg, t.p r = s.p r) ∧
      ∀ j, t.loop j = s.loop j) ∧
    (∀ (pd : PReg) (f : State → Bool), predResult i = some (pd, f) →
      scalarFrame s t ∧ t.pc = s.pc + 32 ∧ (∀ r : GReg, t.g r = s.g r) ∧ (∀ r : PReg, r ≠ pd → t.p r = s.p r) ∧
      ∀ j, t.loop j = s.loop j) ∧
    (∀ d : GReg, otherDest i = some d → bankOk s d →
      (mayWait i s = true ∧ t = s) ∨ (∃ e sl, Machine.exec i s = faults s e sl) ∨
      (otherFrame i s t ∧ t.pc = s.pc + 32 ∧ (∀ r : GReg, r ≠ d → t.g r = s.g r) ∧
        (∀ r : PReg, r ≠ 7 ∨ writesP7 i = false → t.p r = s.p r) ∧ ∀ j, t.loop j = s.loop j))

/-- R44: in split mode a bundle that writes g1..g15 is an ILLOP with DETAIL 0x0A, and writes nothing; a form that may wait raises it once
it no longer waits. -/
def Obligations.SplitBankFault : Prop :=
  ∀ (i : Instr) (d : GReg), (∃ f : State → Word, intResult i = some (d, f) ∨ floatResult i = some (d, f)) ∨ otherDest i = some d →
    ∀ s : State, s.inSplit = true → d ≠ 0 → d.toNat < 16 →
      (mayWait i s = true ∧ Machine.exec i s = .next s) ∨
      ∃ sl : Slot, (sl = .s0 ∨ sl = .q ∨ sl = .c) ∧ Machine.exec i s = faults s (illopT 0x0A) sl

/-! # Local memory -/

/-- R139: a load from memory writes the value, extended by its width, and changes nothing else of the machine; an uncorrectable
error in the bytes read is ECCU, and nothing is written. -/
def Obligations.LoadValue : Prop :=
  ∀ (w : LdW) (d a : GReg) (imm : BitVec 13) (s : State) (pa : Nat), bankOk s d →
    reaches s .ld (s.ea a imm) (ldSize w) pa →
    (s.badIn pa (ldSize w) = false →
      Machine.exec (.ld w d a imm) s = completes s (s.setG d (extended w (value s pa (ldSize w))))) ∧
    (s.badIn pa (ldSize w) = true → Machine.exec (.ld w d a imm) s = faults s (eccuT (low 40 (s.ea a imm))) .s0)

/-- R140: a store to memory writes the low bytes of g(d), the least significant at the lowest address; every other byte of
memory and, at an ordinary place in the code, every register stays. -/
def Obligations.StoreBytes : Prop :=
  ∀ (w : StW) (d a : GReg) (imm : BitVec 13) (s : State), ordinary s →
    ∀ pa, reaches s .st (s.ea a imm) (stSize w) pa →
    ∃ t : State, Machine.exec (.st w d a imm) s = .next t ∧ t.pc = s.pc + 32 ∧
      (∀ i < stSize w, t.byte (pa + i) = (s.g d).extractLsb' (8 * i) 8) ∧
      (∀ b, b < pa ∨ pa + stSize w ≤ b → t.byte b = s.byte b) ∧
      (∀ r : GReg, t.g r = s.g r) ∧ (∀ r : PReg, t.p r = s.p r) ∧ (∀ j, t.loop j = s.loop j) ∧
      (∀ c, c ≠ s.focus → t.core c = s.core c) ∧ { t.me with ctxs := s.me.ctxs, pc := s.me.pc } = s.me ∧
      (∀ x, x ≠ s.stg → t.me.ctx x = s.me.ctx x) ∧ { t.ctx with split := s.ctx.split } = s.ctx ∧ banksKept s t ∧
      { t with cores := s.cores, mem := s.mem, eccBad := s.eccBad, eccSeen := s.eccSeen } = s

/-- R142: an atomic operation returns the old value zero-extended in g(d) and leaves the new value in its 4 or 8 bytes, or, when a
compare fails, the old one; every other byte of memory stays. -/
def Obligations.AtomicUpdate : Prop :=
  ∀ (op : AmoOp) (wide : Bool) (d a b : GReg) (s : State) (pa : Nat), bankOk s d →
    s.tr .amo (s.g a) (if wide then 8 else 4) (if wide then 8 else 4) = .ok pa →
    s.badIn pa (if wide then 8 else 4) = false →
    ∃ t : State, Machine.exec (.amo op wide d a b) s = completes s (t.setG d (BitVec.ofNat 64 (value s pa (if wide then 8 else 4)))) ∧
      { t with mem := s.mem, eccBad := s.eccBad, eccSeen := s.eccSeen } = s ∧
      value t pa (if wide then 8 else 4) =
        (amoLeaves op (if wide then 64 else 32) (value s pa (if wide then 8 else 4)) (low (if wide then 64 else 32) (s.g b))
          (low (if wide then 64 else 32) (s.g d))).getD (value s pa (if wide then 8 else 4)) ∧
      ∀ x, x < pa ∨ pa + (if wide then 8 else 4) ≤ x → t.byte x = s.byte x

/-- R138: the checks of an access in their order: a sum of 40 bits or more is SEGV 0x01, then a misaligned address is ALIGN, then a
segment that is empty or too short is SEGV 0x02, a right that is missing 0x03, a world 0x04, an owner 0x05, and a place that a segment
does not reach 0x06. Through the direct map of a hub core (R300, Table 13.2) a world comes first here too: secure hub SRAM, any access
to the block of a secure core and a load of a secure record are SEGV 0x04 without WORLD (R310, R311). Otherwise SEGV 0x06 is a slice
below level M, a hole of the map, an
access to configuration space, a Kiln record or the window view of a kind or width that they do not take, and the logbook, which
software does not reach (log 57, DEDUCED). An uncorrectable error is ECCU; that an atomic's has the address is the model's choice
(log 63). A faulting load, store or atomic changes nothing else. -/
def Obligations.AccessFaults : Prop :=
  ∀ (s : State) (i : Instr) (acc : Access) (sum : Word) (n : Nat),
    ((∃ w d a imm, i = .ld w d a imm ∧ bankOk s d ∧ acc = .ld ∧ sum = s.ea a imm ∧ n = ldSize w) ∨
     (∃ w d a imm, i = .st w d a imm ∧ acc = .st ∧ sum = s.ea a imm ∧ n = stSize w) ∨
     (∃ op wide d a b, i = .amo op wide d a b ∧ bankOk s d ∧ acc = .amo ∧ sum = s.g a ∧ n = if wide then 8 else 4)) →
    (2 ^ 40 ≤ sum.toNat → Machine.exec i s = faults s (segvT 1 (low 40 sum)) .s0) ∧
    (sum.toNat < 2 ^ 40 → sum.toNat % n ≠ 0 → Machine.exec i s = faults s (alignT sum.toNat) .s0) ∧
    (sum.toNat < 2 ^ 40 → sum.toNat % n = 0 → directMap s.focus s.me acc sum.toNat = false →
      let desc := s.me.segment (sum.toNat / 2 ^ 36)
      let off := sum.toNat % 2 ^ 36
      (segLimit desc = 0 ∨ segLimit desc * 65536 < off + n → Machine.exec i s = faults s (segvT 2 sum.toNat) .s0) ∧
      (segLimit desc ≠ 0 → off + n ≤ segLimit desc * 65536 →
        ((acc.rd = true ∧ segR desc = false) ∨ (acc.wr = true ∧ segW desc = false) →
          Machine.exec i s = faults s (segvT 3 sum.toNat) .s0) ∧
        ((acc.rd = true → segR desc = true) → (acc.wr = true → segW desc = true) →
          (segWorld desc = true → s.me.ctxWorld = false → Machine.exec i s = faults s (segvT 4 sum.toNat) .s0) ∧
          ((segWorld desc = true → s.me.ctxWorld = true) → segOwner desc ≠ s.me.ctxOwner.toNat →
            (s.hub = true → s.me.hub.priv ≠ .m) → Machine.exec i s = faults s (segvT 5 sum.toNat) .s0) ∧
          ((segWorld desc = true → s.me.ctxWorld = true) →
            (segOwner desc = s.me.ctxOwner.toNat ∨ (s.hub = true ∧ s.me.hub.priv = .m)) →
            (let pa := segBase desc * 65536 + off
             ¬ (rangeOf pa = .slice ∨ rangeOf pa = .hubGen ∨ (rangeOf pa = .hubSec ∧ segWorld desc = true ∧ offLogbook pa n))) →
            Machine.exec i s = faults s (segvT 6 sum.toNat) .s0)))) ∧
    (sum.toNat < 2 ^ 40 → sum.toNat % n = 0 → directMap s.focus s.me acc sum.toNat = true →
      let pa := sum.toNat % 2 ^ 36
      let secret : Prop := s.me.ctxWorld = false ∧
        (rangeOf pa = .hubSec ∨ (rangeOf pa = .cfg ∧ (s.core ((pa - 0xF00000000) / 0x100000)).ctxWorld = true) ∨
          (rangeOf pa = .kilnRec ∧ acc = .ld ∧ (s.recd ((pa - 0xC00000000) / 64)).world = true))
      (secret → Machine.exec i s = faults s (segvT 4 sum.toNat) .s0) ∧
      (¬ secret → (rangeOf pa = .slice ∧ s.me.hub.priv ≠ .m) ∨ rangeOf pa = .unmapped ∨
        (rangeOf pa = .hubSec ∧ ¬ offLogbook pa n) ∨
        ((rangeOf pa = .kilnRec ∨ rangeOf pa = .winView) ∧ ¬ (acc = .ld ∧ n = 8)) ∨
        (rangeOf pa = .cfg ∧ ¬ ((acc = .ld ∨ acc = .st) ∧ n = 8)) → Machine.exec i s = faults s (segvT 6 sum.toNat) .s0)) ∧
    (∀ pa, acc ≠ .st → reaches s acc sum n pa → s.badIn pa n = true → Machine.exec i s = faults s (eccuT (low 40 sum)) .s0)

/-- R138, Table 1.3: an access that passes its checks reaches BASE x 65,536 + EA[35:0] of the segment EA[39:36], in slice memory or
general hub SRAM, or in secure hub SRAM outside the logbook through a secure segment (log 57). One through the direct map of a hub core
at S or M reaches EA[35:0] itself: a slice at M, hub SRAM, the secure part of it with WORLD and outside the logbook (log 57), and, for
the accesses that Table 13.2 gives them, a Kiln record, configuration space and the window view (R300, R310, R311); an instruction fetch
reaches hub SRAM alone. -/
def Obligations.SegmentTranslate : Prop :=
  (∀ (s : State) (acc : Access) (ea n : Nat),
    ea < 2 ^ 40 → 0 < n → ea % n = 0 → directMap s.focus s.me acc ea = true →
    let pa := ea % 2 ^ 36
    (acc.ex = true → rangeOf pa = .hubGen ∨ rangeOf pa = .hubSec) →
    (rangeOf pa = .slice ∧ s.me.hub.priv = .m) ∨ rangeOf pa = .hubGen ∨
      (rangeOf pa = .hubSec ∧ s.me.ctxWorld = true ∧ offLogbook pa n) ∨
      (rangeOf pa = .kilnRec ∧ acc = .ld ∧ n = 8 ∧ ((s.recd ((pa - 0xC00000000) / 64)).world = true → s.me.ctxWorld = true)) ∨
      (rangeOf pa = .cfg ∧ (acc = .ld ∨ acc = .st) ∧ n = 8 ∧
        ((s.core ((pa - 0xF00000000) / 0x100000)).ctxWorld = true → s.me.ctxWorld = true)) ∨
      (rangeOf pa = .winView ∧ acc = .ld ∧ n = 8) →
    s.tr acc (BitVec.ofNat 64 ea) n n = .ok pa) ∧
  ∀ (s : State) (acc : Access) (ea n : Nat),
    ea < 2 ^ 40 → 0 < n → ea % n = 0 → directMap s.focus s.me acc ea = false → acc.ex = false →
    let desc := s.me.segment (ea / 2 ^ 36)
    let off := ea % 2 ^ 36
    let pa := segBase desc * 65536 + off
    segLimit desc ≠ 0 → off + n ≤ segLimit desc * 65536 → (acc.rd = true → segR desc = true) →
    (acc.wr = true → segW desc = true) → (segWorld desc = true → s.me.ctxWorld = true) →
    (segOwner desc = s.me.ctxOwner.toNat ∨ (s.hub = true ∧ s.me.hub.priv = .m)) →
    (pa + n ≤ 0x480000000 ∨ (0x800000000 ≤ pa ∧ pa + n ≤ 0x870000000) ∨
      (segWorld desc = true ∧ 0x800000000 ≤ pa ∧ pa + n ≤ 0x880000000 ∧ offLogbook pa n)) →
    s.tr acc (BitVec.ofNat 64 ea) n n = .ok pa

/-- R13, R32, R343: what every step keeps on every core, from any state. Nothing is stored under g0 and p0, of a context and of the banks of
a split, and a loop level whose COUNT is 0 is inactive; a stage is FIRING only where its core says so, so at most one is. Both hold
at reset. -/
def Obligations.CoresKept : Prop :=
  (Hardwired State.reset ∧ OneFiring State.reset) ∧
  ∀ s t : State, Machine.step s = .next t → (Hardwired s → Hardwired t) ∧ (OneFiring s → OneFiring t)

/-! # Control -/

/-- R79: where its guard does not hold, an operation of the C or X slot, join among them (R163), has no effect and the bundle goes
on. -/
def Obligations.GuardedOff : Prop :=
  ∀ (i : Instr) (g : Guard) (s : State), guardOf i = some g → (s.p g.pg != g.neg) = false → decodes i s →
    Machine.exec i s = completes s s

/-- R100, R150: after a bundle without a taken transfer the highest loop level that ends there goes back to its start while passes
are left, a level on its last pass becomes inactive and the next is asked; with none left control goes to PC + 32, and a compute
core's bundle 4,095 then faults with ILLOP 0x0C. The loop
registers hold LEN in [63:52] and COUNT in [31:0], a COUNT of 0 leaving the level inactive; START keeps only the PC bits that the core
has, a multiple of 32 (R32). That a hub core's PC + 32 wraps at 2^40 after the last bundle of its code space is the model's choice
(log 24): R146 does not say it. -/
def Obligations.LoopBranch : Prop :=
  (∀ (s : State) (pc : Addr) (j : Nat), j ≤ 4 → (∀ k, j ≤ k → k < 4 → ¬ endsAt s k pc) →
    (∀ i, j = i + 1 → endsAt s i pc → (s.loop i).count ≠ 1 →
      s.retire pc .seq = (s.setLoop i { (s.loop i) with count := (s.loop i).count - 1 }).setPc (s.loop i).start) ∧
    (∀ i, j = i + 1 → endsAt s i pc → (s.loop i).count = 1 →
      s.retire pc .seq = (s.setLoop i { (s.loop i) with count := 0, len := 0 }).retire pc .seq) ∧
    (j = 0 → (s.hub = true ∨ pc.toNat ≠ 4095 * 32) → s.retire pc .seq = s.setPc (pc + 32)) ∧
    (j = 0 → s.hub = false → pc.toNat = 4095 * 32 → s.retire pc .seq = s.takeException (illopT 0x0C) 7 pc)) ∧
  (∀ (l : Loop) (v : Word) (hub : Bool),
    (l.writeCnt v).count.toNat = v.toNat % 2 ^ 32 ∧
    (l.writeCnt v).len.toNat = (if v.toNat % 2 ^ 32 = 0 then 0 else v.toNat / 2 ^ 52) ∧ (l.writeCnt v).start = l.start ∧
    (l.writeStart hub v).start.toNat = v.toNat % (if hub then 2 ^ 40 else 2 ^ 17) / 32 * 32 ∧
    (l.writeStart hub v).len = l.len ∧ (l.writeStart hub v).count = l.count ∧
    ((l.writeCnt v).count ≠ 0 → loopCntWord (l.writeCnt v) = BitVec.ofNat 64 (v.toNat / 2 ^ 52 * 2 ^ 52 + v.toNat % 2 ^ 32)))

/-- R146 to R148: a branch, call or return whose guard holds transfers control to PC + 32 x disp or to the address in the register; a
call leaves the address of the next bundle in g31, and the target register is read before that write. A target outside the code
space or not a multiple of 32 faults, and nothing is written. -/
def Obligations.Branches : Prop :=
  (∀ (s : State) (g : Guard), s.guard g = true →
    (∀ disp : BitVec 22, 0 ≤ dispTo s disp → dispTo s disp < codeEnd s →
      Machine.exec (.br g disp) s = jumps s s (BitVec.ofInt 40 (dispTo s disp)) ∧
      Machine.exec (.call g disp) s = jumps s (s.setG 31 ((s.pc + 32).setWidth 64)) (BitVec.ofInt 40 (dispTo s disp))) ∧
    (∀ r : GReg, (s.g r).toNat < codeEnd s → (s.g r).toNat % 32 = 0 →
      Machine.exec (.brr g r) s = jumps s s (BitVec.ofNat 40 (s.g r).toNat) ∧
      Machine.exec (.callr g r) s = jumps s (s.setG 31 ((s.pc + 32).setWidth 64)) (BitVec.ofNat 40 (s.g r).toNat)) ∧
    ((s.g 31).toNat < codeEnd s → (s.g 31).toNat % 32 = 0 →
      Machine.exec (.ret g) s = jumps s s (BitVec.ofNat 40 (s.g 31).toNat))) ∧
  (∀ (s : State) (g : Guard), s.guard g = true →
    (∀ disp : BitVec 22, dispTo s disp < 0 ∨ codeEnd s ≤ dispTo s disp →
      ∀ i, i = .br g disp ∨ i = .call g disp →
      Machine.exec i s = faults s (badTarget s (dispTo s disp % 2 ^ 40).toNat) .c) ∧
    (∀ (r : GReg) (i : Instr), i = .brr g r ∨ i = .callr g r ∨ (r = 31 ∧ i = .ret g) →
      (codeEnd s ≤ (s.g r).toNat → Machine.exec i s = faults s (badTarget s (low 40 (s.g r))) .c) ∧
      ((s.g r).toNat < codeEnd s → (s.g r).toNat % 32 ≠ 0 → Machine.exec i s = faults s (alignT (s.g r).toNat) .c)))

/-- R149: a loop takes the lowest inactive level for g(C) passes of LEN bundles; 0 passes skip the body; a count of 32 bits or more, a
body that leaves the code space and a fifth level are ILLOP. That the fifth level has DETAIL 0x0B too is the model's choice (log 22):
Table 18.2 gives 0x0B for a count or a body. -/
def Obligations.LoopBegin : Prop :=
  ∀ (s : State) (g : Guard) (c : GReg) (len : BitVec 12), s.guard g = true → len ≠ 0 →
    (2 ^ 32 ≤ (s.g c).toNat ∨ codeEnd s ≤ s.pc.toNat + 32 * len.toNat →
      Machine.exec (.loop g c len) s = faults s (illopT 0x0B) .c) ∧
    (s.pc.toNat + 32 * len.toNat < codeEnd s →
      (s.g c = 0 → Machine.exec (.loop g c len) s = jumps s s (s.pc + 32 * (len.setWidth 40 + 1))) ∧
      (s.g c ≠ 0 → (s.g c).toNat < 2 ^ 32 →
        (∀ j < 4, (s.loop j).len = 0 → (∀ k < j, (s.loop k).len ≠ 0) →
          Machine.exec (.loop g c len) s =
            completes s (s.setLoop j { len := len, count := (s.g c).setWidth 32, start := s.pc + 32 })) ∧
        ((∀ j < 4, (s.loop j).len ≠ 0) → Machine.exec (.loop g c len) s = faults s (illopT 0x0B) .c)))

/-- R152 to R154: halt stops a hub core and is PRIV 1 at U, and halts a compute core's stage after its bundle; trap reports after its bundle, with
TRAP.PC at the next one, and brk at its own bundle. -/
def Obligations.HaltTrapBreak : Prop :=
  ∀ (s : State) (g : Guard), s.guard g = true →
    (s.hub = true → s.me.hub.priv = .u → Machine.exec (.halt g) s = faults s (privT 1) .c) ∧
    (s.hub = true → 1 ≤ s.me.hub.priv.code →
      Machine.exec (.halt g) s = jumps s (s.modMe fun k => { k with hub := { k.hub with stopped := true } }) (s.pc + 32)) ∧
    (s.hub = false → Machine.exec (.halt g) s = ends s ((s.setPc (s.pc + 32)).takeException ⟨0x0F, 0, 0⟩ 2 (s.pc + 32))) ∧
    (∀ code : BitVec 8, Machine.exec (.trap g code) s =
      ends s ((s.setPc (s.pc + 32)).takeException ⟨0x0E, code.toNat, 0⟩ 2 (s.pc + 32))) ∧
    (∀ code : BitVec 16, Machine.exec (.brk g code) s = faults s ⟨0x0D, code.toNat, 0⟩ .c)

/-! # Exceptions -/

/-- R35, R402: a hub core traps to S from U or S and to M from M; the level's bank receives the cause, the pc, the old IE and level; IE
becomes 0, the level is entered and the pc is the vector base plus 32 x the cause. Nothing else changes. -/
def Obligations.HubTrap : Prop :=
  ∀ (s : State) (i : TrapInfo) (slot : Nat) (pc : Addr), s.hub = true →
    let h := s.me.hub
    let t := s.takeException i slot pc
    (h.priv ≠ .m → t.me.hub = { h with priv := .s, ie := false, bankS :=
      { h.bankS with cause := causeBits i.cause slot i.detail, pc := pc, pie := h.ie, ppriv := h.priv } } ∧
      t.me.pc = h.bankS.vec + BitVec.ofNat 40 (32 * i.cause)) ∧
    (h.priv = .m → t.me.hub = { h with ie := false, bankM :=
      { h.bankM with cause := causeBits i.cause slot i.detail, pc := pc, pie := h.ie, ppriv := .m } } ∧
      t.me.pc = h.bankM.vec + BitVec.ofNat 40 (32 * i.cause)) ∧
    { t.me with hub := s.me.hub, pc := s.me.pc } = s.me ∧ (∀ c, c ≠ s.focus → t.core c = s.core c) ∧
    { t with cores := s.cores } = s

/-- R33, R392, R394 to R396: on a compute core the firing stage halts: TRAP.CAUSE and TRAP.PC, HALTED, no stage FIRING, one logbook
entry at SEQ mod 1,024 and one STAGE_FAULT notice at the end of the queue. No other byte of memory changes. -/
def Obligations.StageFault : Prop :=
  ∀ (s : State) (i : TrapInfo) (slot : Nat) (pc : Addr) (n : Nat), s.hub = false → s.me.firing = some n →
    i.cause < 256 → slot < 8 → n < 8 → s.focus < 288 →
    let t := s.takeException i slot pc
    let base := 0x870000000 + 32 * (s.logSeq.toNat % 1024)
    t.me.trapCause = causeBits i.cause slot i.detail ∧ t.me.trapPc = pc ∧ t.me.firing = none ∧
    (t.me.stage n).state = .halted ∧ (∀ x, x ≠ n → t.me.stage x = s.me.stage x) ∧
    (∀ c, c ≠ s.focus → t.core c = s.core c) ∧ t.logSeq = s.logSeq + 1 ∧
    value t base 8 = s.logSeq.toNat * 2 ^ 32 + i.cause * 2 ^ 24 + slot * 2 ^ 21 + n * 2 ^ 18 +
      (if s.me.ctxWorld then 2 ^ 16 else 0) + s.me.ctxOwner.toNat * 2 ^ 12 + s.focus ∧
    value t (base + 8) 8 = (s.me.ctx n).charge.toNat * 2 ^ 48 + pc.toNat ∧
    value t (base + 16) 8 = i.detail % 2 ^ 32 ∧ value t (base + 24) 8 = i.addr % 2 ^ 64 ∧
    (∀ a, a < base ∨ base + 32 ≤ a → t.byte a = s.byte a) ∧
    t.notices = s.notices ++ [{
      w0 := BitVec.ofNat 64 (s.logSeq.toNat * 2 ^ 32 + (if s.me.ctxWorld then 2 ^ 12 else 0) + s.me.ctxOwner.toNat * 2 ^ 8 + 1),
      w1 := BitVec.ofNat 64 (i.cause * 2 ^ 24 + n * 2 ^ 16 + s.focus), w2 := pc.setWidth 64,
      w3 := BitVec.ofNat 64 (i.detail % 2 ^ 32) }]

/-- R155: eret takes IE and the level from the bank of the current level and goes to its TRAP.PC; at U it is PRIV 1, a return from S to
M is PRIV 3, and a misaligned TRAP.PC is ALIGN. -/
def Obligations.ReturnFromTrap : Prop :=
  ∀ (s : State) (g : Guard), s.guard g = true → s.hub = true →
    let h := s.me.hub
    (h.priv = .u → Machine.exec (.eret g) s = faults s (privT 1) .c) ∧
    (h.priv = .s → h.bankS.ppriv = .m → Machine.exec (.eret g) s = faults s (privT 3) .c) ∧
    (h.priv = .s → h.bankS.ppriv ≠ .m →
      (h.bankS.pc.toNat % 32 ≠ 0 → Machine.exec (.eret g) s = faults s (alignT h.bankS.pc.toNat) .c) ∧
      (h.bankS.pc.toNat % 32 = 0 → Machine.exec (.eret g) s =
        ends s (s.modMe fun k => { k with pc := h.bankS.pc, hub := { k.hub with ie := h.bankS.pie, priv := h.bankS.ppriv } }))) ∧
    (h.priv = .m →
      (h.bankM.pc.toNat % 32 ≠ 0 → Machine.exec (.eret g) s = faults s (alignT h.bankM.pc.toNat) .c) ∧
      (h.bankM.pc.toNat % 32 = 0 → Machine.exec (.eret g) s =
        ends s (s.modMe fun k => { k with pc := h.bankM.pc, hub := { k.hub with ie := h.bankM.pie, priv := h.bankM.ppriv } })))

/-- R156: idle advances, and the core sleeps unless IRQ.EN AND IRQ.PEND is non-zero; a sleeping core whose word is non-zero takes the
interrupt when IE is set and it may, and otherwise goes on; at U idle is PRIV 1. -/
def Obligations.IdleAndWake : Prop :=
  (∀ (s : State) (g : Guard), s.guard g = true → s.hub = true → s.me.hub.priv = .u →
    Machine.exec (.idle g) s = faults s (privT 1) .c) ∧
  (∀ (s : State) (g : Guard), s.guard g = true → s.hub = true → 1 ≤ s.me.hub.priv.code →
    Machine.exec (.idle g) s =
      completes s (s.modMe fun k => { k with hub := { k.hub with idle := decide (s.irqPend &&& k.hub.irqEn = 0) } })) ∧
  (∀ (s : State) (h : Nat), s.hubLive (512 + h) = true → (s.core (512 + h)).hub.idle = true →
    s.irqPend &&& (s.core (512 + h)).hub.irqEn ≠ 0 →
    (s.irqToTake (512 + h) = none → Machine.exec (.idleWake h) s =
      .next (s.modCore (512 + h) fun k => { k with hub := { k.hub with idle := false } })) ∧
    (∀ n, s.irqToTake (512 + h) = some n → Machine.exec (.idleWake h) s = .next (s.takeIrq (512 + h) n)))

/-- R36, R37, R403: with IE set a hub core takes the lowest pending enabled source at S from U or S, the security block at M from any
level; it enters at the vector of 0x20 + n with TRAP.PC at the bundle not yet run, and wakes. Below, the pending word is the four
sources' state; that source 2 is the field secPend, and what raises and clears that, is the model's choice (log 48), and so is that
an interrupt event changes nothing where none is taken (log 50). -/
def Obligations.Interrupts : Prop :=
  ∀ (s : State) (h n : Nat),
    let c := 512 + h
    let k := s.core c
    let pend (i : Nat) : Prop := s.irqPend.getLsbD i = true ∧ k.hub.irqEn.getLsbD i = true
    let lvl : Priv := if n = 2 then .m else .s
    let bank := if n = 2 then k.hub.bankM else k.hub.bankS
    (s.irqPend.getLsbD 0 = !s.notices.isEmpty) ∧ (s.irqPend.getLsbD 1 = !s.mgmtRx.isEmpty) ∧
    (s.irqPend.getLsbD 2 = s.boot.secPend) ∧ (s.irqPend.getLsbD 3 = s.cmpHit) ∧
    (s.hubLive c = true → k.hub.ie = true → n < 4 → pend n → (n ≠ 2 → ¬ pend 2 ∧ k.hub.priv ≠ .m ∧ ∀ m < n, ¬ pend m) →
      ∃ t : State, Machine.exec (.interrupt h) s = .next t ∧ { t with cores := s.cores } = s ∧
        (∀ d, d ≠ c → t.core d = s.core d) ∧
        (t.core c).pc = bank.vec + BitVec.ofNat 40 (32 * (0x20 + n)) ∧ (t.core c).hub.priv = lvl ∧
        (t.core c).hub.ie = false ∧ (t.core c).hub.idle = false ∧
        (t.core c).hub.bank lvl = { bank with cause := causeBits (0x20 + n) 7 0, pc := k.pc, pie := k.hub.ie, ppriv := k.hub.priv } ∧
        { (t.core c) with pc := k.pc, hub := k.hub } = k) ∧
    (k.hub.ie = false ∨ (∀ i < 4, ¬ pend i) ∨ (k.hub.priv = .m ∧ ¬ pend 2) →
      Machine.exec (.interrupt h) s = .next s)

/-! # Firings, streams, the group barrier -/

/-- R157 to R160: outside split mode, with the checks of the close passed, fire.end and fire.next close the firing; a hub core goes on
at the next bundle, and at fire.next once its next firing is ready; a compute core's fire.next keeps the loop levels and leaves the
next bundle as the stage's resume point: index 0 after index 4,095, the model's choice (log 23). A failed check is QRATE with the
port's field value: the lowest of the ports for which the table of R157 does not hold, every input before any output. -/
def Obligations.FiringEnds : Prop :=
  ∀ (s : State) (g : Guard), s.guard g = true → s.inSplit = false →
    (s.rateFault = none ↔ ∀ p < 16, (s.stage.rateIn p ≠ 0 → inputDone s p) ∧ (s.stage.rateOut p ≠ 0 → outputDone s p)) ∧
    (∀ p < 16, s.rateFault = some p ↔ (s.stage.rateIn p ≠ 0 ∧ ¬ inputDone s p ∧ ∀ q < p, s.stage.rateIn q ≠ 0 → inputDone s q)) ∧
    (∀ p < 16, s.rateFault = some (16 + p) ↔ ((∀ q < 16, s.stage.rateIn q ≠ 0 → inputDone s q) ∧ s.stage.rateOut p ≠ 0 ∧
      ¬ outputDone s p ∧ ∀ q < p, s.stage.rateOut q ≠ 0 → outputDone s q)) ∧
    (∀ n, s.rateFault = some n → n < 32 ∧ Machine.exec (.fireEnd g) s = faults s ⟨0x07, n, 0⟩ .c ∧
      (s.hub = false → Machine.exec (.fireNext g) s = faults s ⟨0x07, n, 0⟩ .c)) ∧
    (s.rateFault = none →
      (s.hub = false → Machine.exec (.fireEnd g) s = ends s (s.closeFiring s.focus s.stg false)) ∧
      (s.hub = true → Machine.exec (.fireEnd g) s = jumps s (s.closeFiring s.focus s.stg false) (s.pc + 32)) ∧
      (s.hub = false → Machine.exec (.fireNext g) s = ends s
        ((s.closeFiring s.focus s.stg true).modCore s.focus fun k => k.modStage s.stg fun x =>
          { x with resume := some ((s.pc + 32).extractLsb' 5 12) })) ∧
      (s.hub = true → s.hubNext (s.closeFiring s.focus 0 true) = true → Machine.exec (.fireNext g) s =
        jumps s ((s.closeFiring s.focus 0 true).startHub s.focus) (s.pc + 32)))

/-- R158, R159, R240: what closing a firing does: FIRE.CNT rises by 1, the counts of the stage's ports become 0, the stage is ELIGIBLE
and the core has no stage FIRING; the loop levels are inactive afterwards unless they are kept. The marker that started a marker firing
is removed where it still stands at the head of its port, and its credit goes back; every other entry stays. Memory is unchanged. -/
def Obligations.FiringClosed : Prop :=
  ∀ (s : State) (c n : Nat) (keep : Bool), (s.core c).firing = some n →
    let t := s.closeFiring c n keep
    let mark := ((s.core c).stage n).markerPort
    ((t.core c).ctx n).fireCnt = ((s.core c).ctx n).fireCnt + 1 ∧ (t.core c).firing = none ∧
    ((t.core c).stage n).state = .eligible ∧ ((t.core c).stage n).markerPort = none ∧
    (∀ p < 16, ((s.core c).stage n).rateIn p ≠ 0 → (t.iq c p).popped = 0) ∧
    (∀ p < 16, ((s.core c).stage n).rateOut p ≠ 0 → (t.oq c p).pushed = 0) ∧
    (∀ p < 16, (t.oq c p).credits = (s.oq c p).credits) ∧
    (∀ p < 16, mark.map BitVec.toNat ≠ some p → (t.iq c p).q = (s.iq c p).q) ∧
    (∀ p, mark = some p →
      (∀ e tl, (s.iq c p.toNat).q = e :: tl → e.kind = .marker → (t.iq c p.toNat).q = tl ∧ (t.iq c p.toNat).beat = 0 ∧
        (t.iq c p.toNat).word = 0 ∧
        ∀ d m, (s.iq c p.toNat).bind = .route d m → (t.oq d m).notices = (s.oq d m).notices + 1) ∧
      ((∀ e, (s.iq c p.toNat).q.head? = some e → e.kind ≠ .marker) → (t.iq c p.toNat).q = (s.iq c p.toNat).q)) ∧
    (keep = true → ((t.core c).ctx n).loops = ((s.core c).ctx n).loops) ∧
    (keep = false → ∀ j < 4, (sget Loop.reset ((t.core c).ctx n).loops j).len = 0) ∧
    (∀ a, t.byte a = s.byte a) ∧ (∀ d, d ≠ c → { t.core d with oq := (s.core d).oq } = s.core d) ∧
    (mark = none → ∀ d, d ≠ c → t.core d = s.core d)

/-- R44, R162, R163: split starts four streams at the next bundle and at the three indices, each with the stage's g16..g31, predicates
and loop levels; join takes the stream out, and the fourth join returns to VLIW mode at stream 0's join + 32 with stream 0's bank. Where
stream 0's join is bundle 4,095, the core is in VLIW mode all the same and then faults with ILLOP 0x0C, as after any bundle that would go
on past the store (R146; which of the streams' bundles takes it is the model's choice, log 11). -/
def Obligations.SplitAndJoin : Prop :=
  ∀ (s : State) (g : Guard), s.hub = false → s.guard g = true →
    (∀ r : GReg, s.inSplit = false → ∃ t : State, Machine.exec (.split g r) s = ends s t ∧ t.stream = 0 ∧
      (∀ i < 4, (t.ctx.bank i).pc = ([s.pc + 32, BitVec.ofNat 40 (32 * ((s.g r).toNat % 4096)),
          BitVec.ofNat 40 (32 * ((s.g r).toNat / 4096 % 4096)), BitVec.ofNat 40 (32 * ((s.g r).toNat / 2 ^ 24 % 4096))] : List Addr).getD i 0 ∧
        (t.ctx.bank i).joined = false ∧ (t.ctx.bank i).p = s.ctx.p ∧ (t.ctx.bank i).loops = s.ctx.loops ∧
        ∀ x, 16 ≤ x → sget 0 (t.ctx.bank i).g x = sget 0 s.ctx.g x) ∧
      { t.ctx with split := none } = { s.ctx with split := none } ∧ { t with cores := s.cores, stream := s.stream } = s) ∧
    (s.inSplit = true → s.stream < 4 → (∀ j < 4, ¬ endsAt s j s.pc) →
      (∀ i < 4, i ≠ s.stream → (s.ctx.bank i).joined = false → Machine.exec (.join g) s =
        ends s (s.modCtx fun x => x.modBank s.stream fun b => { b with joined := true })) ∧
      ((∀ i < 4, i ≠ s.stream → (s.ctx.bank i).joined = true) → (s.ctx.bank 0).pc.toNat = 4095 * 32 →
        ∃ t : State, Machine.exec (.join g) s = ends s (t.takeException (illopT 0x0C) 7 (s.ctx.bank 0).pc) ∧ t.inSplit = false ∧
          t.stream = 0 ∧ t.pc = (s.ctx.bank 0).pc ∧ t.ctx.p = (s.ctx.bank 0).p ∧ t.ctx.loops = (s.ctx.bank 0).loops) ∧
      ((∀ i < 4, i ≠ s.stream → (s.ctx.bank i).joined = true) → (s.ctx.bank 0).pc.toNat ≠ 4095 * 32 →
        ∃ t : State, Machine.exec (.join g) s = ends s t ∧ t.inSplit = false ∧ t.stream = 0 ∧
          t.pc = (s.ctx.bank 0).pc + 32 ∧ t.ctx.p = (s.ctx.bank 0).p ∧ t.ctx.loops = (s.ctx.bank 0).loops ∧
          (∀ x < 16, sget 0 t.ctx.g x = sget 0 s.ctx.g x) ∧
          ∀ x, 16 ≤ x → x < 32 → sget 0 t.ctx.g x = sget 0 (s.ctx.bank 0).g x))

/-- R165: the k-th bar.grp completes once every other core of the group has arrived at its k-th, or the barrier has been complete before
(barFree), whatever those cores have done since (R347); the last to arrive frees every core of the group. Until then the arrival is
recorded and the bundle does not commit. Which cores form the group of a stage is read as log 37 says. In split mode bar.grp is ILLOP
0x04, and does not arrive. -/
def Obligations.GroupBarrier : Prop :=
  ∀ (s : State) (g : Guard), s.hub = false → s.guard g = true →
    let k := s.stage.barDone + 1
    let arrived (c : Nat) : Prop := k ≤ ((s.core c).stage s.stg).barArrived
    (s.inSplit = true → Machine.exec (.barGrp g) s = faults s (illopT 0x04) .c) ∧
    (s.inSplit = false → (k ≤ s.stage.barFree ∨ ∀ c ∈ s.stage.group.cores, c ≠ s.focus → arrived c) →
      ∃ t : State, Machine.exec (.barGrp g) s = completes s t ∧
        t.stage = { s.stage with barArrived := k, barDone := k, barFree := max s.stage.barFree k } ∧
        ((∀ c ∈ s.stage.group.cores, c ≠ s.focus → arrived c) → ∀ c ∈ s.stage.group.cores, k ≤ ((t.core c).stage s.stg).barFree) ∧
        { t with cores := s.cores } = s ∧ { t.me with stages := s.me.stages } = s.me ∧ (∀ x, x ≠ s.stg → t.me.stage x = s.me.stage x) ∧
        ∀ c, c ≠ s.focus → { t.core c with stages := (s.core c).stages } = s.core c ∧
          ∀ x, { (t.core c).stage x with barFree := ((s.core c).stage x).barFree } = (s.core c).stage x) ∧
    (s.inSplit = false → s.stage.barFree < k → (∃ c ∈ s.stage.group.cores, c ≠ s.focus ∧ ¬ arrived c) →
      Machine.exec (.barGrp g) s = .next (if s.stage.barArrived = k then s else s.modStage fun x => { x with barArrived := k }))

/-! # Counting flags and system registers -/

/-- R166 to R169: arming a flag sets its threshold; a wait consumes the threshold of the lowest ready flag or of all; cf.ffr and cf.stat
read. A wait with no flag ready, or not all, does not commit; a mask of 0 and a threshold of 31 bits or more are ILLOP 0x0B. -/
def Obligations.CountingFlags : Prop :=
  ∀ (s : State) (g : Guard), s.guard g = true →
    (∀ cf r, (s.g r).toNat < 2 ^ 31 → Machine.exec (.cfArmReg g cf r) s =
      completes s (s.modMe fun k => k.modFlag cf.toNat fun f => { f with threshold := (s.g r).setWidth 31 })) ∧
    (∀ cf r, 2 ^ 31 ≤ (s.g r).toNat → Machine.exec (.cfArmReg g cf r) s = faults s (illopT 0x0B) .c) ∧
    (∀ cf imm, Machine.exec (.cfArmImm g cf imm) s =
      completes s (s.modMe fun k => k.modFlag cf.toNat fun f => { f with threshold := imm.setWidth 31 })) ∧
    (∀ d m, bankOk s d →
      (s.g m = 0 → Machine.exec (.cfWaitAny g d m) s = faults s (illopT 0x0B) .c ∧
        Machine.exec (.cfWaitAll g d m) s = faults s (illopT 0x0B) .c) ∧
      (s.g m ≠ 0 →
        (∀ j < 64, (s.g m).getLsbD j = true → (s.me.flag j).ready = true →
          (∀ i < j, (s.g m).getLsbD i = true → (s.me.flag i).ready = false) →
          Machine.exec (.cfWaitAny g d m) s = completes s ((s.modMe fun k => k.modFlag j fun f =>
            { f with value := f.value - f.threshold.setWidth 32 }).setG d
              (BitVec.ofNat 64 ((if (s.me.flag j).err then 2 ^ 63 else 0) + j)))) ∧
        ((∀ j < 64, (s.g m).getLsbD j = true → (s.me.flag j).ready = false) → Machine.exec (.cfWaitAny g d m) s = .next s) ∧
        ((∀ j < 64, (s.g m).getLsbD j = true → (s.me.flag j).ready = true) →
          ∃ t : State, Machine.exec (.cfWaitAll g d m) s = completes s (t.setG d (s.me.errWord &&& s.g m)) ∧
            (∀ j < 64, t.me.flag j = if (s.g m).getLsbD j
              then { (s.me.flag j) with value := (s.me.flag j).value - (s.me.flag j).threshold.setWidth 32 } else s.me.flag j) ∧
            { t.me with cf := s.me.cf } = s.me ∧ { t with cores := s.cores } = s ∧ ∀ c, c ≠ s.focus → t.core c = s.core c) ∧
        ((∃ j < 64, (s.g m).getLsbD j = true ∧ (s.me.flag j).ready = false) → Machine.exec (.cfWaitAll g d m) s = .next s)) ∧
      (∀ j ≤ 64, (j < 64 → (s.g m).getLsbD j = true ∧ (s.me.flag j).ready = true) →
        (∀ i < j, (s.g m).getLsbD i = true → (s.me.flag i).ready = false) →
        Machine.exec (.cfFfr g d m) s = completes s (s.setG d (BitVec.ofNat 64 j)))) ∧
    (∀ cf d, bankOk s d → Machine.exec (.cfStat g cf d) s = completes s (s.setG d
      (BitVec.ofNat 64 ((if (s.me.flag cf.toNat).err then 2 ^ 63 else 0) + (s.me.flag cf.toNat).threshold.toNat * 2 ^ 32 +
        (s.me.flag cf.toNat).value.toNat))))

/-- R27, R28, R170, Table 1.4: sysr returns the register; a hub core below the level that the number asks takes PRIV with that level;
CORE.SAT waits for the stage's quantising reads; a number that Table 1.4 does not give is ILLOP 0x01, one that it gives hub cores
alone is ILLOP 0x04 on a compute core. -/
def Obligations.SysRead : Prop :=
  ∀ (s : State) (g : Guard) (d : GReg), s.guard g = true → bankOk s d →
    (∀ (n : BitVec 12) (v : Word), commonReg s n.toNat = some v → Machine.exec (.sysr g d n) s = completes s (s.setG d v)) ∧
    (∀ k < 16, Machine.exec (.sysr g d (BitVec.ofNat 12 (0x040 + k))) s = completes s (s.setG d (s.me.segment k))) ∧
    (s.hub = false → Machine.exec (.sysr g d 0x020) s = completes s (s.setG d s.me.trapCause) ∧
      Machine.exec (.sysr g d 0x021) s = completes s (s.setG d (s.me.trapPc.setWidth 64))) ∧
    (s.hub = true → ∀ (n : BitVec 12) (v : Word), hubOnlyReg s n.toNat = some v →
      (levelOf n.toNat ≤ s.me.hub.priv.code → Machine.exec (.sysr g d n) s = completes s (s.setG d v)) ∧
      (s.me.hub.priv.code < levelOf n.toNat → Machine.exec (.sysr g d n) s = faults s (privT (levelOf n.toNat)) .c)) ∧
    (s.me.arr.any (satPending s.stg) = false → Machine.exec (.coreSatRead g d) s =
      completes s (s.setG d (if s.ctx.sat then 1 else 0))) ∧
    (s.me.arr.any (satPending s.stg) = true → Machine.exec (.coreSatRead g d) s = .next s) ∧
    (∀ n : BitVec 12,
      (¬ anyNumber n.toNat → ¬ hubNumber n.toNat → Machine.exec (.sysr g d n) s = faults s (illopT 0x01) .c) ∧
      (hubNumber n.toNat → s.hub = false → Machine.exec (.sysr g d n) s = faults s (illopT 0x04) .c))

/-- R23, R28, R29, R32, R37, R170, Tables 1.4 to 1.12: sysw writes the register that the number names, each as its layout says; the
loop registers change after the loop branch of the bundle itself. A number that Table 1.4 makes read-only is PRIV 0 at stage level and
ILLOP 0x04 on a hub core at S and M; at U of a hub core it is PRIV 0, and CORE.CTX, which M alone writes, is PRIV 3 below M: both the
model's choice (log 18). A level that is missing is PRIV with the level; a TRAP.STATE with PPRIV 2 is ILLOP 0x0B, a reserved number
0x01, a hub number on a compute core 0x04, a sysw in split mode 0x0A. -/
def Obligations.SysWrite : Prop :=
  ∀ (s : State) (g : Guard) (r : GReg), s.guard g = true → s.inSplit = false →
    let v := s.g r
    (s.hub = true → s.me.hub.priv = .m → Machine.exec (.sysw g r 0x001) s =
      completes s (s.modMe fun k => { k with ctxOwner := v.extractLsb' 4 4, ctxWorld := v.getLsbD 3 })) ∧
    (v.toNat % 8 < 6 → Machine.exec (.coreRmodeWrite g r) s = completes s (s.modCtx fun x => { x with rmode := v.extractLsb' 0 3 })) ∧
    (6 ≤ v.toNat % 8 → Machine.exec (.coreRmodeWrite g r) s = faults s (illopT 0x0B) .c) ∧
    (Machine.exec (.sysw g r 0x003) s = completes s (s.modCtx fun x => { x with sat := v.getLsbD 0 })) ∧
    (∃ t : State, Machine.exec (.cfErrWrite g r) s = completes s t ∧ { t with cores := s.cores } = s ∧ { t.me with cf := s.me.cf } = s.me ∧
      ∀ j < 64, t.me.flag j = { (s.me.flag j) with err := (s.me.flag j).err && !v.getLsbD j }) ∧
    (∀ j : BitVec 2, ordinary s →
      Machine.exec (.loopCntWrite g r j) s = jumps s (s.setLoop j.toNat ((s.loop j.toNat).writeCnt v)) (s.pc + 32) ∧
      Machine.exec (.loopStartWrite g r j) s = jumps s (s.setLoop j.toNat ((s.loop j.toNat).writeStart s.hub v)) (s.pc + 32)) ∧
    (s.hub = true → 1 ≤ s.me.hub.priv.code →
      (∀ k < 4, (k = 3 → v.extractLsb' 0 2 ≠ 2) →
        (s.me.hub.priv = .s → Machine.exec (.sysw g r (BitVec.ofNat 12 (0x020 + k))) s =
          completes s (s.modMe fun q => { q with hub := { q.hub with bankS := bankWritten q.hub.bankS k v } })) ∧
        (s.me.hub.priv = .m → Machine.exec (.sysw g r (BitVec.ofNat 12 (0x020 + k))) s =
          completes s (s.modMe fun q => { q with hub := { q.hub with bankM := bankWritten q.hub.bankM k v } }) ∧
          Machine.exec (.sysw g r (BitVec.ofNat 12 (0x028 + k))) s =
          completes s (s.modMe fun q => { q with hub := { q.hub with bankS := bankWritten q.hub.bankS k v } }))) ∧
      Machine.exec (.hubStatusWrite g r) s = completes s (s.modMe fun k => { k with hub := { k.hub with ie := v.getLsbD 2 } }) ∧
      Machine.exec (.sysw g r 0x031) s = completes s (s.modMe fun k => { k with hub := { k.hub with irqEn := v.extractLsb' 0 4 } }) ∧
      Machine.exec (.cycCmpWrite g r) s = completes s { s with cycCmp := v, cmpHit := false }) ∧
    (∀ n : BitVec 12,
      (fixedNumber n.toNat ∨ (s.hub = false ∧ (n = 0x001 ∨ n = 0x020 ∨ n = 0x021)) ∨ (s.hub = true ∧ n = 0x032) →
        (s.hub = false ∨ s.me.hub.priv = .u → Machine.exec (.sysw g r n) s = faults s (privT 0) .c) ∧
        (s.hub = true → s.me.hub.priv ≠ .u → Machine.exec (.sysw g r n) s = faults s (illopT 0x04) .c)) ∧
      (¬ anyNumber n.toNat → ¬ hubNumber n.toNat → Machine.exec (.sysw g r n) s = faults s (illopT 0x01) .c) ∧
      (hubNumber n.toNat → s.hub = false → Machine.exec (.sysw g r n) s = faults s (illopT 0x04) .c)) ∧
    (s.hub = true →
      (s.me.hub.priv ≠ .m → Machine.exec (.sysw g r 0x001) s = faults s (privT 3) .c) ∧
      (v.extractLsb' 0 2 = 2 → Machine.exec (.sysw g r 0x023) s = faults s (illopT 0x0B) .c ∧
        Machine.exec (.sysw g r 0x02B) s = faults s (illopT 0x0B) .c) ∧
      (∀ k < 4, (k = 3 → v.extractLsb' 0 2 ≠ 2) →
        (s.me.hub.priv = .u → Machine.exec (.sysw g r (BitVec.ofNat 12 (0x020 + k))) s = faults s (privT 1) .c) ∧
        (s.me.hub.priv ≠ .m → Machine.exec (.sysw g r (BitVec.ofNat 12 (0x028 + k))) s = faults s (privT 3) .c)) ∧
      (s.me.hub.priv = .u → ∀ i, i = .hubStatusWrite g r ∨ i = .sysw g r 0x031 ∨ i = .cycCmpWrite g r →
        Machine.exec i s = faults s (privT 1) .c)) ∧
    ∀ (u : State) (h : Guard) (n : BitVec 12), u.inSplit = true →
      (anyNumber n.toNat ∨ (u.hub = true ∧ hubNumber n.toNat) → Machine.exec (.sysw h r n) u = faults u (illopT 0x0A) .c) ∧
      (∀ i, i = .coreRmodeWrite h r ∨ i = .cfErrWrite h r ∨ (∃ j, i = .loopCntWrite h r j) ∨ (∃ j, i = .loopStartWrite h r j) →
        Machine.exec i u = faults u (illopT 0x0A) .c)


/-! # Queues -/

/-- R234 to R243: reads of the head entry of a named iq. A pop reads the next word of the tile's rows, counting the tile when it begins
it, and removes the tile with its last word or with .T; a tile without rows gives 0. qpeek and qhead read, whatever the head holds,
qskip removes. A form with its stall bit clear clears p7. Removing an entry resets the cursor and returns one free-slot notice along
the port's circuit; where a token has taken its slot there without a credit, the notice pays for it (log 38). -/
def Obligations.QueueReads : Prop :=
  (∀ (s : State) (n : BitVec 4) (e : Entry) (stall : Bool), iqNamed s n.toNat → anyTileAt s n.toNat e →
    (∀ (d : GReg) (beat : BitVec 6) (w : BitVec 3), bankOk s d → Machine.exec (.qpeek d n stall beat w) s =
      completes s (ready7 stall (s.setG d (elem 64 w.toNat (e.beat beat.toNat))))) ∧
    (∀ (d : GReg) (w : BitVec 3), bankOk s d → Machine.exec (.qhead d n stall w) s =
      completes s (ready7 stall (s.setG d (elem 64 w.toNat e.head)))) ∧
    (badHead e.head = false → mayTake s n.toNat →
      Machine.exec (.qskip n stall) s = completes s (ready7 stall ((begun s n.toNat).takeHead n.toNat)) ∧
      ∀ (d : GReg) (t : Bool), bankOk s d →
        (hRows e.head = 0 → Machine.exec (.qpop d n stall t) s =
          completes s (ready7 stall (((begun s n.toNat).takeHead n.toNat).setG d 0))) ∧
        (hRows e.head ≠ 0 → t = true ∨ popNext s n.toNat e = 1 + hScb e.head + 2 * hRows e.head →
          Machine.exec (.qpop d n stall t) s = completes s (ready7 stall (((begun s n.toNat).takeHead n.toNat).setG d
            (elem 64 (s.iq s.focus n.toNat).word (e.beat (popBeat s n.toNat e)))))) ∧
        (hRows e.head ≠ 0 → t = false → popNext s n.toNat e ≠ 1 + hScb e.head + 2 * hRows e.head →
          Machine.exec (.qpop d n stall t) s = completes s (ready7 stall (((begun s n.toNat).modIq s.focus n.toNat fun x =>
            { x with beat := popNext s n.toNat e, word := ((s.iq s.focus n.toNat).word + 1) % 8 }).setG d
            (elem 64 (s.iq s.focus n.toNat).word (e.beat (popBeat s n.toNat e)))))))) ∧
  (∀ (s : State) (n : BitVec 4) (e : Entry) (stall : Bool), iqNamed s n.toNat → markerAtHead s n.toNat e →
    Machine.exec (.qskip n stall) s = completes s (ready7 stall (s.takeHead n.toNat)) ∧
    ∀ (d : GReg) (w : BitVec 3), bankOk s d → Machine.exec (.qhead d n stall w) s =
      completes s (ready7 stall (s.setG d (elem 64 w.toNat e.head)))) ∧
  (∀ (s : State) (n : Nat) (e : Entry) (rest : List Entry), (s.iq s.focus n).q = e :: rest →
    let t := s.takeHead n
    (t.iq s.focus n).q = rest ∧ (t.iq s.focus n).beat = 0 ∧ (t.iq s.focus n).word = 0 ∧
    (∀ c m, (s.iq s.focus n).bind = .route c m → (t.oq c m).notices = (s.oq c m).notices + 1) ∧
    (∀ id, (s.iq s.focus n).bind = .circ id →
      ((s.iq s.focus n).owed = 0 → (t.circ id).credOut = (s.circ id).credOut + 1) ∧
      ((s.iq s.focus n).owed ≠ 0 → t.circ id = s.circ id ∧ (t.iq s.focus n).owed = (s.iq s.focus n).owed - 1)) ∧ t.mem = s.mem)

/-- R236, R237, R244 to R246: a scalar push appends its word to the open tile, opening one with a credit and its head where none is open,
and closes it with .T; closing sets ROWS to the rows begun, the last filled with zeros; qmark and qcopy push a whole entry for one
credit. -/
def Obligations.QueuePushes : Prop :=
  ∀ (s : State) (n : BitVec 4) (stall : Bool), oqNamed s n.toNat →
    (∀ (r : GReg) (t : Bool), mayPush s n.toNat →
      let s1 := added (opened s n.toNat false (pushHead s 11)) n.toNat [s.g r]
      Machine.exec (.qpush r n stall t) s = completes s (ready7 stall (if t then s1.closeTile n.toNat else s1))) ∧
    ((s.oq s.focus n.toNat).failed = false → (s.oq s.focus n.toNat).credits ≠ 0 → (s.oq s.focus n.toNat).cur = none →
      (∀ (r : GReg) (k : MarkKind), Machine.exec (.qmark r n stall k) s = completes s (ready7 stall
        ((s.takeCredit s.focus n.toNat).sendEntry s.focus n.toNat { kind := .marker, beats := [BitVec.ofNat 512
          ((match k with | .cb => 9 | .ce => 10 | .user => 11) + s.ctx.charge.toNat * 2 ^ 32 + low 32 (s.g r) * 2 ^ 64)] }))) ∧
      (∀ (m : BitVec 4) (e : Entry), iqNamed s m.toNat → (s.iq s.focus m.toNat).beat = 0 → markerAtHead s m.toNat e →
        Machine.exec (.qcopy m n stall) s = completes s (ready7 stall ((s.takeHead m.toNat).pushEntry s.focus n.toNat e))) ∧
      (∀ (m : BitVec 4) (e : Entry), iqNamed s m.toNat → (s.iq s.focus m.toNat).beat = 0 → tileAt s m.toNat e →
        (s.iq s.focus m.toNat).popped < s.stage.rateIn m.toNat → (s.oq s.focus n.toNat).pushed < s.stage.rateOut n.toNat →
        Machine.exec (.qcopy m n stall) s = completes s (ready7 stall ((((s.countPop s.focus m.toNat).modOq s.focus n.toNat
          fun x => { x with pushed := x.pushed + 1 }).takeHead m.toNat).pushEntry s.focus n.toNat e)))) ∧
    (∀ o : OpenTile, (s.oq s.focus n.toNat).cur = some o →
      let rows := (o.words.length + 15) / 16
      ∃ e : Entry, s.closeTile n.toNat = (s.modOq s.focus n.toNat fun x => { x with cur := none }).sendEntry s.focus n.toNat e ∧
        e.kind = .tile ∧ e.head = o.head ||| BitVec.ofNat 512 (rows * 2 ^ 8) ∧ e.beats.length = 1 + 2 * rows ∧
        (hScb o.head = 0 → rows < 32 → ∀ k < rows, ∀ j < 16, elem 64 j (e.row k) = o.words.getD (16 * k + j) 0))

/-- R80, R235, R238 to R241, R244 to R246: where the head entry is absent a stalling form waits and the other writes p7 and nothing else,
as it does for a marker in the way of a pop; a stalling pop at a marker is ILLOP 0x48, a reserved head value 0x4E to a pop, an empty
port of a failed circuit CIRCFAIL; a port that is not the stage's is ILLOP 0x49, an unbound one 0x09, another stream's 0x04, for
reads, pushes and copies, whatever the queue holds: that these come before any wait is the model's choice (log 19). A tile beyond the
rate is QRATE with the port's field value; a push to a tile of the other origin, or a marker in an open tile, is ILLOP 0x4A, a push to
a full tile 0x4D, a copy with a cursor off beat 0 is 0x4B. A copy waits, or writes p7, for its entry and for its credit, and takes the
fault of either port. That qskip and qcopy fault at a reserved head value is the model's reading (log 26): R235 speaks of a pop. -/
def Obligations.QueueStops : Prop :=
  (∀ (i : Instr) (s : State) (n : Nat) (stall noMark : Bool), readsIq i = some (n, stall, noMark) → bankOk s (queueDest i) →
    (s.inSplit = true → n ≠ 12 + s.stream → Machine.exec i s = faults s (illopT 0x04) .q) ∧
    ((s.inSplit = true → n = 12 + s.stream) →
      ((s.iq s.focus n).owner ≠ some s.stg ∨ s.stage.rateIn n = 0 → Machine.exec i s = faults s (illopT 0x49) .q) ∧
      ((s.iq s.focus n).owner = some s.stg → s.stage.rateIn n ≠ 0 → (s.iq s.focus n).bind = .unbound →
        Machine.exec i s = faults s (illopT 0x09) .q)) ∧
    (iqNamed s n →
      ((s.iq s.focus n).q = [] → stall = false → Machine.exec i s = completes s (s.setP 7 true)) ∧
      ((s.iq s.focus n).q = [] → stall = true → (s.iq s.focus n).failed = false → Machine.exec i s = .next s) ∧
      ((s.iq s.focus n).q = [] → stall = true → (s.iq s.focus n).failed = true → Machine.exec i s = faults s ⟨0x0C, n, 0⟩ .q) ∧
      (∀ e, markerAtHead s n e → noMark = true →
        Machine.exec i s = if stall then faults s (illopT 0x48) .q else completes s (s.setP 7 true)) ∧
      (∀ e, tileAt s n e → (s.iq s.focus n).beat = 0 → s.stage.rateIn n ≤ (s.iq s.focus n).popped →
        (∃ d iq st t, i = .qpop d iq st t) ∨ (∃ iq st, i = .qskip iq st) → Machine.exec i s = faults s ⟨0x07, n, 0⟩ .q) ∧
      (∀ e, anyTileAt s n e → badHead e.head = true →
        (∃ d iq st t, i = .qpop d iq st t) ∨ (∃ iq st, i = .qskip iq st) → Machine.exec i s = faults s (illopT 0x4E) .q))) ∧
  (∀ (i : Instr) (s : State) (n : Nat) (stall : Bool), pushesOq i = some (n, stall) →
    (s.inSplit = true → n ≠ 12 + s.stream → Machine.exec i s = faults s (illopT 0x04) .q) ∧
    ((s.inSplit = true → n = 12 + s.stream) →
      ((s.oq s.focus n).owner ≠ some s.stg ∨ s.stage.rateOut n = 0 → Machine.exec i s = faults s (illopT 0x49) .q) ∧
      ((s.oq s.focus n).owner = some s.stg → s.stage.rateOut n ≠ 0 → (s.oq s.focus n).bind = .unbound →
        Machine.exec i s = faults s (illopT 0x09) .q)) ∧
    (oqNamed s n → (s.oq s.focus n).failed = false → (s.oq s.focus n).credits ≠ 0 →
      ((∃ r oq st t, i = .qpush r oq st t) → (s.oq s.focus n).cur = none → s.stage.rateOut n ≤ (s.oq s.focus n).pushed →
        Machine.exec i s = faults s ⟨0x07, 16 + n, 0⟩ .q) ∧
      (∀ o : OpenTile, (s.oq s.focus n).cur = some o →
        ((∃ r oq st k, i = .qmark r oq st k) → Machine.exec i s = faults s (illopT 0x4A) .q) ∧
        ((∃ r oq st t, i = .qpush r oq st t) → o.byV = true → Machine.exec i s = faults s (illopT 0x4A) .q) ∧
        ((∃ r oq st t, i = .qpush r oq st t) → o.byV = false → 256 ≤ o.words.length →
          Machine.exec i s = faults s (illopT 0x4D) .q))) ∧
    (oqNamed s n → (s.oq s.focus n).cur = none →
      ((s.oq s.focus n).failed = false → (s.oq s.focus n).credits = 0 →
        Machine.exec i s = if stall then .next s else completes s (s.setP 7 true)) ∧
      ((s.oq s.focus n).failed = true →
        Machine.exec i s = if stall then faults s ⟨0x0C, 16 + n, 0⟩ .q else completes s (s.setP 7 true)))) ∧
  (∀ (s : State) (m n : BitVec 4) (stall : Bool),
    let copy := Machine.exec (.qcopy m n stall) s
    let p := s.iq s.focus m.toNat
    let o := s.oq s.focus n.toNat
    let headIs (token : Bool) : Prop := ∃ e, p.q.head? = some e ∧ decide (e.kind = .token) = token
    let room := o.failed = true ∨ o.credits ≠ 0
    (s.inSplit = true → m.toNat ≠ 12 + s.stream ∨ n.toNat ≠ 12 + s.stream → (m.toNat ≠ 12 + s.stream ∨ iqNamed s m.toNat) →
      copy = faults s (illopT 0x04) .q) ∧
    ((s.inSplit = true → m.toNat = 12 + s.stream) →
      (p.owner ≠ some s.stg ∨ s.stage.rateIn m.toNat = 0 → copy = faults s (illopT 0x49) .q) ∧
      (p.owner = some s.stg → s.stage.rateIn m.toNat ≠ 0 → p.bind = .unbound → copy = faults s (illopT 0x09) .q)) ∧
    (iqNamed s m.toNat → (s.inSplit = true → n.toNat = 12 + s.stream) →
      (o.owner ≠ some s.stg ∨ s.stage.rateOut n.toNat = 0 → copy = faults s (illopT 0x49) .q) ∧
      (o.owner = some s.stg → s.stage.rateOut n.toNat ≠ 0 → o.bind = .unbound → copy = faults s (illopT 0x09) .q)) ∧
    (iqNamed s m.toNat → oqNamed s n.toNat →
      (stall = true → (p.q = [] ∧ p.failed = false) ∨ headIs true ∨ ¬ room → copy = .next s) ∧
      (p.beat ≠ 0 ∨ o.cur ≠ none → (stall = true → (headIs false ∨ (p.q = [] ∧ p.failed = true)) ∧ room) →
        copy = faults s (illopT 0x4B) .q) ∧
      (p.beat = 0 → o.cur = none →
        (p.q = [] → p.failed = true → stall = true → room → copy = faults s ⟨0x0C, m.toNat, 0⟩ .q) ∧
        (headIs false → o.failed = true → stall = true → copy = faults s ⟨0x0C, 16 + n.toNat, 0⟩ .q) ∧
        (stall = false → p.q = [] ∨ headIs true ∨ o.failed = true ∨ o.credits = 0 → copy = completes s (s.setP 7 true)) ∧
        (o.failed = false → o.credits ≠ 0 → ∀ e, anyTileAt s m.toNat e →
          (badHead e.head = true → copy = faults s (illopT 0x4E) .q) ∧
          (badHead e.head = false → s.stage.rateIn m.toNat ≤ p.popped → copy = faults s ⟨0x07, m.toNat, 0⟩ .q) ∧
          (badHead e.head = false → p.popped < s.stage.rateIn m.toNat → s.stage.rateOut n.toNat ≤ o.pushed →
            copy = faults s ⟨0x07, 16 + n.toNat, 0⟩ .q)))))

/-- R247 to R249: qfree gives the credits, qavail the tiles ahead of the first marker with 32 added when a marker is present, qstat
the port word of Table 10.3: FAILED, for an iq whether its head is a marker, the count of tiles, the cursor, and for an iq its
entries and capacity, for an oq its credits; epop takes the oldest entry of the stage, waiting or writing p7 where it is not filled. -/
def Obligations.QueueStatus : Prop :=
  ∀ (s : State) (d : GReg), bankOk s d →
    (∀ n : BitVec 4, oqNamed s n.toNat → Machine.exec (.qfree d n) s =
      completes s (s.setG d (BitVec.ofNat 64 (s.oq s.focus n.toNat).credits))) ∧
    (∀ n : BitVec 4, iqNamed s n.toNat → Machine.exec (.qavail d n) s = completes s (s.setG d (BitVec.ofNat 64
      (((s.iq s.focus n.toNat).q.takeWhile fun e => decide (e.kind = .tile)).length +
        if (s.iq s.focus n.toNat).q.any fun e => decide (e.kind = .marker) then 32 else 0)))) ∧
    (∀ n : BitVec 5, n.toNat < 16 → iqNamed s n.toNat →
      let p := s.iq s.focus n.toNat
      Machine.exec (.qstat d n) s = completes s (s.setG d (BitVec.ofNat 64 ((if p.failed then 2 ^ 47 else 0) +
        (if p.q.head?.any fun e => decide (e.kind = .marker) then 2 ^ 46 else 0) + p.popped * 2 ^ 32 + p.word * 2 ^ 24 + p.beat * 2 ^ 16 +
        (p.q.countP fun e => decide (e.kind ≠ .token)) * 2 ^ 8 + p.cap)))) ∧
    (∀ n : BitVec 5, 16 ≤ n.toNat → oqNamed s (n.toNat - 16) →
      let p := s.oq s.focus (n.toNat - 16)
      let cursor : Nat := match p.cur with
        | some o => o.words.length % 8 * 2 ^ 24 + (1 + o.words.length / 8) * 2 ^ 16
        | none => 0
      Machine.exec (.qstat d n) s =
        completes s (s.setG d (BitVec.ofNat 64 ((if p.failed then 2 ^ 47 else 0) + p.pushed * 2 ^ 32 + cursor + p.credits)))) ∧
    (∀ (e : BitVec 5) (stall : Bool),
      ((∀ x ∈ s.me.rqOf e.toNat, x.stage ≠ s.stg) →
        Machine.exec (.epop d e stall) s = if stall then faults s (illopT 0x4C) .q else completes s (s.setP 7 true)) ∧
      (∀ pre x post, s.me.rqOf e.toNat = pre ++ x :: post → (∀ y ∈ pre, y.stage ≠ s.stg) → x.stage = s.stg →
        (x.val = none → Machine.exec (.epop d e stall) s = if stall then .next s else completes s (s.setP 7 true)) ∧
        (∀ v, x.val = some v → (∀ y ∈ pre ++ post, y.id ≠ x.id) → Machine.exec (.epop d e stall) s =
          completes s (ready7 stall ((s.modMe fun k => k.setRq e.toNat (pre ++ post)).setG d v)))))

/-- R213, R214: vqpop takes the head tile into registers, rows cut to ROWB bytes and zeros beyond the tile, and counts it; vqpush appends
the rows of its registers to the port's open tile of its format, opening one with a credit, and closes it when its close bit is set. That
a vqpop does not count again a tile that a qpop has begun is the model's reading of R213 with R238 (log 26). -/
def Obligations.QueueTiles : Prop :=
  (∀ (s : State) (h : VHead) (vd : BitVec 8) (ga : GReg) (n : Nat) (e : Entry), (s.g ga).toNat % 32 = n → n < 16 →
    tileReady s h vd → iqNamed s n → tileAt s n e → mayTake s n →
    ∃ t : State, Machine.exec (.vqpop h vd ga) s = completes s t ∧
      (∀ j < 4, ∀ r < 4, elem 1024 r (t.v (tileReg s h vd j).1 (tileReg s h vd j).2) =
        if 4 * j + r < hRows e.head then BitVec.ofNat 1024 ((e.row (4 * j + r)).toNat % 2 ^ (8 * hRowb e.head)) else 0) ∧
      (∀ c < 4, ∀ x < 256, (∀ j < 4, (c, x) ≠ tileReg s h vd j) → t.v c x = s.v c x) ∧
      (∀ m, t.iq s.focus m = ((begun s n).takeHead n).iq s.focus m) ∧ (∀ a, t.byte a = s.byte a) ∧
      { t.me with v := s.me.v, iq := s.me.iq, oq := s.me.oq, stages := s.me.stages } = s.me) ∧
  (∀ (s : State) (h : VHead) (ty : Ty) (close : Bool) (vd : BitVec 8) (ga gb : GReg) (n : Nat),
    (s.g ga).toNat % 32 = 16 + n → tileReady s h vd → oqNamed s n → 1 ≤ (s.g gb).toNat % 32 → (s.g gb).toNat % 32 ≤ 16 →
    (s.oq s.focus n).failed = false →
    (∀ o, (s.oq s.focus n).cur = some o →
      o.byV = true ∧ hFmt o.head = ty.code.toNat ∧ o.words.length + 16 * ((s.g gb).toNat % 32) ≤ 256) →
    ((s.oq s.focus n).cur = none → (s.oq s.focus n).credits ≠ 0 ∧ (s.oq s.focus n).pushed < s.stage.rateOut n) →
    let s1 := added (opened s n true (pushHead s ty.code.toNat)) n
      ((List.range (16 * ((s.g gb).toNat % 32))).map fun w =>
        elem 64 (w % 64) (s.v (tileReg s h vd (w / 64)).1 (tileReg s h vd (w / 64)).2))
    Machine.exec (.vqpush h ty close vd ga gb) s = completes s (if close then s1.closeTile n else s1))

/-! # Vector operations -/

/-- R171 to R185: in every executing cluster each element of an active lane of vd becomes the operation's result on the elements of the
same place of its sources; every other lane and register keeps its value, and CORE.SAT becomes 1 where an element saturates. -/
def Obligations.VectorElements : Prop :=
  ∀ (i : Instr) (row : ElemRow), i.wf = true → elemRow i = some row → ∀ s : State, vReady s row.h (row.vd :: row.srcs) →
    let xs (c l e : Nat) : List Lane := row.srcs.map fun f => laneElem row.w e (lane (vr s row.h c f) l)
    ∃ (t : State) (new : Nat → Nat → Lane), Machine.exec i s = completes s t ∧
      lanesWritten s t row.h row.vd (active s row.h) new ∧
      (∀ c l e, e < 32 / row.w → laneElem row.w e (new c l) = ((row.f s (xs c l e)).setWidth row.w).setWidth 32) ∧
      t.ctx.sat = (s.ctx.sat || someLane s row.h fun c l => (List.range (32 / row.w)).any fun e => row.sat (xs c l e))

/-- R186 to R194, R200 to R208: conversions, packing, block scales, selects, permutes, reads by index, reductions and scans write each
active lane of vd (a reduction and vargmax every lane), set CORE.SAT where they saturate, and change nothing else. The sign of a zero
prefix of vscan and that it refuses f4 are the model's choices (log 68), and -127 for an overflow of vquant into i8 is its reading of
R193 (log 27). -/
def Obligations.VectorLanes : Prop :=
  ∀ (i : Instr) (row : LaneRow), i.wf = true → laneRow i = some row → ∀ s : State, vReady s row.h (row.vd :: row.srcs) → row.ok s →
    ∃ t : State, Machine.exec i s = completes s t ∧
      lanesWritten s t row.h row.vd (fun c l => row.all || active s row.h c l) (row.new s) ∧
      t.ctx.sat = (s.ctx.sat || row.sat s)

/-- R186, R209: a compare writes the bits of md that its own mask selects, a mask operation all 128; a write to m0 is discarded. -/
def Obligations.VectorMasks : Prop :=
  (∀ (i : Instr) (row : MaskRow) (s : State), i.wf = true → maskRow i = some row → s.hub = false →
    (s.inSplit = true ∨ row.cl ≠ 0) → (s.inSplit = true → s.stream < 4) → s.me.vBusy = false →
    (∀ j ∈ row.md :: row.masks, s.stage.hasMask j.toNat = true) →
    ∃ t : State, Machine.exec i s = completes s t ∧ maskWritten s t (s.clusters row.cl) row.md.toNat (row.new s)) ∧
  (∀ (cc : VcmpCc) (h : VHead) (ty : Ty) (md : BitVec 4) (va vb : BitVec 8) (s : State), h.ind = false →
    vReady s h [va, vb] → s.stage.hasMask md.toNat = true →
    ∃ t : State, Machine.exec (.vcmp cc h ty md va vb) s = completes s t ∧
      maskWritten s t (s.clusters h.cl) md.toNat fun c => packN 128 1 128 fun l => BitVec.ofBool
        (if active s h c l then (List.range (32 / ty.width)).all fun e => vcmpHolds cc
          (tyValue ty (laneElem ty.width e (lane (vr s h c va) l))) (tyValue ty (laneElem ty.width e (lane (vr s h c vb) l)))
        else (s.mask c md.toNat).getLsbD l))

/-- R195 to R199: every accessed lane of a load takes the four bytes at its own address; a store writes the lanes in ascending position,
so that the highest stays where two meet, and no other byte changes; vld and vst need their base aligned to 128: that a misaligned
base below 2^40 is ALIGN whatever SEGV a lane would give is the model's reading (log 25). -/
def Obligations.VectorMemory : Prop :=
  ∀ (i : Instr) (row : AddrRow), addrRow i = some row → ∀ (s : State) (pa : Nat → Nat → Nat),
    vReady s row.h (row.vd :: row.srcs) →
    (row.base s →
      (∀ x ∈ s.accessed row.h, s.tr (if row.store then .st else .ld) (row.addr s x.1 x.2) 4 4 = .ok (pa x.1 x.2)) →
      (row.store = false → (∀ x ∈ s.accessed row.h, s.badIn (pa x.1 x.2) 4 = false) →
        ∃ t : State, Machine.exec i s = completes s t ∧
          lanesWritten s t row.h row.vd (active s row.h) fun c l => BitVec.ofNat 32 (value s (pa c l) 4)) ∧
      (row.store = true →
        ∃ t : State, Machine.exec i s = completes s t ∧ { t with mem := s.mem, eccBad := s.eccBad, eccSeen := s.eccSeen } = s ∧
          (∀ x ∈ s.accessed row.h, (∀ y ∈ s.accessed row.h, s.position x.1 x.2 < s.position y.1 y.2 → pa y.1 y.2 ≠ pa x.1 x.2) →
            ∀ b < 4, t.byte (pa x.1 x.2 + b) = elem 8 b (lane (vr s row.h x.1 row.vd) x.2)) ∧
          ∀ a, (∀ x ∈ s.accessed row.h, a < pa x.1 x.2 ∨ pa x.1 x.2 + 4 ≤ a) → t.byte a = s.byte a)) ∧
    (∀ (h : VHead) (vd : BitVec 8) (ga : GReg) (off : BitVec 8), i = .vld h vd ga off ∨ i = .vst h vd ga off →
      let ea := s.g ga + BitVec.ofInt 64 (128 * off.toInt)
      ea.toNat % 128 ≠ 0 → (s.accessed h = [] ∨ ea.toNat < 2 ^ 40) → Machine.exec i s = faults s (alignT (low 40 ea)) .v)

/-- R200, R201, R204: vrput writes lane l of vB to the register and lane that lane l of vA names from vd on; kset sets an index register
of each executing cluster to g(b) + E x cluster, and above 511 is ILLOP 0x0B. That g(b) is unsigned there and the sum exact is the
model's choice (log 67). -/
def Obligations.VectorIndexed : Prop :=
  (∀ (h : VHead) (vd va vb : BitVec 8) (s : State), vReady s h [vd, va, vb] →
    let reg (c l : Nat) : Nat := s.vnum h.ind c vd + (lane (vr s h c va) l).toNat / 128
    let at_ (c l : Nat) : Nat := (lane (vr s h c va) l).toNat % 128
    (∀ c ∈ s.clusters h.cl, ∀ l < 128, active s h c l = true → reg c l ≤ 255 ∧ s.stage.hasV (reg c l) = true) →
    ∃ t : State, Machine.exec (.vrput h vd va vb) s = completes s t ∧ vectorFrame s t ∧ t.ctx.sat = s.ctx.sat ∧
      (∀ c ∈ s.clusters h.cl, ∀ l < 128, active s h c l = true →
        (∀ k < 128, l < k → active s h c k = true → reg c k ≠ reg c l ∨ at_ c k ≠ at_ c l) →
        lane (t.v c (reg c l)) (at_ c l) = lane (vr s h c vb) l) ∧
      (∀ c < 4, ∀ r < 256, ∀ j < 128,
        (c ∉ s.clusters h.cl ∨ ∀ l < 128, active s h c l = true → reg c l ≠ r ∨ at_ c l ≠ j) → lane (t.v c r) j = lane (s.v c r) j)) ∧
  (∀ (cl : BitVec 4) (kd : BitVec 3) (gb : GReg) (e : BitVec 8) (s : State), s.hub = false → (s.inSplit = true ∨ cl ≠ 0) →
    (s.inSplit = true → s.stream < 4) → s.me.vBusy = false →
    ((∀ c ∈ s.clusters cl, (s.g gb).toNat + e.toNat * c ≤ 511) →
      ∃ t : State, Machine.exec (.kset cl kd gb e) s = completes s t ∧ { t with cores := s.cores } = s ∧
        (∀ c, c ≠ s.focus → t.core c = s.core c) ∧ { t.me with ctxs := s.me.ctxs } = s.me ∧ { t.ctx with k := s.ctx.k } = s.ctx ∧
        (∀ c ∈ s.clusters cl, (t.kreg c kd.toNat).toNat = (s.g gb).toNat + e.toNat * c) ∧
        ∀ c < 4, ∀ j < 8, (c ∉ s.clusters cl ∨ j ≠ kd.toNat) → t.kreg c j = s.kreg c j) ∧
    ((∃ c ∈ s.clusters cl, 511 < (s.g gb).toNat + e.toNat * c) → Machine.exec (.kset cl kd gb e) s = faults s (illopT 0x0B) .v))

/-- R210 to R212: vcmpr.st packs the elements of the accessed lanes into a sparse object: header, bitmap and the elements that are not
zero; with too little room it faults with OVERFLOW 1, or with .nf clears p6. vexpd.ld deals the stored elements of such an object
back to the set bits and zero to the others. -/
def Obligations.SparseObjects : Prop :=
  (∀ (h : VHead) (ty : Ty) (nf : Bool) (vd : BitVec 8) (ga gb : GReg) (s : State), vReady s h [vd] → ty ≠ .f4 →
    (s.g ga).toNat % 64 = 0 →
    let xs := inputsOf s h ty vd
    let stored := xs.filter fun x => x != 0
    let maskb := (xs.length + 511) / 512 * 64
    let used := (16 + maskb + stored.length * (ty.width / 8) + 63) / 64 * 64
    ((s.g gb).toNat < used → Machine.exec (.vcmprSt h ty nf vd ga gb) s =
      if nf then completes s (s.setP 6 false) else faults s ⟨0x08, 1, 0⟩ .v) ∧
    (used ≤ (s.g gb).toNat → ∀ pa, (∀ j < used / 4, s.tr .st (s.g ga + BitVec.ofNat 64 (4 * j)) 4 4 = .ok (pa + 4 * j)) →
      ∃ t : State, Machine.exec (.vcmprSt h ty nf vd ga gb) s = completes s (if nf then t.setP 6 true else t) ∧
        { t with mem := s.mem, eccBad := s.eccBad, eccSeen := s.eccSeen } = s ∧
        value t pa 16 = 1 + ty.code.toNat * 2 ^ 8 + xs.length * 2 ^ 16 + stored.length * 2 ^ 32 + maskb * 2 ^ 48 + used * 2 ^ 64 ∧
        (∀ j < 8 * maskb, (value t (pa + 16) maskb).testBit j = decide (xs.getD j 0 ≠ 0)) ∧
        (∀ j < stored.length, value t (pa + 16 + maskb + ty.width / 8 * j) (ty.width / 8) = (stored.getD j 0).toNat) ∧
        ∀ a, a < pa ∨ pa + used ≤ a → t.byte a = s.byte a)) ∧
  (∀ (h : VHead) (ty : Ty) (vd : BitVec 8) (ga : GReg) (s : State) (pa : Nat), vReady s h [vd] → ty ≠ .f4 →
    (s.g ga).toNat % 64 = 0 →
    let count := (s.accessed h).length * (32 / ty.width)
    let size := ty.width / 8
    let maskb := (count + 511) / 512 * 64
    let nnz := value s (pa + 4) 2
    let bits := value s (pa + 16) maskb
    value s pa 1 = 1 → value s (pa + 1) 1 = ty.code.toNat → value s (pa + 2) 2 = count → value s (pa + 6) 2 = maskb →
    value s (pa + 8) 4 = (16 + maskb + nnz * size + 63) / 64 * 64 → bits < 2 ^ count →
    ((List.range count).countP fun j => bits.testBit j) = nnz →
    (∀ j < (16 + maskb + nnz * size + 3) / 4, s.tr .ld (s.g ga + BitVec.ofNat 64 (4 * j)) 4 4 = .ok (pa + 4 * j) ∧
      s.badIn (pa + 4 * j) 4 = false) →
    ∃ t : State, Machine.exec (.vexpdLd h ty vd ga) s = completes s t ∧
      lanesWritten s t h vd (active s h) fun c l => packElems ty.width fun e =>
        let j := 32 / ty.width * rankOf s h c l + e
        if bits.testBit j then
          BitVec.ofNat 32 (value s (pa + 16 + maskb + size * ((List.range j).countP fun m => bits.testBit m)) size)
        else 0)

/-! # The matrix array -/

/-- R216 to R232: each operation of the MX form enters the array with its operands captured, or acts on an idle tile; mwait, mstat and a
clear wait for the array, an mma for a fill of its bat, a slice source for the slice writes before it; a bank group shared by a fill
stream and an A stream is BGCONF, for a slice and for a stream port. That operands are captured at issue is the model's choice (log 2),
and so is when that conflict is raised (log 52); which of the old and new bytes a stream delivers that the core wrote after its
commit is free (log 8). That an mma does not count again a tile that a qpop has begun (log 26), and that an error in bytes which the
operand does not read poisons no row (log 27), are the model's readings. -/
def Obligations.MatrixIssue : Prop :=
  ∀ (s : State) (pg : PReg), xReady s pg → s.hub = false →
    (∀ (b : Bool) (t : Ty) (form : BatForm), s.stage.hasBat b.toNat = true →
      let set (k : Core) : Core := k.setBat b.toNat fun x => { x with fmt := t.code, werr := false }
      let fill (o : Operand) (g : List Nat) : ArrOp := .fillW b.toNat form (fillBytes s o) (badWord s o) g
      (∀ j pa, sliceAt s .ld j 12288 pa → s.me.noSliceWrite = true →
        (groupsFree s.me.aStreams (groupsOf pa 12288) → Machine.exec (.mbatLd pg b (.slice j) t form) s =
          completes s (s.modMe fun k => entersArray (fill (sliceOf s pa 12288) (groupsOf pa 12288)) (set k))) ∧
        (∀ g, groupTaken s.me.aStreams (groupsOf pa 12288) g →
          Machine.exec (.mbatLd pg b (.slice j) t form) s = faults s (bgconfT g) .x)) ∧
      (∀ n : BitVec 2, streamGives s n.toNat 12288 →
        (groupsFree s.me.aStreams (s.me.port n.toNat).groups →
          Machine.exec (.mbatLd pg b (.sp n) t form) s = completes s ((s.spTake n.toNat 12288).modMe fun k =>
            entersArray (fill (streamOf s (s.me.port n.toNat) 12288) (s.me.port n.toNat).groups) (set k))) ∧
        (∀ g, groupTaken s.me.aStreams (s.me.port n.toNat).groups g →
          Machine.exec (.mbatLd pg b (.sp n) t form) s = faults s (bgconfT g) .x))) ∧
    (∀ b : Bool, s.stage.hasBat b.toNat = true →
      Machine.exec (.mbatSel pg b) s = completes s (s.modMe fun k => { k with activeBat := b })) ∧
    (∀ (b : Bool) (n : Nat), s.stage.hasBat b.toNat = true → scaleBlocks (s.me.bat b.toNat).fmt = some n →
      let clear (k : Core) : Core := k.setBat b.toNat fun x => { x with serr := false }
      let fill (o : Operand) : ArrOp := .fillS b.toNat n (fillBytes s o) (badWord s o)
      (∀ j pa, sliceAt s .ld j (144 * n) pa → s.me.noSliceWrite = true → Machine.exec (.mscale pg b (.slice j)) s =
        completes s (s.modMe fun k => entersArray (fill (sliceOf s pa (144 * n))) (clear k))) ∧
      (∀ p : BitVec 2, streamGives s p.toNat (144 * n) → Machine.exec (.mscale pg b (.sp p)) s =
        completes s ((s.spTake p.toNat (144 * n)).modMe fun k =>
          entersArray (fill (streamOf s (s.me.port p.toNat) (144 * n))) (clear k))) ∧
      (∀ v : BitVec 7, declared s v.toNat (144 * n) → s.me.vBusy = false → Machine.exec (.mscale pg b (.v v)) s =
        completes s (s.modMe fun k =>
          entersArray (.fillS b.toNat n ((List.range (144 * n)).map (wideByte s v.toNat)) false) (clear k)))) ∧
    (∀ (ac : BitVec 4) (b : Bool) (rows : BitVec 8) (ta tb : Ty) (set : Bool), passReady s ac b ta tb → rows.toNat ≤ 16 →
      let op (rs : List (BitVec 1024)) (sc : List (BitVec 12)) (pz : BitVec 16) (g : List Nat) : ArrOp :=
        .pass ac.toNat b.toNat rows.toNat set ta tb rs sc pz g
      let of (o : Operand) : List Nat → ArrOp :=
        op ((List.range rows.toNat).map (operandRow s o)) [] (operandPoison s o rows.toNat)
      (∀ j pa, sliceAt s .ld j (128 * rows.toNat) pa → s.me.noSliceWrite = true →
        groupsFree s.me.fillStreams (groupsOf pa (128 * rows.toNat)) →
        Machine.exec (.mma pg ac b (.slice j) rows ta tb set) s =
          passes s s b (of (sliceOf s pa (128 * rows.toNat)) (groupsOf pa (128 * rows.toNat)))) ∧
      (∀ j pa g, sliceAt s .ld j (128 * rows.toNat) pa → s.me.noSliceWrite = true →
        groupTaken s.me.fillStreams (groupsOf pa (128 * rows.toNat)) g →
        Machine.exec (.mma pg ac b (.slice j) rows ta tb set) s = faults s (bgconfT g) .x) ∧
      (∀ n : BitVec 2, streamGives s n.toNat (128 * rows.toNat) →
        (groupsFree s.me.fillStreams (s.me.port n.toNat).groups →
          Machine.exec (.mma pg ac b (.sp n) rows ta tb set) s = passes s (s.spTake n.toNat (128 * rows.toNat)) b
            (of (streamOf s (s.me.port n.toNat) (128 * rows.toNat)) (s.me.port n.toNat).groups)) ∧
        (∀ g, groupTaken s.me.fillStreams (s.me.port n.toNat).groups g →
          Machine.exec (.mma pg ac b (.sp n) rows ta tb set) s = faults s (bgconfT g) .x)) ∧
      (∀ n : BitVec 7, declared s n.toNat (128 * rows.toNat) → s.me.vBusy = false →
        Machine.exec (.mma pg ac b (.v n) rows ta tb set) s =
          passes s s b (op ((List.range rows.toNat).map fun i => s.wideRow n.toNat i) [] 0 [])) ∧
      (∀ (n : BitVec 4) (e : Entry), iqNamed s n.toNat → tileAt s n.toNat e → mmaHeadFault e ta rows.toNat = none →
        mayTake s n.toNat → Machine.exec (.mma pg ac b (.iq n) rows ta tb set) s = passes s ((begun s n.toNat).takeHead n.toNat) b
          (op ((List.range (hRows e.head)).map fun i => popRow e i)
            (if hScb e.head = 0 ∨ ta = .bf16 then [] else (List.range (hRows e.head * blocksOf ta)).map fun q => e.scale q)
            (hPoison e.head) []))) ∧
    (∀ (ac : BitVec 4) (mask : BitVec 16) (i : Instr), s.stage.hasAcc ac.toNat = true → s.me.tileIdle ac.toNat = true →
      i = .mrows pg ac mask ∨ (i = .macClr pg ac ∧ mask = 0xFFFF) →
      ∃ t : State, Machine.exec i s = completes s t ∧ { t with cores := s.cores } = s ∧ (∀ c, c ≠ s.focus → t.core c = s.core c) ∧
        butAcc t.me s.me ∧ ∀ a < 16, ∀ r < 16,
          (∀ n < 96, accAt t s.focus a r n = if a = ac.toNat ∧ mask.getLsbD r = true then 0 else accAt s s.focus a r n) ∧
          poisonOf t s.focus a r = if a = ac.toNat ∧ mask.getLsbD r = true then false else poisonOf s s.focus a r) ∧
    (∀ (i : Instr) (row : ReadRow), readRow i = some row → row.pg = pg → row.ok → s.stage.hasAcc row.ac.toNat = true →
      (∀ n, row.dst = .v n → declared s n.toNat (row.m * outRow row.t) →
        Machine.exec i s = completes s (s.modMe (entersArray (readOp s row (.vreg n.toNat))))) ∧
      (∀ j pa, row.dst = .slice j → sliceAt s .st j (row.m * outRow row.t) pa →
        Machine.exec i s = completes s (s.modMe (entersArray (readOp s row (.mem pa))))) ∧
      (∀ n, row.dst = .oq n → oqNamed s n.toNat → row.t.width ≤ 8 → (s.oq s.focus n.toNat).cur = none →
        (s.oq s.focus n.toNat).failed = false → (s.oq s.focus n.toNat).credits ≠ 0 →
        (s.oq s.focus n.toNat).pushed < s.stage.rateOut n.toNat →
        Machine.exec i s = completes s (((s.takeCredit s.focus n.toNat).modOq s.focus n.toNat fun x =>
          { x with pushed := x.pushed + 1, outq := x.outq ++ [none] }).modMe (entersArray (readOp s row (.oq n.toNat)))))) ∧
    (∀ ac : BitVec 4, s.stage.hasAcc ac.toNat = true →
      (s.me.tileIdle ac.toNat = true → Machine.exec (.mwait pg ac) s = completes s s) ∧
      (s.me.tileIdle ac.toNat = false → Machine.exec (.mwait pg ac) s = .next s ∧ Machine.exec (.macClr pg ac) s = .next s ∧
        ∀ mask, Machine.exec (.mrows pg ac mask) s = .next s)) ∧
    (∀ (ac : BitVec 4) (vd : BitVec 7), s.me.tileIdle ac.toNat = false ∨ s.me.batIdle 0 = false ∨ s.me.batIdle 1 = false ∨
      s.me.vBusy = true → Machine.exec (.mstat pg ac vd) s = .next s) ∧
    (∀ (ac : BitVec 4) (b : Bool) (src : ASel) (rows : BitVec 8) (ta tb : Ty) (set : Bool), s.me.batIdle b.toNat = false →
      Machine.exec (.mma pg ac b src rows ta tb set) s = .next s) ∧
    (∀ (b : Bool) (t : Ty) (form : BatForm) (j : BitVec 4) (pa : Nat), s.stage.hasBat b.toNat = true → sliceAt s .ld j 12288 pa →
      s.me.noSliceWrite = false → Machine.exec (.mbatLd pg b (.slice j) t form) s = .next s) ∧
    (∀ (ac : BitVec 4) (vd : BitVec 7), s.stage.hasAcc ac.toNat = true → s.me.tileIdle ac.toNat = true → s.me.batIdle 0 = true →
      s.me.batIdle 1 = true → s.me.vBusy = false → s.stage.hasV vd.toNat = true →
      ∃ t : State, Machine.exec (.mstat pg ac vd) s = completes s t ∧ { t with cores := s.cores } = s ∧
        { t.me with v := s.me.v } = s.me ∧ (∀ c, c ≠ s.focus → t.core c = s.core c) ∧
        (∀ c < 4, ∀ l < 128, lane (t.v c vd.toNat) l =
          if c = 0 ∧ l = 0 then (sget 0 s.me.poison ac.toNat).setWidth 32
          else if c = 0 ∧ l = 1 then s.me.batStatus.setWidth 32 else 0) ∧
        ∀ c < 4, ∀ r < 256, r ≠ vd.toNat → t.v c r = s.v c r)

/-- R67 to R69, R218 to R220, R223, R227 to R230: what completes in the array. A weight fill puts each byte where its form says, those of a
beat with an uncorrectable error being free (log 56); a pass adds to each entry of its rows, from zero where it sets, the exact scaled
sum of each block in ascending order, each addition rounded once into binary128, and poisons the row that it makes NaN or infinite; a
read rounds the entries into its destination, and a quantising one divides by the scale of the block, saturating to -127 into i8
(log 27). While the core's quarter is in IDLE nothing completes (R435). -/
def Obligations.MatrixCompletes : Prop :=
  ∀ (s : State) (c i : Nat),
    (s.clocked c = false → ∀ x, x = .batFillComplete c i ∨ x = .mmaPassComplete c i ∨ x = .accReadComplete c i →
      Machine.exec x s = .next s) ∧
    (s.clocked c = true →
    (∀ b form bs err g, (s.core c).arrReady i = some (.fillW b form bs err g) → bs.length = 12288 →
      ∃ t : State, Machine.exec (.batFillComplete c i) s = .next t ∧ { t with cores := s.cores } = s ∧
        { (t.core c) with bats := (s.core c).bats, arr := (s.core c).arr } = s.core c ∧ (∀ d, d ≠ c → t.core d = s.core d) ∧
        (t.core c).arr = (s.core c).arr.eraseIdx i ∧
        (∀ j < 12288, elem 8 j ((t.core c).bat b).w = bs.getD (weightByte form j) 0) ∧
        ((t.core c).bat b).werr = (((s.core c).bat b).werr || err) ∧
        { ((t.core c).bat b) with w := ((s.core c).bat b).w, werr := ((s.core c).bat b).werr } = (s.core c).bat b ∧
        ∀ x, x ≠ b → (t.core c).bat x = (s.core c).bat x) ∧
    (∀ b n bs err, (s.core c).arrReady i = some (.fillS b n bs err) →
      ∃ t : State, Machine.exec (.batFillComplete c i) s = .next t ∧ (t.core c).arr = (s.core c).arr.eraseIdx i ∧
        (t.core c).bat b = { ((s.core c).bat b) with
          sc := BitVec.ofNat 9216 (leNat bs), serr := ((s.core c).bat b).serr || err }) ∧
    (∀ tile b m set ta tb rows sc pz g, (s.core c).arrReady i = some (.pass tile b m set ta tb rows sc pz g) →
      rows.length ≤ m → m ≤ 16 →
      ∃ t : State, Machine.exec (.mmaPassComplete c i) s = .next t ∧ { t with cores := s.cores } = s ∧
        { (t.core c) with acc := (s.core c).acc, poison := (s.core c).poison, arr := (s.core c).arr } = s.core c ∧
        (∀ d, d ≠ c → t.core d = s.core d) ∧ (t.core c).arr = (s.core c).arr.eraseIdx i ∧
        ∀ a < 16, ∀ r < 16,
          let old (n : Nat) : F128 := if set = true ∧ a = tile ∧ r < m then 0 else accAt s c a r n
          let was : Bool := if set = true ∧ a = tile ∧ r < m then false else poisonOf s c a r
          (¬ (a = tile ∧ r < rows.length) → (∀ n < 96, accAt t c a r n = old n) ∧ poisonOf t c a r = was) ∧
          (a = tile → r < rows.length → ∃ (E : Nat → Nat → F128) (P : Nat → Nat → Machine.Num),
            (∀ n < 96, E n 0 = old n ∧ accAt t c a r n = E n (blockCount ta) ∧ ∀ x < blockCount ta,
              E n (x + 1) = BitVec.ofNat 128 (Fmt.b128.round .rne ((Fmt.b128.value (E n x).toNat).add .rne (P n x))).1 ∧
              ∃ S, sumsTo (blockProducts ta tb (rows.getD r 0) (elem 1024 n ((s.core c).bat b).w) x) S ∧
                P n x = if ta = .bf16 then S
                  else (S.mul (scaleNum (sc.getD (r * blockCount ta + x) 0x7F0))).mul
                    (scaleNum (elem 12 (n * blockCount ta + x) ((s.core c).bat b).sc))) ∧
            (poisonOf t c a r = true ↔ was = true ∨ pz.getLsbD r = true ∨ ∃ n < 96, ∃ x < blockCount ta,
              (P n x).special = true ∨ (Fmt.b128.value (E n (x + 1)).toNat).special = true))) ∧
    (∀ tile pa m ty mode st ch, (s.core c).arrReady i = some (.read tile (.mem pa) m ty mode false false st ch) →
      ∃ t : State, Machine.exec (.accReadComplete c i) s = .next t ∧ (t.core c).arr = (s.core c).arr.eraseIdx i ∧
        (∀ d, d ≠ c → t.core d = s.core d) ∧
        (∀ r < m, ∀ n < 96, value t (pa + outRow ty * r) (outRow ty) / 2 ^ (ty.width * n) % 2 ^ ty.width =
          (tyRound ty (rmodeOf mode) (Fmt.b128.value (accAt s c tile r n).toNat)).1.toNat % 2 ^ ty.width) ∧
        (∀ a, a < pa ∨ pa + outRow ty * m ≤ a → t.byte a = s.byte a) ∧
        ((t.core c).ctx st).sat = (((s.core c).ctx st).sat || (List.range m).any fun r => (List.range 96).any fun n =>
          (tyRound ty (rmodeOf mode) (Fmt.b128.value (accAt s c tile r n).toNat)).2)) ∧
    (∀ tile pa m ty mode sc st ch, (s.core c).arrReady i = some (.read tile (.mem pa) m ty mode true sc st ch) → ty.isQuant = true →
      ∃ (t : State) (scale : Nat → Nat → BitVec 12 × Bool) (y : Nat → Nat → Nat × Bool),
        Machine.exec (.accReadComplete c i) s = .next t ∧ (t.core c).arr = (s.core c).arr.eraseIdx i ∧
        (∀ d, d ≠ c → t.core d = s.core d) ∧
        (∀ r < m, ∀ b < 3,
          (sc = true → scales ty ((List.range 32).map fun x => Fmt.b128.value (accAt s c tile r (32 * b + x)).toNat)
            (scale r b).1 (scale r b).2) ∧ (sc = false → scale r b = (0x7F0, false))) ∧
        (∀ r < m, ∀ n < 96,
          quantises ty (rmodeOf mode) (scale r (n / 32)).1 (Fmt.b128.value (accAt s c tile r n).toNat) (y r n).1 (y r n).2 ∧
          value t (pa + outRow ty * r) (outRow ty) / 2 ^ (ty.width * n) % 2 ^ ty.width = (y r n).1) ∧
        (∀ a, a < pa ∨ pa + outRow ty * m ≤ a → t.byte a = s.byte a) ∧
        (((t.core c).ctx st).sat = true ↔ ((s.core c).ctx st).sat = true ∨
          ∃ r < m, (∃ b < 3, (scale r b).2 = true) ∨ ∃ n < 96, (y r n).2 = true)) ∧
    (∀ tile dst m ty mode q sc st ch, (s.core c).arrReady i = some (.read tile dst m ty mode q sc st ch) →
      let rows := (s.core c).readRows tile m ty (rmodeOf mode) q sc
      let s1 := s.modCore c fun k =>
        { (if rows.any (·.sat) then k.modCtx st fun x => { x with sat := true } else k) with arr := k.arr.eraseIdx i }
      (∀ n, dst = .vreg n → Machine.exec (.accReadComplete c i) s =
        .next (s1.modCore c fun k => k.putWide n (rows.flatMap (·.bytes)))) ∧
      (∀ n, dst = .oq n → Machine.exec (.accReadComplete c i) s = .next (s1.fillOut c n (readTile ty sc ch rows)))))

/-! # Engines -/

/-- R253, R254, R258 to R269, R271: an engine command whose local checks pass enters its engine with what it names, and the bundle goes on.
That the fences complete in every state is the model's choice, since every store has been performed at its bundle's commit (log 2);
so is which flags count as the stage's own (log 15). Operands that overlap give ILLOP 0x52 also where one of them faults, which is the
model's reading of R98 (log 55); that a striped dx.stream may lie anywhere in its segment (log 69), and which bytes a port keeps as the
old ones (log 8), are its choices. -/
def Obligations.EngineCommands : Prop :=
  ∀ (s : State) (pg : PReg) (cf : BitVec 6) (ga gb gc : GReg), xReady s pg →
    (∀ i, i = .fenceCore pg ∨ i = .fencePkg pg ∨ i = .fenceDom pg → Machine.exec i s = completes s s) ∧
    (s.me.rqFree 0 = true → ∃ r : RqRef, r = { core := s.focus, eng := 0, id := s.me.nextId } ∧
      Machine.exec (.dxDrain pg) s = completes s ((s.reserve 0).1.modMe fun k =>
        { k with
          eng := k.eng ++ [{ id := k.nextId, eng := 0, stage := s.stg, pc := s.pc, charge := s.ctx.charge, flag := none, err := false,
                             op := .drain r }]
          nextId := k.nextId + 1 })) ∧
    (∀ p, 32 ≤ cf.toNat → targets s (s.g ga) p →
      Machine.exec (.rcfAdd pg cf ga gb) s =
        commands s 1 none (.remote { remoteOf .rcfAdd p (s.g ga) 1 0 with opnd := s.g gb, cf := cf.toNat }) ∧
      Machine.exec (.fenceF pg cf ga gb) s =
        commands s 1 none (.remote { remoteOf .fenceF p (s.g ga) 1 0 with opnd := s.g gb, cf := cf.toNat })) ∧
    (flagMine s cf →
      (∀ dst src, (s.g gc).toNat ≠ 0 → (s.g gc).toNat < 2 ^ 31 → s.tr .engWr (s.g ga) 1 (s.g gc).toNat = .ok dst →
        s.tr .engRd (s.g gb) 1 (s.g gc).toNat = .ok src →
        (disjoint dst (s.g gc).toNat src (s.g gc).toNat →
          Machine.exec (.dxCopy pg cf ga gb gc) s = commands s 0 (some cf.toNat) (.copy dst src (s.g gc).toNat)) ∧
        (¬ disjoint dst (s.g gc).toNat src (s.g gc).toNat →
          Machine.exec (.dxCopy pg cf ga gb gc) s = faults s (illopT 0x52) .x)) ∧
      (∀ p src dst, s.readPattern s (s.g gc) = .ok p → p.total ≠ 0 →
        let from_ := hull p.elem (p.dims.map fun d => (d.1, d.2.1))
        let to_ := hull p.elem (p.dims.map fun d => (d.1, d.2.2))
        s.tr .engRd (s.g gb + BitVec.ofInt 64 from_.1) 1 from_.2 = .ok src →
        s.tr .engWr (s.g ga + BitVec.ofInt 64 to_.1) 1 to_.2 = .ok dst → disjoint src from_.2 dst to_.2 →
        Machine.exec (.dxPat pg cf ga gb gc) s = commands s 0 (some cf.toNat) (.pat (dst - to_.1) (src - from_.1) p.elem p.dims)) ∧
      (∀ (fsh : BitVec 5) (n : BitVec 9) (l : Nat × List Nat) (m : List (Nat × Nat)),
        s.pageOperands s cf (s.g gc) fsh n = .ok l →
        let size := 2 ^ fsh.toNat
        let into := frameOps (s.g gb) (s.g ga) size l.2
        let out := frameOps (s.g ga) (s.g gb) size l.2
        (s.frames .engRd .engWr size into = .ok m → (∀ x ∈ m, n ≠ 0 → disjoint x.2 size l.1 (4 * n.toNat)) →
          Machine.exec (.dxGat pg cf ga gb gc fsh n) s =
            commands s 0 (some cf.toNat) (.frames (m.map fun x => (x.2, x.1)) size)) ∧
        ((∃ x ∈ into, s.meet x.2 size (s.g gc) (4 * n.toNat) = true) →
          Machine.exec (.dxGat pg cf ga gb gc fsh n) s = faults s (illopT 0x52) .x) ∧
        (s.frames .engWr .engRd size out = .ok m → (∀ x ∈ m, ∀ y ∈ m, disjoint x.1 size y.2 size) →
          Machine.exec (.dxSct pg cf ga gb gc fsh n) s = commands s 0 (some cf.toNat) (.frames m size)) ∧
        ((∃ x ∈ out, ∃ y ∈ out, s.meet x.1 size y.2 size = true) →
          Machine.exec (.dxSct pg cf ga gb gc fsh n) s = faults s (illopT 0x52) .x)) ∧
      (∀ (sp : BitVec 2) (bg8 : Bool) (pa : Nat), s.hub = false → (s.g gb).toNat ≠ 0 → (s.g gb).toNat < 2 ^ 31 →
        (s.me.port sp.toNat).isOpen = false → s.streamSource (s.g ga) (s.g gb).toNat bg8 = .ok pa →
        Machine.exec (.dxStream pg cf ga gb sp bg8) s = completes s (s.modMe fun k =>
          { k with
            sp := sset StreamPort.reset k.sp sp.toNat
              { isOpen := true, base := pa, striped := bg8, len := (s.g gb).toNat, left := (s.g gb).toNat, flag := cf.toNat,
                stage := s.stg, pc := s.pc, charge := s.ctx.charge, order := k.nextId
                old := s.mem.filter fun x => decide (pa ≤ x.1) &&
                  decide (x.1 < pa + if bg8 then 7 * 0x800000 + (s.g gb).toNat / 8 else (s.g gb).toNat) }
            nextId := k.nextId + 1 })) ∧
      (∀ imm : BitVec 32,
        (flagOver ((s.me.flag cf.toNat).value.toInt + imm.toInt) = false →
          (¬ drainBefore s → Machine.exec (.cfAdd pg cf imm) s = completes s
            (s.modMe fun k => k.modFlag cf.toNat fun f => { f with value := f.value + imm })) ∧
          (drainBefore s → Machine.exec (.cfAdd pg cf imm) s = commands s 0 (some cf.toNat) (.addFlag imm))) ∧
        (flagOver ((s.me.flag cf.toNat).value.toInt + imm.toInt) = true →
          Machine.exec (.cfAdd pg cf imm) s = faults s ⟨0x09, cf.toNat, 0⟩ .x)) ∧
      ((s.g gc).toNat ≠ 0 → (s.g gc).toNat < 2 ^ 31 →
        (∀ p pa, targets s (s.g ga) p → s.tr .engRd (s.g gb) 1 (s.g gc).toNat = .ok pa → Machine.exec (.rst pg cf ga gb gc) s =
          commands s 1 (some cf.toNat) (.remote (remoteOf .rst p (s.g ga) (s.g gc).toNat pa))) ∧
        (∀ p pa, targets s (s.g gb) p → s.tr .engWr (s.g ga) 1 (s.g gc).toNat = .ok pa → Machine.exec (.rld pg cf ga gb gc) s =
          commands s 1 (some cf.toNat) (.remote (remoteOf .rld p (s.g gb) (s.g gc).toNat pa))) ∧
        (∀ p q n, targets s (s.g gb) p → q ≤ 287 → n < 16 → (s.g ga).toNat = q + 2 ^ 16 * n →
          (s.iq q n).bind = .reply s.focus → Machine.exec (.rldIq pg cf ga gb gc) s = commands s 1 (some cf.toNat)
            (.remote { remoteOf .rldIq p (s.g gb) (s.g gc).toNat 0 with iqCore := q, iqPort := n }))) ∧
      (∀ (op : RamoOp) (wide : Bool) (p : Byte) (pa : Nat), targets s (s.g gb) p →
        (s.g gb).toNat % 2 ^ 40 % (if wide then 8 else 4) = 0 →
        s.tr .engRw (s.g ga) (if wide then 8 else 4) (if wide then 8 else 4) = .ok pa →
        (op = .cas → s.badIn pa (if wide then 8 else 4) = false) →
        Machine.exec (.ramo pg cf ga gb gc op wide) s = commands s 1 (some cf.toNat)
          (.remote { remoteOf .ramo p (s.g gb) (if wide then 8 else 4) pa with
            op := op, wide := wide, opnd := s.g gc
            cmp := if op = .cas then BitVec.ofNat 64 (value s pa (if wide then 8 else 4)) else 0 })))

/-- R255, R258 to R263, R267: an engine command completes with its bytes moved, its count added once to its flag and its place free: a
copy as one range, a pattern element by element, dimension 0 innermost, frames by list, where two name the same page the later last; a
source beat with an uncorrectable error leaves its bytes of the destination unwritten and sets ERR, and the rest goes on. A dx.drain is satisfied
when no earlier command of its stage is left; a reply tile joins its port, which has a slot for it, when all
its packets are in. That a copy lands whole in one step is the model's choice (log 32): R258 lets its bytes be written in any order. -/
def Obligations.EngineCompletes : Prop :=
  ∀ (s : State) (c i : Nat), (s.core c).haltq = [] →
    (∀ e, (s.core c).begun i = some e →
      (∀ dst src n, e.op = .copy dst src n → countFits s c e n →
        ∃ (t : State) (err : Bool), Machine.exec (.engineCommandComplete c i) s = .next t ∧
          copied s t 1 (fun _ => dst) (fun _ => src) n ∧ (err = true ↔ spoiltCopy s 1 (fun _ => src) n) ∧ endedAs s t c e n err) ∧
      (∀ n, e.op = .count n → countFits s c e n →
        ∃ t : State, Machine.exec (.engineCommandComplete c i) s = .next t ∧ (∀ a, t.byte a = s.byte a) ∧ endedAs s t c e n false) ∧
      (∀ n, e.op = .addFlag n → countFits s c e n.toInt →
        ∃ t : State, Machine.exec (.engineCommandComplete c i) s = .next t ∧ (∀ a, t.byte a = s.byte a) ∧
          endedAs s t c e n.toInt false) ∧
      (∀ moves size, e.op = .frames moves size →
        let dst (k : Nat) : Nat := (moves.getD k (0, 0)).1
        let src (k : Nat) : Nat := (moves.getD k (0, 0)).2
        noneReads s moves.length dst src size → countFits s c e (size * moves.length) →
        ∃ (t : State) (err : Bool), Machine.exec (.engineCommandComplete c i) s = .next t ∧
          copied s t moves.length dst src size ∧ (err = true ↔ spoiltCopy s moves.length src size) ∧
          endedAs s t c e (size * moves.length) err) ∧
      (∀ dst src n dims, e.op = .pat dst src n dims →
        let N : Nat := (dims.map fun d => d.1).prod
        let into (k : Nat) : Nat := (dst + (patAt dims k).2).toNat
        let from_ (k : Nat) : Nat := (src + (patAt dims k).1).toNat
        countFits s c e (n * N : Nat) →
        ∃ (t : State) (err : Bool), Machine.exec (.engineCommandComplete c i) s = .next t ∧ endedAs s t c e (n * N : Nat) err ∧
          (noneReads s N into from_ n → copied s t N into from_ n ∧ (err = true ↔ spoiltCopy s N from_ n))) ∧
      (∀ inst total, e.op = .kret inst total 0 → countFits s c e (8 * total) →
        ∃ t : State, Machine.exec (.engineCommandComplete c i) s = .next t ∧ endedAs s t c e (8 * total) e.err) ∧
      (∀ r, e.op = .remote r → r.pkg ≠ s.pkgNo → r.finished = true → r.bad = none → countFits s c e r.count →
        (∀ x ∈ (s.core c).eng, x.id = e.id → x = e) →
        ∃ t : State, Machine.exec (.engineCommandComplete c i) s = .next t ∧ (∀ a, t.byte a = s.byte a) ∧
          endedAs s t c e r.count e.err)) ∧
    (∀ e rq, (s.core c).eng[i]? = some e → e.op = .drain rq → rq.core = c →
      (∀ j < i, ∀ x, (s.core c).eng[j]? = some x → x.stage ≠ e.stage ∨ 2 ≤ x.eng) →
      ∃ t : State, Machine.exec (.dxDrainSatisfied c i) s = .next t ∧ (∀ x ∈ (t.core c).eng, x.id ≠ e.id) ∧
        ((t.core c).stage e.stage).drainErr = false ∧
        (t.core c).rqOf rq.eng = ((s.core c).rqOf rq.eng).map (fun x => if x.id = rq.id
          then { x with val := some (if ((s.core c).stage e.stage).drainErr then 1 else 0) } else x) ∧
        (∀ a, t.byte a = s.byte a) ∧ ∀ d, d ≠ c → t.core d = s.core d) ∧
    (∀ e r, (s.core c).begun i = some e → e.op = .remote r → r.kind = .rldIq → r.pkg ≠ s.pkgNo → r.given < r.len →
      let port := s.iq r.iqCore r.iqPort
      port.tokenDue = false → port.behind = false → port.q.length + port.coming.length + port.held.length < port.cap →
      (∀ p ∈ r.pieces, r.given ≤ p.1 → p.1 < r.given + 2048 → p.1 < r.sent ∧ ∀ q ∈ r.out, q.off ≠ p.1) →
      (∀ x ∈ (s.core c).eng, x.id = e.id → x = e) →
      ∃ t : State, Machine.exec (.rldReplyTile c i) s = .next t ∧
        (t.iq r.iqCore r.iqPort).q = (s.iq r.iqCore r.iqPort).q ++ [r.tile] ∧ (∀ a, t.byte a = s.byte a) ∧
        (t.core c).eng = (s.core c).eng.map (fun x => if x.id = e.id
          then { x with op := .remote { r with given := min r.len (r.given + 2048) } } else x)) ∧
    (∀ r : Remote, r.badOffs = [] → r.given < r.len → ∀ k < 16,
      let n := min 2048 (r.len - r.given)
      hKind r.tile.head = 2 ∧ hFmt r.tile.head = 11 ∧ hRows r.tile.head = (n + 127) / 128 ∧ hRowb r.tile.head = 128 ∧
      hPoison r.tile.head = 0 ∧
      (128 * k < n → ∀ j < 128, elem 8 j (r.tile.row k) =
        if 128 * k + j < n then sget 0 r.reply (r.given + 128 * k + j) else 0))

/-! # The Kiln -/

/-- R277 to R282, R355, R362: what each Kiln instruction does. An admission takes the lowest FREE record; a cancel or an eviction acts by
the record's state; kiln.step and kiln.ret queue at the Kiln of the core's package. ILLOP 0x56 for an instance of another package and
what the queue holds are the model's reading (log 34), and so is who may act on a secure record (log 35); that such a record in a state
that is refused answers WORLD is the model's choice (log 72). -/
def Obligations.KilnCommands : Prop :=
  (∀ (s : State) (pg : PReg) (ga gb : GReg), sysCall s pg →
    (∀ pa, s.tr .engRd (s.g ga) 64 64 = .ok pa →
      Machine.exec (.kilnAdmit pg ga) s = sysAnswer s fun t => t.admitReq (s.bytes pa 64) s.me.ctxWorld) ∧
    (∀ pa i, (s.g gb).toNat = i → i < 4096 → s.tr .engWr (s.g ga) 64 64 = .ok pa →
      ((s.recd i).world = true ∧ s.me.ctxWorld = false ∧ s.me.hub.priv ≠ .m →
        Machine.exec (.kilnRd pg ga gb) s = sysAnswer s fun t => (t, refused 4)) ∧
      (((s.recd i).world = true → s.me.ctxWorld = true ∨ s.me.hub.priv = .m) →
        Machine.exec (.kilnRd pg ga gb) s = sysAnswer s fun t =>
        (t.store pa ((List.range 8).flatMap fun j => bytesOf 8 (s.recWord i j)), done (s.recd i).state.code))) ∧
    (∀ i, (s.g ga).toNat = i → i < 4096 →
      ((s.recd i).world = true → s.me.ctxWorld = true ∨ s.me.hub.priv = .m) →
      ((s.recd i).state = .pending ∨ (s.recd i).state = .active → ∃ t : State, endsRecord (asked s) t i .done 4 ∧
        Machine.exec (.kilnCancel pg ga) s = completes s (t.fill (entry s) (done (s.recd i).state.code))) ∧
      ((s.recd i).state = .inflight →
        Machine.exec (.kilnCancel pg ga) s = (sysAnswer s fun t => (t.modRec i fun r => { r with cnmark := true }, done 3)) ∧
        Machine.exec (.kilnEvict pg ga) s = (sysAnswer s fun t => (t.modRec i fun r => { r with evmark := true }, done 3))) ∧
      ((s.recd i).state = .active → ∃ t : State, recordOnly (asked s) t ∧
        t.recd i = evictedRec (s.inst (s.recd i).inst).evlim (s.recd i) ∧ (∀ j, j ≠ i → t.recd j = s.recd j) ∧
        Machine.exec (.kilnEvict pg ga) s = completes s (t.fill (entry s) (done 2))) ∧
      ((s.recd i).state = .free ∨ (s.recd i).state = .done ∨ (s.recd i).state = .evicted ∨ (s.recd i).state = .failed →
        Machine.exec (.kilnCancel pg ga) s = (sysAnswer s fun t => (t, refused 7)) ∧
        Machine.exec (.kilnEvict pg ga) s = (sysAnswer s fun t => (t, refused 7)))) ∧
    (∀ i, (s.g ga).toNat = i → i < 4096 → (s.recd i).world = true → s.me.ctxWorld = false → s.me.hub.priv ≠ .m →
      Machine.exec (.kilnCancel pg ga) s = (sysAnswer s fun t => (t, refused 4)) ∧
      Machine.exec (.kilnEvict pg ga) s = (sysAnswer s fun t => (t, refused 4))) ∧
    (∀ (fail all : Bool) (inst num : Nat), inst < 8 → num < 2 ^ 16 → (s.g ga).toNat % 2 ^ 16 = num →
      (s.g ga).toNat / 2 ^ 32 = inst →
      let refuses (r : Nat) : Prop := Machine.exec (.kilnAbort pg ga fail all) s = sysAnswer s fun t => (t, refused r)
      ((s.inst inst).pool = 0 → refuses 2) ∧
      ((s.inst inst).pool ≠ 0 → all = false → (∀ ch, ¬ namesCharge s inst num ch) → refuses 7) ∧
      (∀ l, (s.inst inst).pool ≠ 0 → srising s.kiln.recs = true → (all = true → l = (s.inst inst).charges) →
        (all = false → ∃ ch, namesCharge s inst num ch ∧ l = [ch]) →
        ((∃ ch ∈ l, ∃ i, inCharge s inst ch i ∧ (s.recd i).world = true) → s.me.ctxWorld = false → refuses 4) ∧
        ((∀ ch ∈ l, ∀ i, inCharge s inst ch i → (s.recd i).world = true → s.me.ctxWorld = true) →
          ∃ t : State, settled (asked s) t inst fail l ∧ Machine.exec (.kilnAbort pg ga fail all) s =
            completes s (t.fill (entry s) (done (rowsOf s inst l * 2 ^ 12 + l.length))))))) ∧
  (∀ (s : State) (bs : List Byte) (world : Bool) (n : Nat), bs.length = 64 →
    n < 4096 → (s.recd n).state = .free → (∀ m < n, (s.recd m).state ≠ .free) →
    (s.inst (leAt bs 4 1 % 8)).pool ≠ 0 → badDescriptor bs = false → (rangeOf (leAt bs 16 8)).isHubMem = true →
    (rangeOf (leAt bs 24 8)).isHubMem = true → ((leAt bs 6 1).testBit 4 = true → world = true) →
    let t := (s.admitReq bs world).1
    let r := t.recd n
    let seq := (s.inst (leAt bs 4 1)).seq
    (s.admitReq bs world).2 = done (seq.toNat * 4096 + n) ∧ (t.inst (leAt bs 4 1)).seq = seq + 1 ∧
    r.state = .pending ∧ r.hostid.toNat = leAt bs 0 4 ∧ r.inst = leAt bs 4 1 ∧ r.dprio = leAt bs 5 1 ∧ r.eprio = leAt bs 5 1 ∧
    r.owner.toNat = leAt bs 6 1 % 16 ∧ r.world = (leAt bs 6 1).testBit 4 ∧ r.stopt = leAt bs 7 1 ∧ r.plen = leAt bs 8 4 ∧
    r.maxnew = leAt bs 12 4 ∧ r.prompt = leAt bs 16 8 ∧ r.sink = leAt bs 24 8 ∧ r.gen = 0 ∧ r.pages = [] ∧ r.slot = none ∧
    r.seq = seq ∧ ∀ m, m ≠ n → t.recd m = s.recd m) ∧
  (∀ (s : State) (pg : PReg), xReady s pg → s.hub = false →
    (∀ (iq : BitVec 4) (inst : BitVec 3),
      (16 ≤ (s.me.rqOf 2).length → Machine.exec (.kilnStep pg iq inst) s = .next s) ∧
      ((s.me.rqOf 2).length < 16 →
        (s.me.namesInst inst = none → Machine.exec (.kilnStep pg iq inst) s = faults s (illopT 0x57) .x) ∧
        (∀ t, s.me.namesInst inst = some t →
          (t.instPkg ≠ s.pkgNo ∨ ((s.inst inst.toNat).placed = true ∧
              ((s.inst inst.toNat).kcore ≠ s.focus ∨ (s.inst inst.toNat).kiq ≠ iq.toNat)) →
            Machine.exec (.kilnStep pg iq inst) s = faults s (illopT 0x56) .x) ∧
          (t.instPkg = s.pkgNo → ((s.inst inst.toNat).placed = true →
              (s.inst inst.toNat).kcore = s.focus ∧ (s.inst inst.toNat).kiq = iq.toNat) →
            Machine.exec (.kilnStep pg iq inst) s = completes s
              { asked s with kiln := { s.kiln with queue := s.kiln.queue ++ [.step inst.toNat (entry s)] } })))) ∧
    (∀ (cf : BitVec 6) (ga gb : GReg) (inst : BitVec 3) (n pa : Nat), flagMine s cf → (s.g gb).toNat = n → 1 ≤ n → n ≤ 256 →
      s.tr .engRd (s.g ga) 8 (8 * n) = .ok pa →
      (s.kilnPkg inst = s.pkgNo → Machine.exec (.kilnRet pg cf ga gb inst) s = completes s
        { (commanded s 2 (some cf.toNat) (.kret inst.toNat n n)) with
          kiln := { s.kiln with queue := s.kiln.queue ++ returned s pa n inst.toNat } }) ∧
      (∀ p, s.kilnPkg inst = p → p ≠ s.pkgNo → targets s (BitVec.ofNat 64 (p.toNat * 2 ^ 48)) p →
        Machine.exec (.kilnRet pg cf ga gb inst) s = commands s 2 (some cf.toNat) (.remote
          { remoteOf .kret p (BitVec.ofNat 64 (p.toNat * 2 ^ 48)) (8 * n) pa with inst := inst.toNat }))) ∧
    (∀ (cf : BitVec 6) (ga gb : GReg) (inst : BitVec 3), flagMine s cf → (s.g gb).toNat = 0 ∨ 256 < (s.g gb).toNat →
      Machine.exec (.kilnRet pg cf ga gb inst) s = faults s (illopT 0x58) .x))

/-- R357, R359, R362, R368: what the Kiln does with its queue, of which it takes the oldest step or the oldest return (log 34): a step
forms a charge from one continuing or one admitted record, or is refused with no room or nothing to run; the records of a charge go
in flight, and those left waiting age; pages are taken lowest first. A returned entry is one row
of its record fewer, and the last row ends the unit. An entry is delivered against a credit; a token that is due at the port goes
before it, or immediately behind the entry that closes the open charge (R405; log 38); an abort settles its charges, and one without a
charge number every charge of its instance, which is the model's choice (log 58), as are PAGE from the Kiln's own copy and a sink that
runs past hub SRAM (log 62). -/
def Obligations.KilnEvents : Prop :=
  ∀ s : State,
    (∀ pre i rq post, s.kiln.queue = pre ++ .step i rq :: post → (∀ x ∈ pre, ¬ aStep x) →
      let u : State := { s with kiln := { s.kiln with queue := pre ++ post } }
      Machine.exec .kilnFormCharge s = .next ((u.kilnStep i).1.fill rq (u.kilnStep i).2)) ∧
    (∀ i : Nat,
      ((s.inst i).pool = 0 → s.kilnStep i = (s, refused 2)) ∧
      ((s.inst i).pool ≠ 0 → (s.inst i).d ≤ (s.inst i).charges.length →
        s.kilnStep i = (s, BitVec.ofNat 64 (2 ^ 63 + 12 * 2 ^ 56 + 1))) ∧
      ((s.inst i).pool ≠ 0 → (s.inst i).charges.length < (s.inst i).d →
        (srising s.kiln.recs = true →
          (∀ j, (s.recd j).inst = i → (s.recd j).state ≠ .pending ∧ (s.recd j).state ≠ .active) →
          s.kilnStep i = (s, refused 12)) ∧
        (∀ j r k, s.kiln.recs = [(j, r)] → r.inst = i → r.state = .pending → r.pages = [] → r.slot = none → r.position = 0 →
          r.pcons = 0 → r.pfdone = false → 1 ≤ (s.inst i).slots → r.plen + r.gen ≤ (s.inst i).maxpos →
          k = min (min (min (s.inst i).chunk (r.plen + r.gen)) (s.inst i).rmax) (64 * (s.inst i).pool) → 1 ≤ k →
          let q := (s.kilnStep i).1.recd j
          (s.kilnStep i).2 = done (k * 2 ^ 16 + (s.inst i).next.toNat % 2 ^ 16) ∧
          { q with fault := r.fault } = { (launched k (s.inst i).next false r) with
            slot := some 0, pages := List.range ((k - 1) / 64 + 1) }) ∧
        (∀ j r n, s.kiln.recs = [(j, r)] → r.inst = i → r.state = .active → r.pfdone = true → r.slot = some n →
          r.position < 64 * r.pages.length → 1 ≤ (s.inst i).rmax →
          (s.kilnStep i).2 = done (2 ^ 16 + (s.inst i).next.toNat % 2 ^ 16) ∧ ((s.kilnStep i).1.inst i).lastslot = n ∧
          (s.kilnStep i).1.recd j = launched 1 (s.inst i).next (s.badIn (r.tokenAddr r.position) 4) r))) ∧
    (∀ (i : Nat) (units : List KUnit) (ev : List Nat),
      let n := (units.map fun u => u.k).sum
      let r := s.emitCharge i units ev
      r.2 = done (n * 2 ^ 16 + (s.inst i).next.toNat % 2 ^ 16) ∧ (r.1.inst i).next = (s.inst i).next + 1 ∧
      (r.1.inst i).charges = (s.inst i).charges ++ [{ num := (s.inst i).next, left := n }] ∧
      (∃ es : List Entry, (r.1.inst i).out = (s.inst i).out ++ es ∧ es.length = 1 + ((s.inst i).rmax + 127) / 128) ∧
      (srising s.kiln.recs = true → units.Pairwise (fun x y => x.rcd ≠ y.rcd) →
        (∀ u ∈ units, r.1.recd u.rcd = launched u.k (s.inst i).next (badRows s u) (s.recd u.rcd)) ∧
        ∀ j, (∀ u ∈ units, u.rcd ≠ j) → r.1.recd j =
          if (s.recd j).inst = i ∧ (s.recd j).state = .pending ∧ j ∉ ev then aged (s.recd j) else s.recd j)) ∧
    (∀ pre i e src post, s.kiln.queue = pre ++ .ret i e src :: post → (∀ x ∈ pre, aStep x) →
      let u : State := { s with kiln := { s.kiln with queue := pre ++ post } }
      Machine.exec .kilnReturn s = .next ((u.kilnReturn i e).1.modCore src.1 fun k => k.modCmd src.2 fun x =>
        match x.op with
        | .kret n t left => { x with err := x.err || !(u.kilnReturn i e).2, op := .kret n t (left - 1) }
        | _ => x)) ∧
    (∀ pre i e es circ tag bad post, s.kiln.queue = pre ++ .retPkt i (e :: es) circ tag bad :: post → (∀ x ∈ pre, aStep x) →
      let u := s.kilnReturn i e
      Machine.exec .kilnReturn s = .next
        { u.1 with kiln := { u.1.kiln with queue := pre ++ .retPkt i es circ tag (bad || !u.2) :: post } }) ∧
    (∀ pre i circ tag bad post, s.kiln.queue = pre ++ .retPkt i [] circ tag bad :: post → (∀ x ∈ pre, aStep x) →
      Machine.exec .kilnReturn s = answers { s with kiln := { s.kiln with queue := pre ++ post } } circ 9
        (if bad then 7 else 0) tag []) ∧
    (∀ (inst : Nat) (e : Word), srising s.kiln.recs = true →
      let named (j : Nat) : Prop := (s.recd j).inst = inst ∧ (s.recd j).state = .inflight ∧
        (s.recd j).slot = some (e.toNat / 2 ^ 32 % 2 ^ 12) ∧ (s.recd j).infchg.toNat % 2 ^ 16 = e.toNat / 2 ^ 48
      ((∀ j, ¬ named j) → s.kilnReturn inst e = (s, false)) ∧
      (∀ j, named j → (∀ x < j, ¬ named x) →
        let r := s.recd j
        let f := if e.getLsbD 44 = true ∧ r.fault = 0 then 1 else r.fault
        let t := (s.kilnReturn inst e).1
        (s.kilnReturn inst e).2 = true ∧ (∀ x, x ≠ j → t.recd x = s.recd x) ∧
        (∀ pre ch post, (s.inst inst).charges = pre ++ ch :: post → ch.num = r.infchg → (∀ x ∈ pre, x.num ≠ r.infchg) →
          (t.inst inst).charges = pre ++ (if ch.left ≤ 1 then [] else [{ ch with left := ch.left - 1 }]) ++ post) ∧
        (2 ≤ r.inrows → t.recd j = { r with inrows := r.inrows - 1, fault := f }) ∧
        (r.inrows = 1 →
          (r.cnmark = true → t.recd j = endedRec .done 4 { r with fault := f }) ∧
          (r.cnmark = false → f ≠ 0 → t.recd j = endedRec .failed 0 { r with fault := f }) ∧
          (r.cnmark = false → f = 0 → r.position ≠ r.plen + r.gen → t.recd j = if r.evmark
            then evictedRec (s.inst inst).evlim { r with inrows := 0, fault := 0 }
            else { r with inrows := 0, fault := 0, state := .active }) ∧
          (r.cnmark = false → f = 0 → r.position = r.plen + r.gen →
            let g : Rec := { r with inrows := 0, fault := 0, gen := r.gen + 1 }
            let stops := ∃ w ∈ ((s.inst inst).stop.getD r.stopt []), w ≠ 0xFFFFFFFF ∧ w.toNat = e.toNat % 2 ^ 32
            value t (r.sink + 4 * r.gen) 4 = e.toNat % 2 ^ 32 ∧
            (stops → t.recd j = endedRec .done 1 g) ∧
            (¬ stops → g.gen = r.maxnew → t.recd j = endedRec .done 2 g) ∧
            (¬ stops → g.gen ≠ r.maxnew → (s.inst inst).maxpos ≤ r.position → t.recd j = endedRec .done 3 g) ∧
            (¬ stops → g.gen ≠ r.maxnew → r.position < (s.inst inst).maxpos → t.recd j = if r.evmark
              then evictedRec (s.inst inst).evlim g else { g with state := .active }))))) ∧
    (∀ (inst : BitVec 3) (e : Entry) (rest : List Entry) (coming q : List Entry) (k : Nat),
      let x := s.inst inst.toNat
      let p := s.iq x.kcore x.kiq
      let bound := p.bind = .kiln inst.toNat ∧ p.tokenDue = true
      let opn := s.openTail p
      x.out = e :: rest →
      (p.tokenDue = false ∨ (bound ∧ opn = true ∧ s.closes p.bind e = false) → k = 1 ∧ coming = p.coming ++ [e] ∧ q = p.q) →
      (bound ∧ opn = true ∧ s.closes p.bind e = true → k = 2 ∧ coming = p.coming ++ [e, tokenEntry] ∧ q = p.q) →
      (bound ∧ opn = false → k = 2 ∧
        if p.coming = [] then coming = [e] ∧ q = p.q ++ [tokenEntry] else coming = p.coming ++ [tokenEntry, e] ∧ q = p.q) →
      p.tokenDue = false ∨ bound → k ≤ x.credits →
      ∃ t : State, Machine.exec (.chargeDelivery inst) s = .next t ∧
        (t.inst inst.toNat).out = rest ∧ (t.inst inst.toNat).credits = x.credits - k ∧
        (t.iq x.kcore x.kiq).coming = coming ∧ (t.iq x.kcore x.kiq).q = q ∧
        (∀ d, d ≠ x.kcore → t.core d = s.core d) ∧ (∀ j, j ≠ inst.toNat → t.inst j = s.inst j) ∧
        ∀ a, t.byte a = s.byte a) ∧
    (∀ i num fail rest l, s.kiln.aborts = (i, num, fail) :: rest → srising s.kiln.recs = true →
      (num = none → l = (s.inst i).charges) →
      (∀ n : BitVec 16, num = some n → (∃ ch, namesCharge s i n.toNat ch ∧ l = [ch]) ∨ ((∀ ch, ¬ namesCharge s i n.toNat ch) ∧ l = [])) →
      ∃ t : State, Machine.exec .chargeAbortSettle s = .next t ∧
        settled { s with kiln := { s.kiln with aborts := rest } } t i fail l)

/-- R357, R358: how a step selects among many records. The continuing records come in turn, each with the rows it asks for
while RMAX lasts; records are evicted, the lowest EPRIO and then the highest SEQ first, only while the rows left lack pages, and only
ACTIVE ones; each unit takes the lowest free pages; an over-long pending record fails; then the pending records that were not evicted
in the step are admitted in order, each with the most rows that its pages allow, until rows, slots or pages run out; the units are emitted
in order. Which of two records with equal keys comes first is the model's choice (log 54): the orders here allow either. -/
def Obligations.KilnSelection : Prop :=
  ∀ (s : State) (i : Nat), srising s.kiln.recs = true →
    let p := s.inst i
    ((∀ j, j ∈ s.continuing i ↔ isOf s i .active j) ∧ (s.continuing i).Nodup ∧
      (s.continuing i).Pairwise fun x y => continuesBefore p (s.recd x) (s.recd y)) ∧
    (∀ rows l l', rows ≤ p.rmax →
      s.takeRows i rows [] = [] ∧
      (∀ j, s.takeRows i rows [j] =
        if min (wantRows p (s.recd j)) (p.rmax - rows) = 0 then []
        else [⟨j, min (wantRows p (s.recd j)) (p.rmax - rows), (s.recd j).pfdone⟩]) ∧
      let us := s.takeRows i rows l
      let n := (us.map fun u => u.k).sum
      s.takeRows i rows (l ++ l') = us ++ s.takeRows i (rows + n) l' ∧ rows + n ≤ p.rmax ∧
      ((us.map fun u => u.rcd).Sublist l) ∧ ∀ j ∈ l, wantRows p (s.recd j) ≠ 0 → rows + n < p.rmax → ∃ u ∈ us, u.rcd = j) ∧
    (∀ units fuel, fuel = (s.recsIn i .active).length + 1 →
      let m := s.makeRoom i units [] fuel
      recordOnly s m.1 ∧ m.2.2.Nodup ∧ (∀ v ∈ m.2.2, isOf s i .active v) ∧
      (∀ j, m.1.recd j = if j ∈ m.2.2 then evictedRec p.evlim (s.recd j) else s.recd j) ∧
      m.2.1 = units.filter (fun u => decide (u.rcd ∉ m.2.2)) ∧
      (∀ v ∈ m.2.2, ∀ w, isOf s i .active w → w ∉ m.2.2 → evictBefore (s.recd v) (s.recd w)) ∧
      (pageNeed m.1 m.2.1 ≤ (m.1.freePages i).length ∨ ∀ w, ¬ isOf m.1 i .active w) ∧
      (∀ v ev, m.2.2 = v :: ev → let m' := s.makeRoom i units [] ev.length
        m'.2.2 = ev ∧ (m'.1.freePages i).length < pageNeed m'.1 m'.2.1)) ∧
    ((s.freePages i).Pairwise (fun x y => x < y) ∧
      (∀ g, g ∈ s.freePages i ↔ g < p.pool ∧ ∀ j, (s.recd j).inst = i → g ∉ (s.recd j).pages) ∧
      (∀ n, s.freeSlot i = some n ↔ n < p.slots ∧ (∀ j, (s.recd j).inst = i → (s.recd j).slot ≠ some n) ∧
        ∀ m < n, ∃ j, (s.recd j).inst = i ∧ (s.recd j).slot = some m)) ∧
    (∀ u : KUnit, pagesGiven s (s.grant u).1 u.rcd u.k) ∧
    (∀ j, let overlong := isOf s i .pending j ∧ p.maxpos < (s.recd j).plen + (s.recd j).gen
      (overlong → (s.failLong i).recd j = endedRec .failed 0 { (s.recd j) with fault := 4 }) ∧
      (¬ overlong → (s.failLong i).recd j = s.recd j)) ∧
    (∀ rows j l,
      let r := s.recd j
      let free := (s.freePages i).length
      let most := min (min p.chunk (r.plen + r.gen - r.pcons)) (p.rmax - rows)
      s.admitRows i rows [] = (s, []) ∧
      (rows = p.rmax ∨ s.freeSlot i = none ∨ most = 0 ∨ free < needs r 1 → s.admitRows i rows (j :: l) = (s, [])) ∧
      (∀ n k, r.inst = i → s.freeSlot i = some n → 1 ≤ k → k ≤ most → needs r k ≤ free → k = most ∨ free < needs r (k + 1) →
        let s' := s.setRec j { r with slot := some n }
        ∃ t : State, pagesGiven s' t j k ∧ s.admitRows i rows (j :: l) =
            let x := (t.pageMapped j ((s'.freePages i).take (needs r k))).admitRows i (rows + k) l
            (x.1, ⟨j, k, false⟩ :: x.2))) ∧
    (∀ units, (s.emitOrder units).Perm units ∧ (s.emitOrder units).Pairwise (emitBefore s)) ∧
    (p.pool ≠ 0 → p.charges.length < p.d →
      let m := s.makeRoom i (s.takeRows i 0 (s.continuing i)) [] ((s.recsIn i .active).length + 1)
      let t := (m.2.1.foldl (fun q u => (q.grant u).1) m.1).failLong i
      ∃ pend : List Nat, (∀ j, j ∈ pend ↔ isOf t i .pending j ∧ j ∉ m.2.2) ∧ pend.Nodup ∧
        (pend.Pairwise fun x y => admitBefore (t.recd x) (t.recd y)) ∧
        let a := t.admitRows i (m.2.1.map fun u => u.k).sum pend
        s.kilnStep i = if m.2.1 ++ a.2 = [] then (a.1, refused 12) else a.1.emitCharge i (m.2.1 ++ a.2) m.2.2)

/-! # Configuration and system commands -/

/-- R284 to R292, R301, R316, R405, R406, R378, R379: what each configuration command does when nothing waits before it: the entry
receives the unit's answer; segments and windows are set at the commit; a window that is no longer probed closes with a notice; a
stage that has its tokens passes them and its core then commits, where its quarter is not in IDLE (R435). What they wake is the model's
reading (log 64). The order of the unit's queue (log 37), the answer of a token and
when routes connect (log 38), that a new binding or load discards what its port held (log 39) and the refusals of circ.bind (log 40)
are the model's choices, and so are who may act on a secure core
or region (log 35), that win.set opens a window of SIZE 0 (log 37), which of several reasons a refusal names (log 72) and that seg.set
takes an empty segment with any base (log 73); a circuit's credits follow from the far end's capacity as
log 14 says. -/
def Obligations.ConfigCommands : Prop :=
  (∀ (s : State) (pg : PReg) (ga gb gc : GReg), sysCall s pg → s.tokens = [] → s.cfgWait = [] →
    (∀ c t pa, selects (s.g ga) c t → (s.g gc).toNat ≠ 0 → s.tr .engRd (s.g gb) 1 (s.g gc).toNat = .ok pa →
      let bs := s.bytes pa (s.g gc).toNat
      (∀ r, s.loadRefusal c t bs s.me.ctxWorld = some r →
        Machine.exec (.cfgLoad pg ga gb gc) s = sysAnswer s fun q => (q, refused r)) ∧
      (s.loadRefusal c t bs s.me.ctxWorld = none → Machine.exec (.cfgLoad pg ga gb gc) s = sysAnswer s fun q =>
        ((q.wake c).modCore c fun k => { k with shadow := sput t (shadowOf bs) k.shadow }, done 0))) ∧
    (∀ r, names (s.g ga) r →
      let blocked : Prop := secureRegion s r ∧ ¬ mayAct s
      let busy : Prop := ∃ c ∈ r.cores, (s.core c).cfgBusy = true
      let cs := r.cores.filter fun c => !(s.core c).shadow.isEmpty
      (∀ start,
        (blocked → Machine.exec (.cfgCommit pg ga start) s = sysAnswer s fun q => (q, refused 4)) ∧
        (¬ blocked → busy → Machine.exec (.cfgCommit pg ga start) s = sysAnswer s fun q => (q, refused 6)) ∧
        (¬ blocked → ¬ busy → Machine.exec (.cfgCommit pg ga start) s = sysAnswer s fun q =>
          let q1 := cs.foldl (fun x c => x.installCore c .resident) ((q.wakeRegion r).setGroups cs)
          let q2 := (cs.flatMap fun c => (s.core c).shadow.flatMap fun e => e.2.routes.map fun w => (c, w)).foldl
            (fun x w => x.connect w.1 w.2) q1
          (if start then startedIn q2 r else q2, done cs.length))) ∧
      (blocked → Machine.exec (.cfgAbort pg ga) s = sysAnswer s fun q => (q, refused 4)) ∧
      (¬ blocked → ∃ t : State, Machine.exec (.cfgAbort pg ga) s = completes s (t.fill (entry s) (done cs.length)) ∧
        { t with cores := s.cores } = { asked s with cores := s.cores } ∧
        ∀ c, t.core c = if c ∈ r.cores then { (s.core c) with shadow := [] } else (asked s).core c) ∧
      (cs = [] → Machine.exec (.cfgTok pg ga) s = sysAnswer s fun q => (q, refused 7)) ∧
      (cs ≠ [] → blocked → Machine.exec (.cfgTok pg ga) s = sysAnswer s fun q => (q, refused 4)) ∧
      (cs ≠ [] → ¬ blocked → ∃ tok : Token, tok.region = r ∧ tok.rq = entry s ∧ tok.todo = cs ∧
        Machine.exec (.cfgTok pg ga) s = completes s { (((asked s).wakeRegion r).setGroups cs).injectToken r with tokens := [tok] }))) ∧
  (∀ (s : State) (c t : Nat) (st : StageState), c < 288 →
    let x := sget shadowReset (s.core c).shadow t
    let u := s.install c t st
    let k := u.core c
    let data := c * 0x4000000 + x.dataOff
    k.stage t = { x.stage with state := st, group := x.group.getD { x := c % 16, y := c / 16, w := 1, h := 1 } } ∧
    k.ctx t = { Ctx.reset with fireLimit := x.limit } ∧ k.ctxOwner = x.owner ∧ k.ctxWorld = x.world ∧
    (∀ n, n ≠ t → k.stage n = (s.core c).stage n ∧ k.ctx n = (s.core c).ctx n) ∧
    (∀ i < x.bundles.length, sget 0 k.istore (x.stage.cbase + i) = x.bundles.getD i 0) ∧
    (∀ i, i < x.stage.cbase ∨ x.stage.cbase + x.bundles.length ≤ i → sget 0 k.istore i = sget 0 (s.core c).istore i) ∧
    (∀ n ∈ x.stage.ins, (u.iq c n).owner = some t ∧ (u.iq c n).q = [] ∧ (u.iq c n).cap = sget 0 x.caps n) ∧
    (∀ b < x.data.length, u.byte (data + b) = x.data.getD b 0) ∧
    (∀ b < x.bssLen, u.byte (data + x.data.length + b) = 0) ∧
    ∀ a, a < data ∨ data + x.data.length + x.bssLen ≤ a → u.byte a = s.byte a) ∧
  (∀ (s : State) (c : Nat) (w : BitVec 32), routeExt w = false →
    let n := routeOq w
    let d := routeTo c w
    let m := routeIq w
    let u := s.connect c w
    let stands := (s.oq c n).bind = .route d m ∧ (s.iq d m).bind = .route c n
    (stands → u = s.modOq c n fun p => { p with credits := p.credits + p.notices, notices := 0 }) ∧
    (¬ stands → (u.oq c n).bind = .route d m ∧ (u.oq c n).credits = (s.iq d m).cap ∧ (u.oq c n).notices = 0 ∧
      (u.iq d m).bind = .route c n ∧ (u.iq d m).q = [] ∧ (u.iq d m).coming = [] ∧ ∀ a, u.byte a = s.byte a)) ∧
  (∀ (s : State) (pg : PReg) (ga gb : GReg) (n : BitVec 4) (c : Nat), sysLevel s pg → selects (s.g ga) c 0 →
    (segOk (s.g gb) = true → (segWorld (s.g gb) = true → s.me.ctxWorld = true) → (secureCore s c → mayAct s) →
      Machine.exec (.segSet pg n ga gb) s =
        completes s ((s.wake c).modCore c fun k => { k with seg := sset 0 k.seg n.toNat (s.g gb) })) ∧
    (segOk (s.g gb) = true → (segWorld (s.g gb) = true ∧ s.me.ctxWorld = false) ∨ (secureCore s c ∧ ¬ mayAct s) →
      Machine.exec (.segSet pg n ga gb) s = faults s (privT 3) .x) ∧
    (segOk (s.g gb) = false → Machine.exec (.segSet pg n ga gb) s = faults s (illopT 0x59) .x)) ∧
  (∀ (s : State) (pg : PReg) (w : BitVec 8) (ga gb gc : GReg), sysLevel s pg →
    ((s.win w.toNat).state ≠ .free → Machine.exec (.winSet pg w ga gb gc) s = faults s (illopT 0x5A) .x) ∧
    (∀ base size attr : Nat, (s.win w.toNat).state = .free → (s.g ga).toNat = base * 65536 → (s.g gb).toNat = size * 65536 →
      (s.g gc).toNat = attr → attr < 256 →
      ((base + size) * 65536 ≤ 0x480000000 ∨ (0x800000000 ≤ base * 65536 ∧ (base + size) * 65536 ≤ 0x870000000) ∨
        (attr.testBit 4 = true ∧ 0x800000000 ≤ base * 65536 ∧ (base + size) * 65536 ≤ 0x880000000)) →
      (attr.testBit 4 = true → ¬ mayAct s → Machine.exec (.winSet pg w ga gb gc) s = faults s (privT 3) .x) ∧
      ((attr.testBit 4 = true → mayAct s) → Machine.exec (.winSet pg w ga gb gc) s = completes s (s.setWin w.toNat
        { state := .isOpen, base := BitVec.ofNat 24 base, size := BitVec.ofNat 24 size, owner := BitVec.ofNat 4 attr,
          world := attr.testBit 4, rd := attr.testBit 5, wr := attr.testBit 6, at_ := attr.testBit 7, queued := 0, probes := [],
          rq := none })))) ∧
  (∀ (s : State) (pg : PReg) (w : BitVec 8), sysCall s pg →
    ((s.win w.toNat).state = .free → Machine.exec (.winRevoke pg w) s = sysAnswer s fun q => (q, refused 2)) ∧
    ((s.win w.toNat).state ≠ .free → (s.win w.toNat).world = true → s.me.ctxWorld = false →
      Machine.exec (.winRevoke pg w) s = sysAnswer s fun q => (q, refused 4)) ∧
    (((s.win w.toNat).world = true → s.me.ctxWorld = true) →
      ((s.win w.toNat).state = .revoking → Machine.exec (.winRevoke pg w) s = sysAnswer s fun q => (q, refused 7)) ∧
      ((s.win w.toNat).state = .isOpen → ∃ t : State, Machine.exec (.winRevoke pg w) s = completes s t ∧
        t.win w.toNat = { (s.win w.toNat) with state := .revoking, probes := s.probeCircs, rq := some (entry s) } ∧
        (∀ x, x ≠ w.toNat → t.win x = s.win x) ∧ { t with wins := s.wins, circs := s.circs } = asked s))) ∧
  (∀ (s : State) (pg : PReg) (ga : GReg) (pa : Nat), sysCall s pg → s.tr .engRd (s.g ga) 1 32 = .ok pa →
    let x := circOf (s.bytes pa 32)
    let w3 : Word := BitVec.ofNat 64 (value s (pa + 24) 8)
    (s.bindRefusal x w3 (decide (s.me.hub.priv ≠ .m)) = none →
      Machine.exec (.circBind pg ga) s = sysAnswer s fun q => (q.installCirc x, done x.id)) ∧
    (∀ r, s.bindRefusal x w3 (decide (s.me.hub.priv ≠ .m)) = some r →
      Machine.exec (.circBind pg ga) s = sysAnswer s fun q => (q, refused r)) ∧
    ((s.circ x.id).state = .free ∨ (s.circ x.id).tag ≠ x.tag →
      Machine.exec (.circBindRel pg ga) s = sysAnswer s fun q => (q, refused 7)) ∧
    ((s.circ x.id).state ≠ .free → (s.circ x.id).tag = x.tag →
      ((s.circ x.id).world = true → s.me.hub.priv ≠ .m →
        Machine.exec (.circBindRel pg ga) s = sysAnswer s fun q => (q, refused 4)) ∧
      (((s.circ x.id).world = true → s.me.hub.priv = .m) →
        Machine.exec (.circBindRel pg ga) s = sysAnswer s fun q => (q.releaseCirc x.id, done 0)))) ∧
  (∀ (s : State) (x : Circ), x.ends ≠ 4 →
    let t := s.installCirc x
    t.circ x.id = x ∧ (∀ id, id ≠ x.id → t.circ id = s.circ id) ∧
    (x.ends = 0 → x.port < 16 → (s.iq x.core x.port).bind = .unbound →
      t.iq x.core x.port = { (s.iq x.core x.port) with
        bind := .circ x.id, q := (s.iq x.core x.port).q.filter fun e => decide (e.kind = .token), coming := [], held := [], beat := 0
        word := 0, openCh := false, failed := false
        owed := ((s.iq x.core x.port).q.filter fun e => decide (e.kind = .token)).length }) ∧
    (x.ends = 0 → 16 ≤ x.port → (s.oq x.core (x.port - 16)).bind = .unbound →
      t.oq x.core (x.port - 16) = { (s.oq x.core (x.port - 16)) with
        bind := .circ x.id, credits := s.farCap x, notices := 0, cur := none, outq := [], failed := false }) ∧
    (x.ends = 1 → x.rv = true →
      ((s.iq x.core x.riq).bind = .unbound → (t.iq x.core x.riq).bind = .reply x.core ∧
        ∀ e ∈ (t.iq x.core x.riq).q ++ (t.iq x.core x.riq).coming ++ (t.iq x.core x.riq).held, e.kind = .token) ∧
      ((s.iq x.core x.riq).bind ≠ .unbound → t.iq x.core x.riq = s.iq x.core x.riq))) ∧
  (∀ (s : State) (id : Nat), (s.circ id).id = id → (s.circ id).ends ≠ 4 →
    let x := s.circ id
    let t := s.releaseCirc id
    t.circ id = Circ.reset ∧ (x.mode ≠ 0 → sget 0 t.boot.keySlots x.keyslot = 0) ∧
    (x.ends = 0 → x.bondn ≤ 1 → x.port < 16 → (s.iq x.core x.port).bind = .circ id →
      (t.iq x.core x.port).bind = .unbound ∧ ∀ e ∈ (t.iq x.core x.port).q, e.kind = .token) ∧
    (x.ends = 0 → x.bondn ≤ 1 → 16 ≤ x.port → (s.oq x.core (x.port - 16)).bind = .circ id →
      (t.oq x.core (x.port - 16)).bind = .unbound ∧ (t.oq x.core (x.port - 16)).credits = 0 ∧
      (t.oq x.core (x.port - 16)).cur = none) ∧
    ((s.link' x.link).state ≠ .down → (t.link' x.link).ctlq = (s.link' x.link).ctlq ++ [(6,
      { badTag := none, src := s.pkgNo, dst := ((s.link' x.link).peerPkg.getD 0), arg := BitVec.ofNat 64 x.index, data := [] })])) ∧
  (∀ (s : State) (w : Nat), (s.win w).state = .revoking → (s.win w).queued = 0 →
    (s.win w).probes = [] →
    ∃ t : State, t.win w = Window.reset ∧ (∀ x, x ≠ w → t.win x = s.win x) ∧ { t with wins := s.wins, notices := s.notices } = s ∧
      t.notices = s.notices ++ [{ w0 := BitVec.ofNat 64 (6 + (s.win w).owner.toNat * 2 ^ 8 + if (s.win w).world then 2 ^ 12 else 0),
                                  w1 := BitVec.ofNat 64 w, w2 := 0, w3 := 0 }] ∧
      ((s.win w).rq = none → Machine.exec (.windowRevokeComplete w) s = .next t) ∧
      ∀ r, (s.win w).rq = some r → Machine.exec (.windowRevokeComplete w) s = .next (t.fill r (done 0))) ∧
  (∀ (s : State) (c : Nat), s.clocked c = false → Machine.exec (.coreCommit c) s = .next s ∧
    ∀ t, (∀ n ∈ ((s.core c).stage t).ins, s.placeToken c n = none) → Machine.exec (.tokenPass c t) s = .next s) ∧
  (∀ (s : State) (c : Nat) (tok : Token), (s.tokens.find? fun x => x.todo.contains c) = some tok → s.clocked c = true →
    (∀ t, s.replaced tok.region c t = true → ((s.core c).stage t).passed = false →
      (∀ n ∈ ((s.core c).stage t).ins, s.placeToken c n = none ∧ (s.iq c n).headToken = true) →
      ((s.core c).stage t).state ≠ .firing → ((s.core c).stage t).state ≠ .halted →
      (∀ n ∈ s.innerOuts tok.region c t, 0 < (s.oq c n).credits) →
      Machine.exec (.tokenPass c t) s = .next (((s.innerOuts tok.region c t).foldl (fun q n => q.pushEntry c n tokenEntry)
        (((s.core c).stage t).ins.foldl (fun q n => q.removeHead c n) s)).modCore c fun k =>
          k.modStage t fun x => { x with passed := true })) ∧
    ((∀ e ∈ (s.core c).shadow, ((s.core c).stage e.1).passed = true) → (s.core c).quiet = true →
      let s1 := s.installCore c (if c ∈ tok.started then .eligible else .resident)
      let tok2 : Token := { tok with
        todo := tok.todo.erase c, routes := tok.routes ++ (s.core c).shadow.flatMap fun e => e.2.routes.map fun w => (c, w) }
      (tok.todo.erase c ≠ [] → Machine.exec (.coreCommit c) s =
        .next { s1 with tokens := s1.tokens.map fun x => if x = tok then tok2 else x }) ∧
      (tok.todo.erase c = [] → s.cfgWait = [] → Machine.exec (.coreCommit c) s =
        .next ((tok2.routes.foldl (fun (q : State) w => q.connect w.1 w.2) { s1 with tokens := s1.tokens.erase tok }).fill tok.rq
          (done (tok.region.w * tok.region.h))))))

/-- R274, R293 to R295, R395, R398, R399, R412: notices, the logbook and the debugger; the entry that a command reserved stands last in
the result queue of the system engine; an action of the debugger that takes effect wakes the quarter of the core that it names, and one
that is refused changes its entry alone (R435; log 64). A bundle that a .skip in split mode makes its stream's next is that from this
step on (log 10). DATA[0] of the debugger's answers and that a .halt withdraws a .step that is pending (log 42) and what a caller reads
of a log entry that it may not see (log 51) are the model's choices. -/
def Obligations.SystemCommands : Prop :=
  (∀ (s : State) (v : Word), s.me.haltq = [] → (∀ x ∈ s.me.rqOf 2, x.id ≠ s.me.nextId) →
    ((asked s).fill (entry s) v).me.rqOf 2 = s.me.rqOf 2 ++ [{ id := s.me.nextId, stage := s.stg, val := some v }]) ∧
  (∀ (s : State) (pg : PReg) (ga gb : GReg) (pa : Nat), sysCall s pg → s.tr .engWr (s.g ga) 1 32 = .ok pa →
    ((∀ n ∈ s.notices, s.me.mayTake n = false) → Machine.exec (.eventPop pg ga) s = sysAnswer s fun q => (q, refused 12)) ∧
    (∀ pre n post, s.notices = pre ++ n :: post → (∀ m ∈ pre, s.me.mayTake m = false) → s.me.mayTake n = true →
      ∃ t : State, Machine.exec (.eventPop pg ga) s = completes s (t.fill (entry s) (done (n.w0.toNat % 256))) ∧
        t.notices = pre ++ post ∧ noticeAt t pa n ∧ (∀ a, a < pa ∨ pa + 32 ≤ a → t.byte a = s.byte a) ∧
        t.cores = (asked s).cores ∧
        ∀ i, t.recd i = if (n.w0.toNat % 256 = 2 ∨ n.w0.toNat % 256 = 3) ∧ i = n.w1.toNat % 4096 then Rec.reset else s.recd i) ∧
    (∃ t : State, Machine.exec (.logRd pg ga gb) s =
        completes s (t.fill (entry s) (done (s.logSeq.toNat * 1024 + s.logSeq.toNat % 1024))) ∧
      (let src := 0x870000000 + 32 * ((s.g gb).toNat % 1024)
       (value s src 8 / 2 ^ 16 % 2 = 0 ∨ s.me.ctxWorld = true → ∀ b < 32, t.byte (pa + b) = s.byte (src + b)) ∧
       (value s src 8 / 2 ^ 16 % 2 = 1 → s.me.ctxWorld = false →
         ∀ b < 32, t.byte (pa + b) = if 4 ≤ b ∧ b < 8 then s.byte (src + b) else 0)) ∧
      (∀ a, a < pa ∨ pa + 32 ≤ a → t.byte a = s.byte a) ∧ t.cores = (asked s).cores)) ∧
  (∀ (s : State) (pg : PReg) (ga : GReg) (c t : Nat), sysCall s pg → selects (s.g ga) c t → mayDebug s c →
    let q := (asked s).wake c
    let k := s.core c
    let st := k.stage t
    (∀ free : State, (k.stepOne = none → free = asked s) →
      (∀ r, k.stepOne = some r → free = ((asked s).modCore c fun x => { x with stepOne := none }).fill r (refused 7)) →
      Machine.exec (.dbgCtlHalt pg ga) s =
        completes s (((free.wake c).modCore c fun x => { x with halted := true }).fill (entry s) (done 1)) ∧
      Machine.exec (.dbgCtlHaltq pg ga) s =
        completes s (((free.wake c).modCore c fun x => { x with halted := true, haltq := x.haltq ++ [entry s] }).settleHaltq c 9)) ∧
    (k.halted = true ∨ k.hub.stopped = true →
      Machine.exec (.dbgCtlRun pg ga) s = completes s
        ((q.modCore c fun x => { x with halted := false, accRaw := [], hub := { x.hub with stopped := false } }).fill (entry s) (done 0)) ∧
      Machine.exec (.dbgCtlStep pg ga) s = completes s
        (q.modCore c fun x => { x with
          halted := false, accRaw := [], stepOne := some (entry s), hub := { x.hub with stopped := false } })) ∧
    (k.halted = false → k.hub.stopped = false →
      Machine.exec (.dbgCtlRun pg ga) s = (sysAnswer s fun x => (x, refused 7)) ∧
      Machine.exec (.dbgCtlStep pg ga) s = (sysAnswer s fun x => (x, refused 7))) ∧
    (st.state ≠ .halted → ∀ i, i = .dbgCtlResume pg ga ∨ i = .dbgCtlSkip pg ga ∨ i = .dbgCtlAbort pg ga →
      Machine.exec i s = sysAnswer s fun x => (x, refused 7)) ∧
    (st.state = .halted →
      Machine.exec (.dbgCtlAbort pg ga) s = (sysAnswer s fun x => ((x.wake c).abortStage c t, done 0)) ∧
      (st.haltCause = 0x10 →
        Machine.exec (.dbgCtlResume pg ga) s =
          (sysAnswer s fun x => ((x.wake c).modCore c fun y => y.modStage t fun z => { z with state := .eligible }, done 0)) ∧
        Machine.exec (.dbgCtlSkip pg ga) s = (sysAnswer s fun x => (x, refused 7))) ∧
      (st.haltCause ≠ 0x10 →
        (k.firing = none → k.resuming = [] →
          Machine.exec (.dbgCtlResume pg ga) s =
            (sysAnswer s fun x => ((x.wake c).modCore c fun y => y.resumeStage t false s.ticks, done 0)) ∧
          Machine.exec (.dbgCtlSkip pg ga) s =
            (sysAnswer s fun x => ((x.wake c).modCore c fun y => y.resumeStage t true s.ticks, done 0))) ∧
        (k.firing ≠ none →
          Machine.exec (.dbgCtlResume pg ga) s =
            completes s (q.modCore c fun y => { y with resuming := y.resuming ++ [(t, false, entry s)] }) ∧
          Machine.exec (.dbgCtlSkip pg ga) s =
            completes s (q.modCore c fun y => { y with resuming := y.resuming ++ [(t, true, entry s)] }))))) ∧
  (∀ (s : State) (pg : PReg) (ga : GReg) (c t : Nat), sysCall s pg → selects (s.g ga) c t → ¬ mayDebug s c →
    ∀ i, i = .dbgCtlHalt pg ga ∨ i = .dbgCtlHaltq pg ga ∨ i = .dbgCtlRun pg ga ∨ i = .dbgCtlStep pg ga ∨
      i = .dbgCtlResume pg ga ∨ i = .dbgCtlSkip pg ga ∨ i = .dbgCtlAbort pg ga →
      Machine.exec i s = faults s (privT 3) .x) ∧
  (∀ (k : Core) (t now : Nat) (skip : Bool),
    let u := k.resumeStage t skip now
    let at_ := if skip = true ∧ (k.stage t).haltCause ≠ 0x0E ∧ (k.stage t).haltCause ≠ 0x0F
      then (k.stage t).haltPc + 32 else (k.stage t).haltPc
    u.firing = some t ∧ (u.stage t).state = .firing ∧
    ((k.ctx t).split = none → u.pc = at_) ∧
    ((k.ctx t).split ≠ none →
      let i := (k.stage t).haltStream
      let b := (k.ctx t).bank i
      u.pc = k.pc ∧ (u.ctx t).bank i = { b with pc := at_, since := if b.pc = at_ then b.since else now } ∧
      ∀ j, j ≠ i → (u.ctx t).bank j = (k.ctx t).bank j)) ∧
  (∀ (s : State) (c t : Nat),
    ((s.core c).ctx t).charge ∈ (((s.abortStage c t).core c).stage t).discard ∧
    (∀ d ∈ ((s.core c).stage t).discard, d ∈ (((s.abortStage c t).core c).stage t).discard) ∧
    (((s.abortStage c t).core c).stage t).state = .eligible) ∧
  (∀ (s : State) (c t : Nat) (skip : Bool) (rq : RqRef) (rest : List (Nat × Bool × RqRef)),
    (s.core c).resuming = (t, skip, rq) :: rest →
    (((s.core c).stage t).state = .halted → (s.core c).firing = none → Machine.exec (.haltedStageResumes c) s =
      .next ((s.modCore c fun k => { k with resuming := rest }.resumeStage t skip s.ticks).fill rq (done 0))) ∧
    (((s.core c).stage t).state ≠ .halted → Machine.exec (.haltedStageResumes c) s =
      .next ((s.modCore c fun k => { k with resuming := rest }).fill rq (refused 7))))

/-! # Arrivals, grants, the hub's own events -/

/-- R236, R338 to R346, R400, R37, R43, R161, R307, R310: entries and notices that arrive; the arbiter's grant, with what a charge boundary
clears (Table 1.13) and what stays without one; a pass-through and MARKSEQ; the watchdog; discard and its abort CE; the CYCLES compare;
configuration space; the scrubber. The model's choices are the capacity of a far port (log 14), when a discarding stage removes an entry
and what the scrubber logs (log 41), that an event that is not enabled changes nothing (log 50), the charge boundary's wait (log 53), in
split mode the stream that the watchdog names (log 10), the place of a token, an entry that waits for its slot, and a stage that a
region holds back (log 38), that a configuration access to a halted core waits for its array (log 43) and shows and takes the own values of a stage in
split mode (log 74), and that the flits up to one
whose tag fails count and a malformed entry becomes nothing (log 45). -/
def Obligations.PortAndFiringEvents : Prop :=
  (∀ (s : State) (c n : Nat) (e : Entry), (s.iq c n).tokenDue = false → (s.iq c n).behind = false →
    (∀ rest, (s.iq c n).coming = e :: rest →
      (slotAt s c n → ∃ t : State, Machine.exec (.entryArrives c n none) s = .next t ∧ present s t c n e ∧ (t.iq c n).coming = rest) ∧
      (¬ slotAt s c n → Machine.exec (.entryArrives c n none) s = .next s)) ∧
    (∀ id bad run, (s.iq c n).bind = .circ id → run = s.nextFlits id 1 e.beats.length → s.live id run = true →
      s.runFits id run (entryFlits e) = true →
      (s.authFails id bad = false → entryWhole e = true →
        ((s.iq c n).coming = [] → slotAt s c n →
          ∃ t : State, Machine.exec (.entryArrives c n (some (e, bad))) s = .next t ∧ present s t c n e) ∧
        ((s.iq c n).coming ≠ [] ∨ ¬ slotAt s c n → Machine.exec (.entryArrives c n (some (e, bad))) s =
          .next ((s.accepted id run).modIq c n fun x => { x with coming := x.coming ++ [e] }))) ∧
      (s.authFails id bad = false → entryWhole e = false →
        Machine.exec (.entryArrives c n (some (e, bad))) s = .next (s.accepted id run)) ∧
      (s.authFails id bad = true → (∀ r, (run.take (bad.getD 0 + 1)).getLast? = some r → r.2 = none) →
        Machine.exec (.entryArrives c n (some (e, bad))) s =
          .next ((s.accepted id (run.take (bad.getD 0 + 1))).failCirc id 1)))) ∧
  (∀ (s : State) (c n : Nat) (e : Entry) (rest : List Entry), (s.iq c n).behind = true → (s.iq c n).coming = e :: rest →
    slotAt s c n →
    ∃ t : State, Machine.exec (.entryArrives c n none) s = .next t ∧ (t.iq c n).q = (s.iq c n).q ∧
      (t.iq c n).held = (s.iq c n).held ++ [e] ∧ (t.iq c n).coming = rest ∧ ∀ d, d ≠ c → t.core d = s.core d) ∧
  (∀ (s : State) (c n k : Nat), 1 ≤ k → k ≤ 16 →
    (k ≤ (s.oq c n).notices → (∀ d m, (s.oq c n).bind = .route d m → (s.iq d m).tokenDue = false) →
      ∃ t : State, Machine.exec (.freeSlotNotice c n k none) s = .next t ∧
      t.oq c n = { (s.oq c n) with notices := (s.oq c n).notices - k, credits := (s.oq c n).credits + k } ∧
      (∀ m, m ≠ n → t.oq c m = s.oq c m) ∧ ∀ d, d ≠ c → t.core d = s.core d) ∧
    (∀ d m, k ≤ (s.oq c n).notices → (s.oq c n).bind = .route d m → (s.iq d m).bind = .route c n → (s.iq d m).tokenDue = true →
      s.openTail (s.iq d m) = false → (s.oq c n).outq = [] → ∃ t : State, Machine.exec (.freeSlotNotice c n k none) s = .next t ∧
        (t.oq c n).notices = (s.oq c n).notices - k ∧ (t.oq c n).credits = (s.oq c n).credits + k - 1 ∧
        (t.iq d m).tokenDue = false ∧
        if (s.iq d m).coming = [] then (t.iq d m).q = (s.iq d m).q ++ [tokenEntry] ∧ (t.iq d m).behind = true
        else (t.iq d m).coming = (s.iq d m).coming ++ [tokenEntry] ∧ (t.iq d m).q = (s.iq d m).q) ∧
    (∀ id auth, (s.oq c n).bind = .circ id → comes s id (s.nextFlits id 5 1) (if auth then none else some 0) →
      s.runFits id (s.nextFlits id 5 1) [(BitVec.ofNat 512 k, 0)] = true → (s.oq c n).credits + k ≤ s.farCap (s.circ id) →
      ∃ t : State, Machine.exec (.freeSlotNotice c n k (some auth)) s = .next t ∧
        t.oq c n = { (s.oq c n) with credits := (s.oq c n).credits + k } ∧ ∀ d, d ≠ c → t.core d = s.core d)) ∧
  (∀ (s : State) (c t : Nat), s.arbiter c = some t → t < 8 ∧ s.ready c t = true ∧
    ∀ x < 8, s.ready c x = true → ((s.core c).stage x).ePrio ≤ ((s.core c).stage t).ePrio) ∧
  (∀ (s : State) (c t : Nat), granted s c t → s.passes c t = false → s.boundaryOk c t = true →
    ∃ u : State, Machine.exec (.firingGrant c) s = .next u ∧ (u.core c).firing = some t ∧ ((u.core c).stage t).state = .firing ∧
      (u.core c).lastGrant = t ∧ ((u.core c).stage t).aging = 0 ∧
      (u.core c).pc.toNat = 32 * (((s.core c).stage t).startIndex (s.nextDesc c t).2.isSome).toNat ∧
      ((u.core c).ctx t).fireDesc = (s.nextDesc c t).1 ∧ (∀ a, u.byte a = s.byte a) ∧
      (∀ x < 8, x ≠ t → ((u.core c).stage x).aging = if s.ready c x then ((s.core c).stage x).aging + 1 else 0) ∧
      (∀ n ∈ ((s.core c).stage t).ins, ∀ d, d ∈ (u.iq c n).ceSeen ↔ d ∈ (s.iq c n).ceSeen ∧
        (d ∈ ((s.core c).stage t).discard ∨ ∃ m ∈ ((s.core c).stage t).ins, d ∉ (s.iq c m).ceSeen)) ∧
      (((s.core c).stage t).prevCharge ≠ some (s.nextCharge c t) → boundaryValues (s.core c) (u.core c) t) ∧
      (((s.core c).stage t).prevCharge = some (s.nextCharge c t) → workingKept (s.core c) (u.core c) t) ∧
      (∀ x, x ≠ t → (u.core c).ctx x = (s.core c).ctx x) ∧ ∀ d, d ≠ c → u.core d = s.core d) ∧
  (∀ (s : State) (c t : Nat), granted s c t → s.passes c t = true → s.markSeqStage c = none →
    (∀ n e, s.userPass c t = some n → s.markerAt c n = some e → Machine.exec (.passThrough c) s =
      .next ((((s.core c).stage t).outs.foldl (fun q o => q.pushEntry c o e)
        (((s.ageStages c t).endCharges c t).removeHead c n)).endCharges c t)) ∧
    (∀ n e ns, s.userPass c t = none → ((s.core c).stage t).ins = n :: ns → s.markerAt c n = some e →
      Machine.exec (.passThrough c) s = .next ((((s.core c).stage t).outs.foldl
        (fun q o => q.pushEntry c o (mkMarker (hKind e.head) (hCharge e.head) (hPayload e.head)))
        ((n :: ns).foldl (fun q m => q.removeHead c m) ((s.ageStages c t).endCharges c t))).endCharges c t))) ∧
  (∀ (s : State) (c t n : Nat) (d : BitVec 16), n ∈ ((s.core c).stage t).ins →
    (d ∈ ((s.endCharges c t).iq c n).ceSeen ↔ d ∈ (s.iq c n).ceSeen ∧
      (d ∈ ((s.core c).stage t).discard ∨ ∃ m ∈ ((s.core c).stage t).ins, d ∉ (s.iq c m).ceSeen))) ∧
  (∀ (s : State) (c t : Nat), t < 8 → (s.core c).halted = false → s.ready c t = false → ((s.tick.core c).stage t).aging = 0) ∧
  (∀ (s : State) (c t a b : Nat), s.evaluates c = true → s.mustDiscard c = false → s.markSeqStage c = some (t, a, b) →
    Machine.exec (.passThrough c) s = .next (s.haltStage c t 0 ⟨0x10, a + 2 ^ 8 * b, 0⟩ 7 0)) ∧
  (∀ (s : State) (c t : Nat), (s.core c).firing = some t → (s.core c).halted = false → ((s.core c).ctx t).fireLimit ≠ 0 →
    (((s.core c).ctx t).fireLimit.toNat ≤ ((s.core c).stage t).watch →
      (((s.core c).ctx t).split = none → Machine.exec (.firingWatchdog c) s =
        .next ((s.haltStage c t 0 ⟨0x0A, ((s.core c).ctx t).fireLimit.toNat, 0⟩ 7 (s.core c).pc).afterBundle c)) ∧
      (((s.core c).ctx t).split ≠ none → ∃ i < 4,
        ((∃ j < 4, (((s.core c).ctx t).bank j).joined = false) → (((s.core c).ctx t).bank i).joined = false ∧
          ∀ j < 4, (((s.core c).ctx t).bank j).joined = false →
            (((s.core c).ctx t).bank i).since ≤ (((s.core c).ctx t).bank j).since ∧
            (j < i → (((s.core c).ctx t).bank i).since < (((s.core c).ctx t).bank j).since)) ∧
        Machine.exec (.firingWatchdog c) s = .next ((s.haltStage c t i ⟨0x0A, ((s.core c).ctx t).fireLimit.toNat, 0⟩ 7
          (((s.core c).ctx t).bank i).pc).afterBundle c))) ∧
    (((s.core c).stage t).watch < ((s.core c).ctx t).fireLimit.toNat → Machine.exec (.firingWatchdog c) s = .next s)) ∧
  (∀ (s : State) (c t : Nat), (if 512 ≤ c then s.hubLive c else s.evaluates c) = true → ((s.core c).stage t).state = .eligible →
    let st := (s.core c).stage t
    (s.heldNew c t = false →
      (∀ d, s.abortSeen c t = some d → Machine.exec (.discardRemoval c t) s =
        .next (s.modCore c fun k => k.modStage t fun x => { x with discard := x.discard ++ [d] })) ∧
      (∀ n, s.abortSeen c t = none → s.discardPort c t = some n → Machine.exec (.discardRemoval c t) s =
        .next ((s.removeHead c n).endCharges c t))) ∧
    (∀ d, s.abortSeen c t = some d → d ∉ st.discard ∧ ∃ n ∈ st.ins, ∃ e ∈ (s.iq c n).q, isAbortCe e = true ∧ hCharge e.head = d) ∧
    (∀ n, s.discardPort c t = some n → n ∈ st.ins ∧ ∃ e rest, (s.iq c n).q = e :: rest ∧ e.kind ≠ .token ∧ hCharge e.head ∈ st.discard) ∧
    (∀ pre d post, st.discard = pre ++ d :: post → (∀ n ∈ st.ins, d ∈ (s.iq c n).ceSeen) →
      (∀ x ∈ pre, x ≠ d ∧ ∃ n ∈ st.ins, x ∉ (s.iq c n).ceSeen) → s.outsOpen c t = true → Machine.exec (.abortCe c t) s =
        .next ((st.ins.foldl (fun q n => q.modIq c n fun p => { p with ceSeen := p.ceSeen.erase d })
          (st.outs.foldl (fun q n => q.pushEntry c n (mkMarker 10 d 0x80000000)) s)).modCore c fun k =>
          k.modStage t fun x => { x with discard := x.discard.erase d }))) ∧
  (∀ (s : State) (c n : Nat) (e : Entry) (rest : List Entry), (s.iq c n).q = e :: rest →
    ((s.removeHead c n).iq c n).q = rest ∧ (e.kind = .marker → hKind e.head = 10 → hCharge e.head ∈ ((s.removeHead c n).iq c n).ceSeen)) ∧
  (∀ s : State,
    (s.cmpHit = false → s.cycCmp.toNat ≤ s.cycles.toNat → Machine.exec .cyclesCompare s = .next { s with cmpHit := true }) ∧
    (s.cycles.toNat < s.cycCmp.toNat → Machine.exec .cyclesCompare s = .next s)) ∧
  (∀ (s : State) (h n off : Nat) (v : Word), h < 8 → (s.core (512 + h)).hub.priv ≠ .u → n < 288 → off < 0x100000 → off % 8 = 0 →
    ((s.core n).ctxWorld = true → (s.core (512 + h)).ctxWorld = true) →
    let write := Machine.exec (.configSpaceWrite h (BitVec.ofNat 40 (0xF00000000 + 0x100000 * n + off)) v) s
    (haltedOnly off = true → (s.core n).halted = false →
      write = .next ((s.modCore n fun k => { k with cfgRefused := true }).wake n)) ∧
    (haltedOnly off = false ∨ (s.core n).halted = true → (s.core n).halted = false ∨ (s.core n).arr = [] ∨ off = 0xF2000 →
      write = .next ((s.modCore n fun k => k.cfgWriteWord off v).wake n)) ∧
    (off ≠ 0xF2000 → (s.core n).halted = true → (s.core n).arr ≠ [] → write = .next s ∧
      s.ldSpecial (512 + h) (0xF00000000 + 0x100000 * n + off) 0 = waiting) ∧
    (∀ t r, t < 8 → 1 ≤ r → r < 32 →
      ((s.core n).cfgWriteWord (0xE8000 + 0x400 * t + 8 * r) v) = (s.core n).modCtx t fun x => { x with g := sset 0 x.g r v }) ∧
    (∀ d : GReg, d ≠ 0 → ∃ t : State, Machine.exec (.cfgStatusRead h n d) s = .next t ∧
      sget 0 ((t.core (512 + h)).ctx 0).g d.toNat = (s.core n).cfgStatus ∧ (t.core n).cfgRefused = false ∧
      { (t.core n) with cfgRefused := (s.core n).cfgRefused } = s.core n)) ∧
  (∀ (s : State) (w : Nat), (rangeOf (8 * w)).isMem = true →
    (s.badIn (8 * w) 8 = true → w ∉ s.eccSeen → Machine.exec (.scrub w) s =
      .next (State.log { s with eccSeen := s.eccSeen ++ [w] } 0x05 7 0 false 0 0x1FF 0 0 w 0)) ∧
    (s.badIn (8 * w) 8 = false ∨ w ∈ s.eccSeen → Machine.exec (.scrub w) s = .next s))

/-! # Packets and links -/

/-- R265 to R269, R279, R313 to R316, R384, R388, Table 11.3: a request that passes its window's checks takes effect and is answered,
one that fails a check is answered with that check's code, one with a reserved field set or of a reserved OP with RANGE; a response
finishes its packet; probes are answered in order; a response or a probe with a reserved field or of a reserved OP fails the circuit
with PROTO; nothing of a packet whose tag fails is delivered. Which fields an OP leaves unused, and the codes of a malformed response
or probe, are the model's reading (log 46); that a packet's event comes with its last flit is its choice (log 45). -/
def Obligations.Packets : Prop :=
  (∀ (s : State) (id : Nat) (p : Packet), arrives s id 2 2 p →
    let t := accepted s id 2 p
    let off := p.da.toNat % 2 ^ 40
    let n := p.len.toNat
    let fits := 1 ≤ n ∧ n ≤ 64 ∧ off % 64 + n ≤ 64
    (p.op = 1 → unusedZero p → fits →
      (∀ pa, opens s id p.da n .wr pa → Machine.exec (.write id p) s = answers (t.store pa (carried p)) id 9 0 p.rtag []) ∧
      (∀ code, closedBy s id p.da n .wr code → Machine.exec (.write id p) s = answers t id 9 code p.rtag [])) ∧
    (p.op = 1 → ¬ fits → Machine.exec (.write id p) s = answers t id 9 5 p.rtag []) ∧
    (p.op = 0 ∨ (7 ≤ p.op.toNat ∧ p.op ≠ 11) → Machine.exec (.write id p) s = answers t id 9 5 p.rtag []) ∧
    (¬ unusedZero p → ∀ i, (p.op = 1 ∧ i = .write id p) ∨ (p.op = 2 ∧ i = .read id p) ∨ (p.op = 3 ∧ i = .atomic id p) ∨
      (p.op = 4 ∧ i = .flag id p) ∨ (p.op = 5 ∧ i = .fence id p) ∨ (p.op = 6 ∧ i = .kret id p) →
      Machine.exec i s = answers t id 9 5 p.rtag []) ∧
    (p.op = 2 → unusedZero p → fits →
      (∀ pa, opens s id p.da n .rd pa →
        (s.badIn pa n = false → Machine.exec (.read id p) s = answers t id 10 0 p.rtag (s.bytes pa n)) ∧
        (s.badIn pa n = true → Machine.exec (.read id p) s = answers t id 9 6 p.rtag [])) ∧
      (∀ code, closedBy s id p.da n .rd code → Machine.exec (.read id p) s = answers t id 9 code p.rtag [])) ∧
    (∀ (op : RamoOp) (wide : Bool) (size : Nat), p.op = 3 → unusedZero p → size = (if wide then 8 else 4) → n = size →
      p.sub.toNat = op.code.toNat + (if wide then 16 else 0) →
      (∀ pa, opens s id p.da size .at_ pa → off % size = 0 → s.badIn pa size = false →
        Machine.exec (.atomic id p) s = answers
          (match ramoLeaves op (8 * size) (value s pa size) (low (8 * size) p.opnd) (low (8 * size) p.cmp) with
            | some v => t.store pa (bytesOf size (BitVec.ofNat 64 v))
            | none => t) id 10 0 p.rtag (s.bytes pa size)) ∧
      (∀ code, closedBy s id p.da size .at_ code → Machine.exec (.atomic id p) s = answers t id 9 code p.rtag [])) ∧
    (∀ i, (p.op = 4 ∧ i = .flag id p) ∨ (p.op = 5 ∧ i = .fence id p) → unusedZero p → 32 ≤ p.sub.toNat → p.sub.toNat < 64 →
      (∀ pa, opens s id p.da 1 .at_ pa → pa < 0x480000000 →
        let add : Int := (p.opnd.setWidth 32).toInt
        flagOver (((s.core (pa / 0x4000000)).flag p.sub.toNat).value.toInt + add) = false →
        Machine.exec i s = answers (t.modCore (pa / 0x4000000) fun k => k.modFlag p.sub.toNat fun f =>
          { f with value := f.value + p.opnd.setWidth 32 }) id 9 0 p.rtag []) ∧
      (∀ code, closedBy s id p.da 1 .at_ code → Machine.exec i s = answers t id 9 code p.rtag [])) ∧
    (p.op = 6 → unusedZero p → n % 8 = 0 → n ≠ 0 → n ≤ 64 → p.sub.toNat < 8 →
      Machine.exec (.kret id p) s = .next { t with kiln := { s.kiln with queue := s.kiln.queue ++
        [.retPkt p.sub.toNat ((List.range (n / 8)).map fun i => BitVec.ofNat 64 (leAt (carried p) (8 * i) 8)) id p.rtag false] } }) ∧
    (p.op = 11 →
      let good := p.code = 0 ∧ p.len = 0 ∧ blank p ∧ id ∈ (s.win p.rtag.toNat).probes
      (good → Machine.exec (.probeAns id p) s =
        .next (t.setWin p.rtag.toNat { (s.win p.rtag.toNat) with probes := (s.win p.rtag.toNat).probes.erase id })) ∧
      (¬ good → Machine.exec (.probeAns id p) s = .next (t.failCirc id 5)))) ∧
  (∀ (s : State) (id : Nat) (p : Packet), arrives s id 1 2 p →
    let t := accepted s id 2 p
    let good := p.op = 7 ∧ p.code = 0 ∧ p.len = 0 ∧ blank p
    (good → Machine.exec (.probe id p) s = .next (t.modCirc id fun x => { x with probes := x.probes ++ [p.rtag] })) ∧
    (¬ good → Machine.exec (.probe id p) s = .next (t.failCirc id 5))) ∧
  (∀ (s : State) (id : Nat) (p : Packet), arrives s id 1 3 p →
    let t := accepted s id 3 p
    let c := (s.circ id).core
    ∀ i, (p.op ≠ 10 ∧ i = .resp id p) ∨ (p.op = 10 ∧ i = .data id p) →
      ((s.core c).findTag p.rtag = none → Machine.exec i s = .next (t.failCirc id 5)) ∧
      ∀ cmd r out, (s.core c).findTag p.rtag = some (cmd, r, out) →
        let goodData := p.op = 10 ∧ p.code = 0 ∧ blank p ∧ r.kind.wantsData = true ∧ p.len.toNat = out.len
        let goodResp := p.op = 9 ∧ p.code.toNat ≤ 7 ∧ p.len = 0 ∧ blank p ∧ (p.code = 0 → r.kind.wantsData = false)
        (goodData ∨ goodResp → Machine.exec i s = .next (t.answer c cmd out.off out.len p.code (carried p))) ∧
        (¬ goodData → ¬ goodResp → Machine.exec i s = .next (t.failCirc id 5))) ∧
  (∀ (s : State) (id ends ty : Nat) (p : Packet) (i : Instr) (upTo : List (Nat × Option RelayFlit)),
    s.live id (itsFlits s id ty p) = true →
    (s.circ id).kind = 1 → (s.circ id).ends = ends → s.runFits id (itsFlits s id ty p) (packetFlits p) = true →
    s.authFails id p.badTag = true → upTo = (itsFlits s id ty p).take (p.badTag.getD 0 + 1) →
    (∀ r, upTo.getLast? = some r → r.2 = none) →
    (ends = 2 ∧ ty = 2 ∧ ((p.op = 1 ∧ i = .write id p) ∨ (p.op = 2 ∧ i = .read id p) ∨ (p.op = 3 ∧ i = .atomic id p) ∨
      (p.op = 4 ∧ i = .flag id p) ∨ (p.op = 5 ∧ i = .fence id p) ∨ (p.op = 6 ∧ i = .kret id p) ∨
      (p.op = 11 ∧ i = .probeAns id p))) ∨ (ends = 1 ∧ ty = 2 ∧ i = .probe id p) ∨
      (ends = 1 ∧ ty = 3 ∧ ((p.op ≠ 10 ∧ i = .resp id p) ∨ (p.op = 10 ∧ i = .data id p))) →
    Machine.exec i s = .next ((s.accepted id upTo).failCirc id 1)) ∧
  (∀ (s : State) (id ty n : Nat), (s.circ id).bondn ≤ 1 → (s.circ id).rxBuf = [] →
    s.nextFlits id ty n = (List.range n).map (fun j => ((s.circ id).recvCnt + j, none)) ∧
    ∀ want, s.runFits id (s.nextFlits id ty n) want = true) ∧
  (∀ (s : State) (id ty n i : Nat) (want : List (Beat × Nat)), i < (s.circ id).lanes →
    (∀ m ∈ s.bond id, (s.circ m).lane ≠ i ∧ (s.circ m).lanes = (s.circ id).lanes) → (∃ r ∈ s.nextFlits id ty n, i < r.1) →
    s.runFits id (s.nextFlits id ty n) want = false)

/-- R372 to R375, R380, R382, R385, R388, R416 to R418: a link's acknowledgement, resending, retrain and training; a flit that is unsound or
out of turn is asked for again, unless a NAK is outstanding for the expected one; one for a FREE circuit is answered with FAIL, one
whose tag fails fails its circuit, one of an entry or a packet that is not whole is kept; a relay's buffer; what a flit slot carries
before anything else, and when nothing waits; a member of a bond sends the next beat that falls to it. When a NAK ceases to be
outstanding is free (log 8); the order of a slot's choices and the pieces of an identity record are the model's choices (log 45), and
so are the other inputs of the security block (log 48, log 59) and the direction bit of CONTROL circuit 0 before an image gives the
ends their numbers (log 61). -/
def Obligations.LinkLayer : Prop :=
  ∀ (s : State) (l : Nat),
    (spoken s l →
      (∀ lseq n : Nat, (BitVec.ofNat 16 lseq + 1 - ((s.link' l).txSeq - BitVec.ofNat 16 (s.link' l).replay.length)).toNat = n →
        (n ≤ (s.link' l).replay.length → ∃ t : State, Machine.exec (.ack l lseq) s = .next t ∧
          (t.link' l).replay = (s.link' l).replay.drop n ∧ (t.link' l).txSeq = (s.link' l).txSeq ∧ (t.link' l).state = .up ∧
          ∀ m, m ≠ l → t.link' m = s.link' m) ∧
        ((s.link' l).replay.length < n → Machine.exec (.ack l lseq) s = .next s)) ∧
      (∀ lseq n : Nat, (BitVec.ofNat 16 lseq - ((s.link' l).txSeq - BitVec.ofNat 16 (s.link' l).replay.length)).toNat = n →
        n ≤ (s.link' l).replay.length → ∃ t : State, Machine.exec (.nak l lseq) s = .next t ∧
          (t.link' l).replay = (s.link' l).replay.drop n ∧ (t.link' l).resend = (s.link' l).replay.length - n ∧
          (t.link' l).state = if (s.link' l).nakName = BitVec.ofNat 16 lseq ∧ 7 ≤ (s.link' l).nakCnt then .retrain else .up) ∧
      (∀ x : Option Flit, (∀ f, x = some f → unsound f ∨ (1 ≤ f.ctrl.toNat / 2 ^ 8 % 16 ∧ f.ctrl.toNat / 2 ^ 8 % 16 ≤ 5 ∧
          f.ctrl.extractLsb' 16 16 ≠ (s.link' l).rxSeq)) →
        ((s.link' l).nakOut = false ∨ (s.link' l).nakSeq ≠ (s.link' l).rxSeq ∨ Config.nakAnswered s.ticks = true →
          Machine.exec (.crcFailure ⟨l, x⟩) s = .next (s.modLink l fun y => { y with nakDue := true })) ∧
        ((s.link' l).nakOut = true → (s.link' l).nakSeq = (s.link' l).rxSeq → Config.nakAnswered s.ticks = false →
          Machine.exec (.crcFailure ⟨l, x⟩) s = .next s)) ∧
      (∀ (f : Flit) (j : Nat), inTurn s l j f → j ≠ 0 →
        let id := 16 * l + j
        let x := s.circ id
        let ty := f.ctrl.toNat / 2 ^ 8 % 16
        let kept := (s.tookOn id 1).modCirc id fun y => { y with rxBuf := y.rxBuf ++ [(x.recvNo, s.opened id f)] }
        (x.state = .free → Machine.exec (.crcFailure ⟨l, some f⟩) s = .next ((s.took l 1).tellPeer l 5 j)) ∧
        (x.state = .failed → Machine.exec (.crcFailure ⟨l, some f⟩) s = .next (s.tookOn id 1)) ∧
        (x.state = .isOpen → x.ends ≠ 4 →
          (s.tagHolds id f = false → Machine.exec (.crcFailure ⟨l, some f⟩) s = .next ((s.tookOn id 1).failCirc id 1)) ∧
          (s.tagHolds id f = true →
            (x.ends = 3 ∨ s.takes id ty = false → Machine.exec (.crcFailure ⟨l, some f⟩) s = .next (s.tookOn id 1)) ∧
            (x.ends ≠ 3 → s.takes id ty = true →
              (kept.whole id ty = false → Machine.exec (.crcFailure ⟨l, some f⟩) s = .next kept) ∧
              (kept.whole id ty = true → kept.claimed id ty = true → Machine.exec (.crcFailure ⟨l, some f⟩) s = .next s) ∧
              (kept.whole id ty = true → kept.claimed id ty = false → Machine.exec (.crcFailure ⟨l, some f⟩) s =
                .next (kept.accepted id (kept.nextFlits id ty (kept.wholeLen id ty)))))))) ∧
      (∀ n, n ≠ 0 → (s.took l n).link' l = { (s.link' l) with
        rxSeq := (s.link' l).rxSeq + BitVec.ofNat 16 n, ackDue := true, nakDue := false, nakOut := false }) ∧
      (∀ f : Flit, inTurn s l 0 f → f.auth = Config.flitTag true (s.link' l).k0
          (nonceOf 0 (s.ctlDir l false) (s.link' l).ctlRecv) (16 * (f.ctrl.toNat / 2 ^ 8 % 16) + f.ctrl.toNat % 8) f.payload →
        f.ctrl.toNat / 2 ^ 8 % 16 ≠ 4 → Machine.exec (.crcFailure ⟨l, some f⟩) s =
          .next ((s.took l 1).modLink l fun y => { y with ctlRecv := y.ctlRecv + 1 })) ∧
      (∀ f : Flit, inTurn s l 0 f → f.auth ≠ Config.flitTag true (s.link' l).k0
          (nonceOf 0 (s.ctlDir l false) (s.link' l).ctlRecv) (16 * (f.ctrl.toNat / 2 ^ 8 % 16) + f.ctrl.toNat % 8) f.payload →
        Machine.exec (.crcFailure ⟨l, some f⟩) s = .next (s.linkDown l)) ∧
      (∀ (id : Nat) (e : Entry) (rest : List Entry), id / 16 = l → (s.circ id).ends = 0 → 16 ≤ (s.circ id).port →
        let lead := s.circ (s.lead id)
        let b := (s.circ id).sendNo - lead.txBase
        lead.txq = e :: rest → b < e.beats.length →
        s.streamSend id = some ((s.sendCirc id 1 (sideband e b) (e.beat b)).dropSent (s.lead id))) ∧
      (Machine.exec (.retrain l) s = .next (s.modLink l fun x => { x with state := .retrain, nakCnt := 0 })) ∧
      (∀ id u, l < 96 → (s.link' l).resend = 0 → (s.link' l).replay.length < 256 →
        s.slotOwner l (s.link' l).slot = some id → s.streamSend id = some u → Machine.exec (.flitSlot l) s = .next u) ∧
      (l < 96 → slotFree s l → (s.link' l).nakDue = true → ∃ t : State, Machine.exec (.flitSlot l) s = .next t ∧
        (t.link' l).wire = some (linkFlit 7 ((s.link' l).rxSeq.setWidth 512)) ∧ (t.link' l).nakDue = false ∧
        (t.link' l).slot = ((s.link' l).slot + 1) % 64) ∧
      (l < 96 → slotFree s l → (s.link' l).nakDue = false → (s.link' l).ackDue = true →
        ∃ t : State, Machine.exec (.flitSlot l) s = .next t ∧
          (t.link' l).wire = some (linkFlit 6 (((s.link' l).rxSeq - 1).setWidth 512)) ∧ (t.link' l).ackDue = false) ∧
      (l < 96 → (s.link' l).nakDue = false → (s.link' l).ackDue = false → (s.link' l).resend = 0 → (s.link' l).ctlq = [] →
        s.circsOn l = [] → ∃ t : State, Machine.exec (.flitSlot l) s = .next t ∧ (t.link' l).wire = some (linkFlit 0 0) ∧
          (t.link' l).replay = (s.link' l).replay)) ∧
    ((s.link' l).state = .retrain →
      (Machine.exec (.retrainSuccess l) s = .next (((s.modLink l fun x =>
        { x with state := .up, resend := x.replay.length, nakCnt := 0 }).retrainNotice l false).retrainNotice l true)) ∧
      (∃ t : State, Machine.exec (.retrainTimeout l) s = .next t ∧
        ∀ id ∈ (s.circsOn l).map (·.1), (s.circ id).state = .isOpen → (t.circ id).state = .failed)) ∧
    (∀ r : IdRecord, l < 96 → s.power.off = false → s.power.bootfail = false →
      ((s.link' l).state = .down → ∃ t : State, Machine.exec (.identityRecord l (.record r)) s = .next t ∧
        (t.link' l).state = .training ∧ (t.link' l).txSeq = 0 ∧ (t.link' l).replay = [] ∧ (t.link' l).peerNonce = none) ∧
      ((s.link' l).state = .training →
        ((s.link' l).peerNonce = none → Machine.exec (.identityRecord l (.record r)) s =
          .next (s.modLink l fun x => { x with peerNonce := some r.nonce })) ∧
        ((s.link' l).peerNonce = some r.nonce →
          (s.recordOk l r = true → r.accepts = true → ∃ t : State, Machine.exec (.identityRecord l (.record r)) s = .next t ∧
            (t.link' l).state = .up ∧ (t.link' l).peer = some (r.serial, r.encl, r.fwdig) ∧ (t.link' l).txSeq = 0 ∧
            (t.link' l).rxSeq = 0 ∧ (t.link' l).ctlSent = 0 ∧ (t.link' l).ctlRecv = 0 ∧ t.boot.secPend = true) ∧
          (s.recordOk l r = false ∨ r.accepts = false →
            Machine.exec (.identityRecord l (.record r)) s = .next (s.modLink l fun _ => Link.reset))))) ∧
    (Machine.exec (.identityRecord l .status) s = .next { s with boot := { s.boot with secPend := false } }) ∧
    (let atM := s.power.off = false ∧ s.power.bootfail = false ∧
        ∃ h < 8, (s.core (512 + h)).hub.priv = .m ∧ (s.core (512 + h)).hub.inReset = false
     ∀ v : BitVec 32, (atM → s.boot.rollback.toNat < v.toNat →
        Machine.exec (.identityRecord l (.rollback v)) s = .next { s with boot := { s.boot with rollback := v } }) ∧
      (¬ atM ∨ v.toNat ≤ s.boot.rollback.toNat → Machine.exec (.identityRecord l (.rollback v)) s = .next s)) ∧
    (Machine.exec (.identityRecord l .unlock) s = .next { s with boot := { s.boot with debugOpen := true } }) ∧
    ((s.link' l).state = .training → ∃ t : State, Machine.exec (.flitSlot l) s = .next t ∧
      (t.link' l).wire = some (linkFlit 8 (payloadOf ((s.ownRecord l).drop
        (64 * ((s.link' l).slot % (if (s.link' l).peerNonce = none then 6 else 8)))))) ∧
      (t.link' l).slot = ((s.link' l).slot + 1) % 64) ∧
    (∀ (id : Nat) (f : RelayFlit),
      let x := s.circ id
      let out := circId x.outlink x.outidx
      x.ends = 4 → x.state = .isOpen → spoken s (id / 16) → spoken s x.outlink → 1 ≤ f.ty.toNat → f.ty.toNat ≤ 5 →
      ((s.circ out).relay.length < 64 → Machine.exec (.relayForward id f) s =
        .next (((s.tookOn id 1).wakeAll (meshPath (linkQuarter (id / 16)) (linkQuarter x.outlink))).modCirc out fun y =>
          { y with relay := y.relay ++ [f] })) ∧
      (64 ≤ (s.circ out).relay.length → Machine.exec (.relayForward id f) s = .next s))

/-- R379 to R381, R388, R399, R419, R425, R426, R429, Tables 19.9, 19.10: what each CONTROL message does where it arrives with its tag
right, those of its flits that came before its last being kept; a message of another kind is discarded, and one whose tag fails takes
its link DOWN; a message goes to a package over a link that is UP or in RETRAIN. How an image is taken and kept (log 47),
the mode bits of an ABORT (logs 42 and 58) and which neighbours a failure waits for (log 60) are the model's choices. -/
def Obligations.ControlMessages : Prop :=
  (∀ (s : State) (l : Nat) (m : CtlMsg), spoken s l →
    let t := heard s l m
    let carries (k : Byte) (i : Instr) : Prop := ((k = 1 ∨ k = 0 ∨ 9 ≤ k.toNat) ∧ i = .img (.link l k) m) ∨ (k = 2 ∧ i = .imgack l m) ∨
      (k = 3 ∧ i = .imgnak l m) ∨ (k = 4 ∧ i = .keyx l m) ∨ (k = 5 ∧ i = .fail l m) ∨ (k = 6 ∧ i = .close l m) ∨ (k = 7 ∧ i = .abort l m) ∨
      (k = 8 ∧ i = .pkgdown l m)
    (∀ (k : Byte) (i : Instr) (b : Nat), carries k i → cameFirst s l k m → m.badTag = some b → (s.link' l).ctlBuf.length ≤ b →
      Machine.exec i s = .next (s.linkDown l)) ∧
    (∀ (k : Byte) (i : Instr), carries k i → cameFirst s l k m → m.badTag = none →
      (k = 1 → Machine.exec i s = .next (t.takeImage (some l) m)) ∧
      (k = 0 ∨ 9 ≤ k.toNat → Machine.exec i s = .next t) ∧
      (k = 5 → Machine.exec i s = .next (t.failCirc (16 * l + m.arg.toNat % 16) 4)) ∧
      (k = 6 → Machine.exec i s = .next (t.failCirc (16 * l + m.arg.toNat % 16) 3)) ∧
      (k = 7 → m.dst = s.pkgNo → Machine.exec i s = .next { t with kiln := { s.kiln with
        aborts := s.kiln.aborts ++ [(m.arg.toNat / 2 ^ 32 % 8,
          if m.arg.getLsbD 36 then none else some (m.arg.extractLsb' 0 16), m.arg.getLsbD 35)] } }) ∧
      (k = 7 ∨ k = 4 → m.dst ≠ s.pkgNo → Machine.exec i s = .next (t.sendTo k m)) ∧
      (k = 4 → m.dst = s.pkgNo → s.boot.applying = false → s.boot.awaits = [] → ∃ u : State, Machine.exec i s = .next u ∧
        u.boot.kexIn = s.boot.kexIn ++ [(m.src.toNat, m.arg.toNat, leAt m.data 0 56)] ∧ { u with boot := t.boot } = t) ∧
      (k = 2 ∨ k = 3 → ∀ answered : State,
        (k = 2 ∧ (∃ e, s.boot.epoch = some e ∧ m.arg.toNat = e.toNat) →
          answered = { t with boot := { s.boot with waiting := s.boot.waiting.erase m.src.toNat } }) →
        (k = 3 ∨ (∀ e, s.boot.epoch = some e → m.arg.toNat ≠ e.toNat) → answered = t) →
        (s.isRoot = true → Machine.exec i s = .next answered) ∧
        (s.isRoot = false → ∀ u, t.linkTo s.boot.parent = some u →
          Machine.exec i s = .next (answered.modLink u fun x => { x with ctlq := x.ctlq ++ [(k, m)] }))) ∧
      (k = 8 →
        let p := m.arg.toNat % 256
        let down := s.boot.down ++ [(p, m.src.toNat)]
        let told : State := { t with boot := { s.boot with down := down } }
        (s.isRoot = false → ∀ u, t.linkTo s.boot.parent = some u →
          Machine.exec i s = .next (t.modLink u fun x => { x with ctlq := x.ctlq ++ [(8, m)] })) ∧
        (s.isRoot = true → (∀ r ∈ s.boot.down, r.1 ≠ p → notYet told down r.1) →
          (notYet told down p → Machine.exec i s = .next told) ∧
          (¬ notYet told down p → ∃ (u : State) (more : List Nat), Machine.exec i s = .next u ∧
            u.boot.failed = s.boot.failed ++ p :: more ∧ (∀ x ∈ more, ∃ r ∈ down, r.1 = x) ∧ u.boot.down = down ∧
            { u with boot := t.boot } = t))))) ∧
  (∀ (s : State) (l pkg : Nat), s.linkTo pkg = some l →
    ∃ x, (l, x) ∈ s.links ∧ (x.state = .up ∨ x.state = .retrain) ∧ x.peerPkg = some (BitVec.ofNat 8 pkg)) ∧
  (∀ (s : State) (m : CtlMsg),
    (s.power.off = false → s.power.bootfail = false → Machine.exec (.img .port m) s = .next (s.takeImage none m)) ∧
    ∀ link : Option Nat,
      let key := link.getD 96
      let old := sget [] s.boot.rx key
      let keep (rx : List Byte) : State := { s with boot := { s.boot with rx := sset [] s.boot.rx key rx } }
      (m.arg = 0 → m.data.length < 256 → s.takeImage link m = keep m.data) ∧
      (m.arg = 0 → 256 ≤ m.data.length → m.data.length = 256 + imgBodyLen m.data →
        s.takeImage link m = (keep []).decideImage link m.data) ∧
      (m.arg ≠ 0 → m.arg.toNat = old.length → (old ++ m.data).length < 256 → s.takeImage link m = keep (old ++ m.data)) ∧
      (m.arg ≠ 0 → m.arg.toNat ≠ old.length → old.length < 256 → ∃ t : State, s.takeImage link m = t ∧
        { t with boot := { t.boot with rx := s.boot.rx } } = s ∧ ∀ k, sget [] t.boot.rx k = sget [] s.boot.rx k) ∧
      ∀ k rx, k ≠ key → sget [] (keep rx).boot.rx k = sget [] s.boot.rx k) ∧
  (∀ (s : State) (img : List Byte),
    (s.headerOk img = false → s.imgRefusal img = some 1) ∧
    (s.headerOk img = true → Config.shake256 512 (img.drop 256) ≠ leAt img 32 64 → s.imgRefusal img = some 2) ∧
    (∀ d, s.headerOk img = true → Config.shake256 512 (img.drop 256) = leAt img 32 64 → s.boot.domain = some d →
      d.toNat ≠ leAt img 16 4 → s.imgRefusal img = some 3) ∧
    (∀ e, s.headerOk img = true → Config.shake256 512 (img.drop 256) = leAt img 32 64 → s.boot.epoch = some e →
      leAt img 20 4 ≤ e.toNat → s.imgRefusal img = some 3) ∧
    (s.headerOk img = true → Config.shake256 512 (img.drop 256) = leAt img 32 64 →
      (∀ d, s.boot.domain = some d → d.toNat = leAt img 16 4) → (∀ e, s.boot.epoch = some e → e.toNat < leAt img 20 4) →
      s.imgRefusal img = if State.formOk img then none else some 4))

/-! # The package -/

/-- R409, R410, R415, R432 to R440: forced resets, package reset, the debug port, the management port, I3C, the power states, the thermal
trip, throttling and the telemetry page, a word at a time. Which words of a copy a forced reset leaves new is free (log 8). The layout of
STATUS and a refused PCAP (log 16), the sensors and the order of the page (log 13), the notices of a reset and the routes that it cuts
(log 41), the frames that the port takes (log 48), an event that is not enabled (log 50)
and the debug port (log 59) are the model's choices. -/
def Obligations.PackageEvents : Prop :=
  (∀ (s : State) (scope : ResetScope), (scopeRegion scope).ok = true → s.power.off = false → s.tokens = [] → s.cfgWait = [] →
    ∃ t : State, Machine.exec (.forcedReset scope) s = .next t ∧ t.power = s.power ∧ t.cycles = s.cycles ∧
      (∀ c ∈ (scopeRegion scope).cores, ∃ f, t.core c = { Core.reset with nextId := (s.core c).nextId, failed := f } ∧
        ((s.core c).failed = true → f = true)) ∧
      (∀ c n d m, c ∉ (scopeRegion scope).cores → d ∈ (scopeRegion scope).cores →
        ((s.iq c n).bind = .route d m → (t.iq c n).bind = .unbound ∧ ∀ e ∈ (t.iq c n).q, e.kind = .token) ∧
        ((s.oq c n).bind = .route d m → (t.oq c n).bind = .unbound ∧ (t.oq c n).credits = 0)) ∧
      t.logSeq = s.logSeq + 1) ∧
  (∀ (s : State) (src dst n a : Nat),
    let t := s.landed [(src, dst, n)]
    (a < dst ∨ dst + n ≤ a → t.byte a = s.byte a) ∧
    (∀ i < n, t.byte (dst + i) = s.byte (dst + i) ∨ t.byte (dst + i) = s.byte (src + i)) ∧
    ∀ p ∈ pieces 64 src n, s.badIn (src + p.1) p.2 = true → ∀ i, p.1 ≤ i → i < p.1 + p.2 → t.byte (dst + i) = s.byte (dst + i)) ∧
  (∀ (k : Core) (e : EngCmd), e ∈ k.running ↔
    ∃ i : Nat, k.eng[i]? = some e ∧ (e.eng < 2 → ∀ d ∈ k.eng.take i, d.stage = e.stage → d.op.isDrain = false)) ∧
  (∀ (s : State) (cause : ResetCause) (i : Instr),
    (i = .packageReset cause ∧ (cause = .powerOn ∨ cause = .i3c ∨ (cause = .debug ∧ s.boot.debugOpen = true))) ∨
      (i = .i3cReset ∧ cause = .i3c) →
    ∃ t : State, Machine.exec i s = .next t ∧ (∀ c < 288, t.core c = Core.reset) ∧ t.cycles = 0 ∧ t.notices = [] ∧
      t.logSeq = 0 ∧ t.power.off = false ∧ t.power.thermtrip = (s.power.thermtrip && decide (cause ≠ .powerOn)) ∧
      (∀ f, (f = s.boot.flashA ∧ goodCopy s f) ∨ (f = s.boot.flashB ∧ ¬ goodCopy s s.boot.flashA ∧ goodCopy s f) →
        (∀ h < 8, (t.core (512 + h)).pc = BitVec.ofNat 40 (0xF870100000 + leAt f 16 8) ∧ (t.core (512 + h)).hub.priv = .m ∧
          (t.core (512 + h)).hub.ie = false ∧ (t.core (512 + h)).hub.inReset = false) ∧ bodyAt t f) ∧
      (¬ goodCopy s s.boot.flashA → ¬ goodCopy s s.boot.flashB →
        t.power.bootfail = true ∧ (∀ h < 8, (t.core (512 + h)).hub.inReset = true) ∧
        (s.firmwareFields s.boot.flashB = true → bodyAt t s.boot.flashB) ∧
        (s.firmwareFields s.boot.flashA = true → s.firmwareFields s.boot.flashB = false → bodyAt t s.boot.flashA)) ∧
      ∀ a, a < 0x870100000 ∨ 0x880000000 ≤ a → t.byte a = 0) ∧
  (∀ s : State,
    (s.boot.debugOpen = false → Machine.exec (.packageReset .debug) s = .next s ∧
      ∀ sel act, Machine.exec (.packageReset (.debugCtl sel act)) s = .next s) ∧
    (s.boot.debugOpen = true → s.power.off = false → ∀ sel act c t, selects sel c t →
      Machine.exec (.packageReset (.debugCtl sel act)) s = .next (dbgAct act c t { core := c, eng := 3, id := 0 } s))) ∧
  (∀ (s : State) (f : List Byte), s.power.off = false → s.power.bootfail = false →
    (frameForUs f = true → f.length ≤ 65536 →
      (s.mgmtRx.length < 64 → Machine.exec (.managementFrame (some f)) s =
        .next { s.store (0x800000000 + Config.mgmtSlot (s.mgmtCnt % 64) % 2 ^ 30) f with
          mgmtRx := s.mgmtRx ++ [f], mgmtCnt := s.mgmtCnt + 1 }) ∧
      (64 ≤ s.mgmtRx.length → Machine.exec (.managementFrame (some f)) s =
        .next { s with power := { s.power with rxdrop := s.power.rxdrop + 1 } })) ∧
    (frameForUs f = false → Machine.exec (.managementFrame (some f)) s = .next s) ∧
    (∀ rest, s.mgmtRx = f :: rest → Machine.exec (.managementFrame none) s = .next { s with mgmtRx := rest })) ∧
  (∀ i < 6, macAddress.getD i 0 = Config.fuseSerial.extractLsb' (8 * i) 8 ||| if i = 0 then 2 else 0) ∧
  (∀ s : State,
    (∀ c : Byte, c.toNat ∉ [0x01, 0x02, 0x03, 0x10, 0x11, 0x20, 0x21] →
      Machine.exec (.pcap (.other c)) s = .next { s with power := { s.power with i3cOut := .nack } }) ∧
    (∃ w : Word, reports s .status w ∧ w.toNat % 16 = s.power.idle.toNat ∧ w.getLsbD 4 = s.power.off ∧
      w.getLsbD 5 = s.power.bootfail ∧ w.getLsbD 6 = s.power.thermtrip ∧ w.toNat / 2 ^ 8 = s.power.throt.toNat) ∧
    (∃ w : Word, reports s .temp w ∧ ∀ q < 5, w.toNat / 2 ^ (12 * q) % 2 ^ 12 = (sget 0 s.power.temps q).toNat) ∧
    (∃ w : BitVec 16, Machine.exec .power s =
      .next { s with power := { s.power with watts := w, i3cOut := .word (w.setWidth 64) } })) ∧
  (∀ (s : State) (w : BitVec 16),
    (w = 0 ∨ (300 ≤ w.toNat ∧ w.toNat ≤ 1800) →
      Machine.exec (.pcap (.cap w)) s = .next { s with power := { s.power with pcap := w, i3cOut := .ack } }) ∧
    (w ≠ 0 → w.toNat < 300 ∨ 1800 < w.toNat →
      Machine.exec (.pcap (.cap w)) s = .next { s with power := { s.power with i3cOut := .nack } })) ∧
  (∀ (s : State) (q : BitVec 4),
    Machine.exec (.idleen q) s = .next { s with power := { s.power with idleen := q, i3cOut := .ack } }) ∧
  (∀ (s : State) (i : Instr) (trip : Bool), (i = .off ∧ trip = s.power.thermtrip) ∨
      (∃ q v, q.toNat < 5 ∧ 960 ≤ v.toNat ∧ s.power.off = false ∧ i = .thermalTrip q v ∧ trip = true) →
    ∃ t : State, Machine.exec i s = .next t ∧ t.power.off = true ∧ t.power.thermtrip = trip ∧ (∀ c < 288, t.core c = Core.reset) ∧
      (∀ a, t.byte a = 0) ∧ ∀ l, (t.link' l).state = .down) ∧
  (∀ (s : State) (q : BitVec 3) (v : BitVec 12), q.toNat < 5 → s.power.off = false → v.toNat < 960 →
    ∃ t : State, Machine.exec (.thermalTrip q v) s = .next t ∧ powerOnly s t ∧
      ∀ x, sget 0 t.power.temps x = if x = q.toNat then v else sget 0 s.power.temps x) ∧
  (∀ (s : State) (q : BitVec 2),
    (s.power.idleen.getLsbD q.toNat = true → s.power.idle.getLsbD q.toNat = false → 4096 ≤ sget 0 s.power.quiet q.toNat →
      s.quietQuarter q.toNat = true → ∃ t : State, Machine.exec (.quarterIdle q) s = .next t ∧ powerOnly s t ∧
        ∀ x < 4, t.power.idle.getLsbD x = (decide (x = q.toNat) || s.power.idle.getLsbD x)) ∧
    (s.power.idle.getLsbD q.toNat = true → s.beatIn q.toNat = true →
      ∃ t : State, Machine.exec (.quarterWake q) s = .next t ∧ powerOnly s t ∧ sget 0 t.power.quiet q.toNat = 0 ∧
      ∀ x < 4, t.power.idle.getLsbD x = (!decide (x = q.toNat) && s.power.idle.getLsbD x)) ∧
    (s.power.throt.getLsbD q.toNat = false →
      (840 ≤ (sget 0 s.power.temps q.toNat).toNat ∨ (s.power.pcap ≠ 0 ∧ 10 * s.power.pcap.toNat < s.power.watts.toNat)) →
      ∃ t : State, Machine.exec (.throttling q true) s = .next t ∧ powerOnly s t ∧
        ∀ x < 4, t.power.throt.getLsbD x = (decide (x = q.toNat) || s.power.throt.getLsbD x)) ∧
    (s.power.throt.getLsbD q.toNat = true → (sget 0 s.power.temps q.toNat).toNat < 840 →
      (s.power.pcap = 0 ∨ s.power.watts.toNat ≤ 10 * s.power.pcap.toNat) →
      ∃ t : State, Machine.exec (.throttling q false) s = .next t ∧ powerOnly s t ∧
        ∀ x < 4, t.power.throt.getLsbD x = (!decide (x = q.toNat) && s.power.throt.getLsbD x))) ∧
  (∀ s : State, s.power.off = false →
    (s.power.telLeft = [] → BitVec.ofNat 32 (s.cycles.toNat / 2 ^ 20) ≠ s.power.telSeq →
      ∃ t : State, ∃ stalls < 2 ^ 32, ∃ x ∈ telPage s t.power.watts stalls, Machine.exec .telemetryRewrite s = .next t ∧
        t.power.telSeq = s.power.telSeq + 1 ∧ (s.power.throttled = false → stalls = 0) ∧
        t.power.telLeft = (telPage s t.power.watts stalls).erase x ∧ value t (0x870080000 + x.1) 8 = x.2.toNat ∧
        ∀ a, a < 0x870080000 + x.1 ∨ 0x870080008 + x.1 ≤ a → t.byte a = s.byte a) ∧
    (s.power.telLeft ≠ [] → ∃ t : State, ∃ x ∈ s.power.telLeft, Machine.exec .telemetryRewrite s = .next t ∧
      t.power = { s.power with telLeft := s.power.telLeft.erase x } ∧ value t (0x870080000 + x.1) 8 = x.2.toNat ∧
      ∀ a, a < 0x870080000 + x.1 ∨ 0x870080008 + x.1 ≤ a → t.byte a = s.byte a))

/-! # The machine as a whole -/

/-- The words of Listing 3.1, Table 4.4 and the tables of examples of spec/05 to spec/11, as the spec prints them, decode to the
instructions it prints them for (R74 to R91). -/
def Obligations.SanityWords : Prop :=
  decodeCode (.s 0x04611000) = .ok (.add 3 1 2) ∧
  decodeCode (.s 0x80C3BFFC) = .ok (.ld .n32 6 3 (-4)) ∧
  decodeCode (.s 0x84A2C008) = .ok (.st .d64 5 2 8) ∧
  decodeCode (.s 0x50442802) = .ok (.cmp .lt 2 4 5) ∧
  decodeCode (.s 0x648531C8) = .ok (.ffma 4 5 6 7 .rtz) ∧
  decodeCode (.s 0x8DA25819) = .ok (.amo .cas true 13 2 11) ∧
  decodeCode (.c 0x05FFFFFB) = .ok (.br ⟨3, true⟩ (-5)) ∧
  decodeCode (.c 0x64344800) = .ok (.cfWaitAll ⟨0, false⟩ 20 9) ∧
  decodeCode (.c 0x180A0060) = .ok (.loop ⟨0, false⟩ 5 3) ∧
  decodeCode (.q 0x04858000) = .ok (.qpop 4 5 true false) ∧
  decodeCode (.q 0x1973C000) = .ok (.qmark 11 3 true .ce) ∧
  decodeCode (.v 0xF042_0708_090A_1100) = .ok (.vfma ⟨0xF, 2, false⟩ .bf16 .rtz 7 8 9 10) ∧
  decodeCode (.v 0x4300_0404_0500_8001) = .ok (.viadd ⟨4, 0, false⟩ .i16 true 4 4 5) ∧
  decodeCode (.v 0xF7C0_2807_0800_3001) = .ok (.vqpush ⟨0xF, 0, false⟩ .f8e4 true 40 7 8) ∧
  decodeCode (.x 0x0320_8200_0333_0000) = .ok (.mma 0 2 false (.iq 2) 3 .f8e4 .f8e4 false) ∧
  decodeCode (.x 0x0630_0095_0103_0008) = .ok (.macRdq 0 3 (.oq 5) 1 .f8e4 .rne true) ∧
  decodeCode (.x 0x8101_90A6_0000_0000) = .ok (.dxCopy 0 3 4 5 6)

/-- What a step does. When the bytes at the program counter of the focused core decode to one well-formed instruction, and neither
FWDOG nor an interrupt comes first, the step is that instruction's `exec`, and the clk passes (R74, R95, R146, R161, R403). A bundle
of several slots issues as one; a word that does not decode is ILLOP with SLOT 7 at its own PC, and so is a fetch that faults. An
event on the agenda is its `exec`; with nothing on the agenda the focused core's bundle runs three steps in four when it has one to
run: that order, and the agenda, are the model's choice (log 2), as is the fault of a step of a package that is OFF, which runs no
bundle (R436, log 49). A compute core fetches from its instruction store at the place PC / 32, a hub core the 32 bytes at the
physical address of its PC, the lowest first. -/
def Obligations.StepRuns : Prop :=
  ∀ (s : State),
    (∀ (core stream : Nat) (rest : List Move) (s1 : State), s.agenda = .run core stream :: rest →
      s1 = { s with agenda := rest, focus := core, stream := stream } → s.power.off = false → s1.canRun core stream = true →
      (∀ u, firingWatchdog core s1 = some u → Machine.step s = .next u.tick) ∧
      (∀ n, firingWatchdog core s1 = none → s1.hub = true → s1.irqToTake core = some n →
        Machine.step s = .next (s1.takeIrq core n).tick) ∧
      (firingWatchdog core s1 = none → (s1.hub = true → s1.irqToTake core = none) →
        (∀ (i : Instr) (c : Code), i.wf = true → encode i = some c → s1.fetch core s1.pc = .ok c.bundle →
          Machine.step s = Outcome.ticked (Machine.exec i s1)) ∧
        (∀ (b : BitVec 256) (l : List (Slot × Dec)), s1.fetch core s1.pc = .ok b → decodeBundle b = .ok l →
          Machine.step s = .next (s1.issueAll (badSlots l) (goodSlots l)).tick) ∧
        (∀ (b : BitVec 256) (e : DecErr), s1.fetch core s1.pc = .ok b → decodeBundle b = .error e →
          Machine.step s = .next ((s1.takeException (illopT e.detail) 7 s1.pc).afterBundle core).tick) ∧
        ∀ t : TrapInfo, s1.fetch core s1.pc = .error t →
          Machine.step s = .next ((s1.takeException t 7 s1.pc).afterBundle core).tick)) ∧
    (∀ (core stream : Nat) (rest : List Move), s.agenda = .run core stream :: rest → s.power.off = false →
      State.canRun { s with agenda := rest, focus := core, stream := stream } core stream = false →
      Machine.step s = .next (State.tick { s with agenda := rest, focus := core, stream := stream })) ∧
    (∀ (i : Instr) (rest : List Move), s.agenda = .event i :: rest → isEvent i = true →
      Machine.step s = Outcome.ticked (Machine.exec i { s with agenda := rest })) ∧
    (∀ t : State, s.agenda = [] → s.power.off = false → s.ticks % 4 ≠ 3 → s.runFocus = some t → Machine.step s = .next t.tick) ∧
    ((s.agenda = [] ∨ ∃ core stream rest, s.agenda = .run core stream :: rest) → s.power.off = true →
      Machine.step s = .fault .poweredOff) ∧
    (∀ (c : Nat) (pc : Addr),
      (isHub c = false → s.fetch c pc = .ok (sget 0 (s.core c).istore (pc.toNat / 32))) ∧
      (∀ pa, isHub c = true → s.xlat c .fetch (pc.setWidth 64) 32 32 = .ok pa → s.badIn pa 32 = false →
        ∃ b : BitVec 256, s.fetch c pc = .ok b ∧ ∀ i < 32, b.extractLsb' (8 * i) 8 = s.byte (pa + i)))

/-- Memory's canonical form, addresses strictly rising and no byte listed that holds 0, is kept by every step. -/
def Obligations.MemoryKept : Prop :=
  ∀ s t : State, Memory.wf s.mem = true → Machine.step s = .next t → Memory.wf t.mem = true

/-- R37: after every step bit 3 of IRQ.PEND is set on every hub core where CYCLES has reached CYC.CMP; and CYCLES has moved on, by at
least one, from what the step's own effect left. By how many clk is free, the model's choice (log 3). -/
def Obligations.CompareKept : Prop :=
  ∀ s t : State, Machine.step s = .next t → (t.cycCmp.toNat ≤ t.cycles.toNat → t.cmpHit = true ∧ t.irqPend.getLsbD 3 = true) ∧
    ∃ u : State, t = u.tick ∧ t.cycles = u.cycles + BitVec.ofNat 64 (1 + Config.freeClk u.ticks) ∧ t.mem = u.mem ∧
      t.notices = u.notices

/-- The state after reset (R45, Table 1.13, R300, R415): every byte of memory is 0 and memory is in canonical form; on every core
the scalar registers, predicates, index registers, vector registers, masks, tiles and bats are clear, m0 all ones, the loop
levels inactive, the ports unbound, the segments' LIMIT 0, the instruction store zero, CORE.CTX owner 0 and secure, no stage
loaded but the hub cores' own, which is ELIGIBLE (R349); the hub cores are at M with IE 0 at the entry of the
direct map; CYCLES is 0 and every link DOWN. The flash ENTRY is taken as 0
and a register without a value in Table 1.13 as 0: the model's choice (logs 4, 5). -/
def Obligations.ResetState : Prop :=
  Memory.wf State.reset.mem = true ∧ (∀ a, State.reset.byte a = 0) ∧
  (∀ c t, (State.reset.core c).ctx t = Ctx.reset ∧ (State.reset.core c).stage t =
    if 512 ≤ c ∧ c < 520 ∧ t = 0 then { Stage.reset with state := .eligible } else Stage.reset) ∧
  (∀ c n, sget 0 (State.reset.core c).v n = 0 ∧ sget 0 (State.reset.core c).acc n = 0 ∧
    sget 0 (State.reset.core c).poison n = 0 ∧ (State.reset.core c).flag n = Flag.reset ∧
    sget Bat.reset (State.reset.core c).bats n = Bat.reset ∧ (State.reset.core c).rqOf n = [] ∧
    (sget IqPort.reset (State.reset.core c).iq n).bind = .unbound ∧ (sget OqPort.reset (State.reset.core c).oq n).bind = .unbound ∧
    (sget StreamPort.reset (State.reset.core c).sp n).isOpen = false) ∧
  (∀ c, (State.reset.core c).activeBat = false ∧ (State.reset.core c).ctxOwner = 0 ∧ (State.reset.core c).ctxWorld = true) ∧
  (∀ c m : Nat, State.reset.mask c m = if m = 0 then BitVec.allOnes 128 else 0) ∧
  (∀ r : GReg, State.reset.g r = 0) ∧ (∀ r : PReg, State.reset.p r = decide (r = 0)) ∧
  (∀ j, (State.reset.loop j).len = 0 ∧ (State.reset.loop j).count = 0) ∧
  (∀ n, n ∈ [2, 3, 8, 0x10, 0x11, 0x12, 0x14, 0x15, 0x16] → State.reset.sysReg n = 0) ∧
  State.reset.sysReg 0 = 0x10000 ∧ State.reset.sysReg 1 = 8 ∧
  (∀ n < 16, State.reset.sysReg (0x40 + n) = 0) ∧
  (∀ h < 8, (State.reset.core (512 + h)).pc = 0xF870100000 ∧ (State.reset.core (512 + h)).hub.priv = .m ∧
    (State.reset.core (512 + h)).hub.ie = false ∧ (State.reset.core (512 + h)).hub.bankS.vec = 0xF870100000 ∧
    (State.reset.core (512 + h)).hub.bankM.vec = 0xF870100000 ∧ State.reset.canRun (512 + h) 0 = true) ∧
  (∀ c < 288, (∀ t < 8, ((State.reset.core c).stage t).state = .none) ∧ (∀ i, State.reset.canRun c i = false) ∧
    (∀ n, sget 0 (State.reset.core c).istore n = 0)) ∧
  State.reset.cycles = 0 ∧ (∀ l, (State.reset.link' l).state = .down) ∧ State.reset.notices = [] ∧ State.reset.power.off = false
end

