-- ==== Sys2Proof/Laws/Issue.lean ====
section
/-! SUPPORT. What one operation alone in its bundle can do: commit, wait, be guarded off, or fault, each said once. -/

namespace Sys2Proof.Machine

/-- The trap of a bundle whose only operation faults; a bar.grp has reached its barrier all the same (R165). -/
def State.aloneTrap (s : State) (o : SlotOp) (i : TrapInfo) : State :=
  ((s.reachBarrier [o]).takeException i o.slot.code s.pc).afterBundle s.focus

/-- A bundle whose only operation is no bar.grp reaches no barrier. -/
theorem State.reachBarrier_plain {o : SlotOp} (s : State) (h : o.barrier = false) : s.reachBarrier [o] = s := by
  simp [State.reachBarrier, h]

/-- The trap of a bundle whose only operation is no bar.grp. -/
theorem State.aloneTrap_plain {o : SlotOp} (s : State) (i : TrapInfo) (h : o.barrier = false) :
    s.aloneTrap o i = (s.takeException i o.slot.code s.pc).afterBundle s.focus := by
  rw [State.aloneTrap, State.reachBarrier_plain s h]

theorem effectOrder_one (o : SlotOp) : effectOrder [o] = [o] := by
  unfold effectOrder
  cases h : o.early <;> cases h2 : o.slot <;> simp [h, h2]

theorem effectOrder_nil : effectOrder [] = [] := rfl

/-- An operation without a decode fault is permitted here. -/
theorem not_forbidden {o : SlotOp} {s : State} (hd : o.decodeFault s = none) : o.forbidden s = false := by
  cases h : o.forbidden s
  · rfl
  · simp [SlotOp.decodeFault, h] at hd

/-- A core with the level that an operation needs does not lack it. -/
theorem State.has_level {o : SlotOp} {s : State} (hp : s.hub = true → o.level ≤ s.me.hub.priv.code) :
    s.lacksLevel o = false := by
  cases h : s.hub <;> simp_all [State.lacksLevel]

/-- The operation is decoded, its guard holds and its effect is there: the bundle commits. -/
theorem issue_commit {o : SlotOp} {s t : State} {f : Flow} (hd : o.decodeFault s = none) (hg : s.guard o.guard = true)
    (hp : s.hub = true → o.level ≤ s.me.hub.priv.code) (hx : o.fx s s = .ok (t, f)) (hf : f ≠ .arrive) :
    issue o s = .next ((t.retire s.pc f).afterBundle s.focus) := by
  simp only [issue, State.issueAll, State.issueTry, List.filterMap_cons, hd, Option.map_none, List.filterMap_nil,
    List.filter_cons, not_forbidden hd, Bool.not_false, if_true, List.filter_nil, effectOrder_one, List.foldl_cons, List.foldl_nil, Issue.add, hg, Bool.not_true, Bool.false_eq_true, if_false,
    State.has_level hp, hx, conflicts, List.any_nil, List.nil_append, List.append_nil, pickTrap]
  by_cases hs : f = .seq <;> simp [hs, hf]

/-- A guarded-off operation has no effect: the bundle goes on (R79). -/
theorem issue_guarded {o : SlotOp} {s : State} (hd : o.decodeFault s = none) (hg : s.guard o.guard = false) :
    issue o s = .next ((s.retire s.pc .seq).afterBundle s.focus) := by
  simp [issue, State.issueAll, State.issueTry, hd, not_forbidden hd, effectOrder_one, Issue.add, hg, conflicts, pickTrap]

/-- An operation permitted here waits: the state stays, whatever faults it has (R95). -/
theorem issue_wait {o : SlotOp} {s : State} (hf : o.forbidden s = false) (hg : s.guard o.guard = true) (hx : o.fx s s = .error .wait) :
    issue o s = .next s := by
  simp [issue, State.issueAll, State.issueTry, hf, effectOrder_one, Issue.add, hg, hx]

/-- A core with the level that an operation needs raises no PRIV for it. -/
theorem State.no_priv {o : SlotOp} {s : State} (hp : s.hub = true → o.level ≤ s.me.hub.priv.code) : s.privTraps o = [] := by
  simp [State.privTraps, State.has_level hp]

/-- A hub core below the level that an operation needs raises PRIV with that level. -/
theorem State.priv_below {o : SlotOp} {s : State} (hh : s.hub = true) (hp : s.me.hub.priv.code < o.level) :
    s.privTraps o = [(o.slot, ⟨0x02, o.level, 0⟩)] := by
  simp [State.privTraps, State.lacksLevel, hh, hp]

/-- An ILLOP is the trap recorded when the others of the list are of the same slot (R98). -/
theorem pickTrap_illop (l : Slot) (d a : Nat) : ∀ r : List (Slot × TrapInfo), (∀ x ∈ r, x.1 = l) →
    pickTrap ((l, ⟨0x01, d, a⟩) :: r) = some (l, ⟨0x01, d, a⟩)
  | [], _ => rfl
  | x :: t, h => by
    have hm : ∀ y, pickTrap (x :: t) = some y → y.1 = l := by
      intro y hy
      have : ∀ (q : List (Slot × TrapInfo)) z, pickTrap q = some z → z ∈ q := by
        intro q
        induction q with
        | nil => simp [pickTrap]
        | cons b q ih =>
          intro z hz
          unfold pickTrap at hz
          split at hz
          · simp_all
          · split at hz <;> simp_all
      exact h _ (this _ _ hy)
    rw [pickTrap]
    split
    · rfl
    · rename_i y hy
      have := hm y hy
      simp [TrapInfo.rank, this]

/-- The operation faults in its effect. -/
theorem issue_fault {o : SlotOp} {s : State} {i : TrapInfo} (hd : o.decodeFault s = none) (hg : s.guard o.guard = true)
    (hp : s.hub = true → o.level ≤ s.me.hub.priv.code) (hx : o.fx s s = .error (.trap i)) :
    issue o s = .next (s.aloneTrap o i) := by
  cases h : o.rmw && i.cause == 5 <;>
    simp [issue, State.issueAll, State.issueTry, hd, not_forbidden hd, effectOrder_one, Issue.add, hg, State.no_priv hp, hx, h, conflicts,
      pickTrap, State.aloneTrap]

/-- A hub core below the operation's level, where the operation does not wait and is no ILLOP by itself: PRIV with that level (R85,
R98). -/
theorem issue_priv {o : SlotOp} {s : State} (hd : o.decodeFault s = none) (hg : s.guard o.guard = true)
    (hh : s.hub = true) (hp : s.me.hub.priv.code < o.level) (hx : o.fx s s ≠ .error .wait)
    (hi : ∀ t, o.fx s s = .error (.trap t) → t.cause ≠ 1) :
    issue o s = .next (s.aloneTrap o ⟨0x02, o.level, 0⟩) := by
  have hl : s.lacksLevel o = true := by simp [State.lacksLevel, hh, hp]
  cases h : o.fx s s with
  | ok r => simp [issue, State.issueAll, State.issueTry, hd, not_forbidden hd, effectOrder_one, Issue.add, hg, h, hl, State.priv_below hh hp,
      conflicts, pickTrap, State.aloneTrap]
  | error e =>
    cases e with
    | wait => exact absurd h hx
    | trap t =>
      have hc := hi t h
      have hr : t.rank ≠ 0 := by simp only [TrapInfo.rank, hc, if_false]; split <;> omega
      have hn : TrapInfo.rank ⟨0x02, o.level, 0⟩ = 1 := rfl
      cases hb : o.rmw && t.cause == 5 <;>
        simp [issue, State.issueAll, State.issueTry, hd, not_forbidden hd, effectOrder_one, Issue.add, hg, h, hb, State.priv_below hh hp,
          conflicts, pickTrap, State.aloneTrap, hn, hr]

/-- A decode fault of an operation that neither waits nor arrives at a barrier, or is not permitted here: ILLOP with its DETAIL. -/
theorem issue_illop {o : SlotOp} {s : State} {d : Nat} (hd : o.decodeFault s = some d)
    (hx : o.forbidden s = true ∨ s.guard o.guard = false ∨ (o.fx s s ≠ .error .wait ∧ ∀ t, o.fx s s ≠ .ok (t, .arrive))) :
    issue o s = .next (s.aloneTrap o ⟨0x01, d, 0⟩) := by
  have hs : ∀ x ∈ s.privTraps o, x.1 = o.slot := by
    intro x hx; unfold State.privTraps at hx; split at hx <;> simp_all
  cases hf : o.forbidden s with
  | true => simp [issue, State.issueAll, State.issueTry, hd, hf, effectOrder_nil, conflicts, pickTrap, State.aloneTrap]
  | false =>
    cases hg : s.guard o.guard with
    | false => simp [issue, State.issueAll, State.issueTry, hd, hf, effectOrder_one, Issue.add, hg, conflicts, pickTrap,
        State.aloneTrap]
    | true =>
      simp only [hf, hg, Bool.false_eq_true, Bool.true_eq_false, false_or] at hx
      cases h : o.fx s s with
      | ok r =>
        have ha : r.2 ≠ .arrive := fun hr => hx.2 r.1 (by rw [h, ← hr])
        cases hl : s.lacksLevel o with
        | true =>
          simp [issue, State.issueAll, State.issueTry, hd, hf, effectOrder_one, Issue.add, hg, h, hl, conflicts,
            pickTrap_illop _ _ _ _ hs, State.aloneTrap]
        | false =>
          by_cases hq : r.2 = .seq <;>
            simp [issue, State.issueAll, State.issueTry, hd, hf, effectOrder_one, Issue.add, hg, h, hl, hq, ha, conflicts, pickTrap,
              State.aloneTrap]
      | error e =>
        cases e with
        | wait => exact absurd h hx.1
        | trap t =>
          have ht : ∀ x ∈ s.privTraps o ++ [(o.slot, t)], x.1 = o.slot := by
            intro x hx'; rw [List.mem_append] at hx'
            rcases hx' with hx' | hx'
            · exact hs x hx'
            · simp_all
          cases hb : o.rmw && t.cause == 5 <;>
            simp [issue, State.issueAll, State.issueTry, hd, hf, effectOrder_one, Issue.add, hg, h, hb, conflicts,
              pickTrap_illop _ _ _ _ ht, pickTrap_illop _ _ _ _ hs, State.aloneTrap]

/-- The guard that always holds. -/
@[simp] theorem State.guard_always (s : State) : s.guard guardAlways = true := by
  simp [State.guard, guardAlways, State.p]

end Sys2Proof.Machine
end

