-- ==== Sys2Proof/Laws/Store.lean ====
section
/-! SUPPORT. Sparse maps: reading after writing, the canonical form, and memory written byte by byte. -/

namespace Sys2Proof.Machine

variable {α : Type}

/-! ## Reading after writing -/

theorem sget_sput_same (d : α) (m : Store α) (k : Nat) (v : α) : sget d (sput k v m) k = v := by
  induction m with
  | nil => simp [sput, sget]
  | cons e t ih =>
    obtain ⟨a, w⟩ := e
    by_cases h1 : k < a
    · simp [sput, h1, sget]
    · by_cases h2 : a = k <;> simp [sput, h1, h2, sget, ih]

theorem sget_sput_other (d : α) (m : Store α) (k j : Nat) (v : α) (h : j ≠ k) : sget d (sput k v m) j = sget d m j := by
  induction m with
  | nil => simp [sput, sget, Ne.symm h]
  | cons e t ih =>
    obtain ⟨a, w⟩ := e
    by_cases h1 : k < a
    · simp [sput, h1, sget, Ne.symm h]
    · by_cases h2 : a = k
      · subst h2; simp [sput, sget, Ne.symm h]
      · simp only [sput, h1, h2, if_false, sget, ih]

theorem sget_sdel_same (d : α) (m : Store α) (k : Nat) : sget d (sdel k m) k = d := by
  induction m with
  | nil => simp [sdel, sget]
  | cons e t ih =>
    obtain ⟨a, w⟩ := e
    by_cases h : a = k <;> simp [sdel, h, sget, ih]

theorem sget_sdel_other (d : α) (m : Store α) (k j : Nat) (h : j ≠ k) : sget d (sdel k m) j = sget d m j := by
  induction m with
  | nil => simp [sdel, sget]
  | cons e t ih =>
    obtain ⟨a, w⟩ := e
    by_cases h1 : a = k
    · subst h1; simp [sdel, sget, ih, Ne.symm h]
    · simp only [sdel, h1, if_false, sget, ih]

theorem sget_sset_same [DecidableEq α] (d : α) (m : Store α) (k : Nat) (v : α) : sget d (sset d m k v) k = v := by
  unfold sset; split
  · next h => rw [sget_sdel_same, h]
  · exact sget_sput_same d m k v

theorem sget_sset_other [DecidableEq α] (d : α) (m : Store α) (k j : Nat) (v : α) (h : j ≠ k) :
    sget d (sset d m k v) j = sget d m j := by
  unfold sset; split
  · exact sget_sdel_other d m k j h
  · exact sget_sput_other d m k j v h

theorem sget_sset [DecidableEq α] (d : α) (m : Store α) (k j : Nat) (v : α) :
    sget d (sset d m k v) j = if j = k then v else sget d m j := by
  split
  · next h => rw [h, sget_sset_same]
  · next h => exact sget_sset_other d m k j v h

/-! ## The canonical form -/

/-- Every key of a map is above a bound. -/
theorem srising_cons {e : Nat × α} {t : Store α} :
    srising (e :: t) = true ↔ (∀ x ∈ t, e.1 < x.1) ∧ srising t = true := by
  induction t generalizing e with
  | nil => obtain ⟨a, v⟩ := e; simp [srising]
  | cons f t ih =>
    obtain ⟨a, v⟩ := e; obtain ⟨b, w⟩ := f
    simp only [srising, Bool.and_eq_true, decide_eq_true_eq, List.mem_cons, forall_eq_or_imp]
    constructor
    · rintro ⟨h1, h2⟩
      exact ⟨⟨h1, fun x hx => lt_trans h1 ((ih.mp h2).1 x hx)⟩, h2⟩
    · rintro ⟨⟨h1, -⟩, h2⟩
      exact ⟨h1, h2⟩

theorem mem_sdel {k : Nat} {m : Store α} {x : Nat × α} : x ∈ sdel k m ↔ x ∈ m ∧ x.1 ≠ k := by
  induction m with
  | nil => simp [sdel]
  | cons e t ih =>
    obtain ⟨a, w⟩ := e
    by_cases h : a = k
    · subst h; simp only [sdel, if_true, ih, List.mem_cons]
      constructor
      · rintro ⟨h1, h2⟩; exact ⟨.inr h1, h2⟩
      · rintro ⟨rfl | h1, h2⟩
        · exact absurd rfl h2
        · exact ⟨h1, h2⟩
    · simp only [sdel, h, if_false, List.mem_cons, ih]
      constructor
      · rintro (rfl | ⟨h1, h2⟩)
        · exact ⟨.inl rfl, h⟩
        · exact ⟨.inr h1, h2⟩
      · rintro ⟨rfl | h1, h2⟩
        · exact .inl rfl
        · exact .inr ⟨h1, h2⟩

theorem srising_sdel {k : Nat} {m : Store α} (h : srising m = true) : srising (sdel k m) = true := by
  induction m with
  | nil => rfl
  | cons e t ih =>
    obtain ⟨a, w⟩ := e
    have ht := srising_cons.mp h
    by_cases hk : a = k
    · simp [sdel, hk, ih ht.2]
    · simp only [sdel, hk, if_false]
      exact srising_cons.mpr ⟨fun x hx => ht.1 x (mem_sdel.mp hx).1, ih ht.2⟩

theorem mem_sput {k : Nat} {v : α} {m : Store α} {x : Nat × α} (h : x ∈ sput k v m) : x = (k, v) ∨ x ∈ m := by
  induction m with
  | nil => simpa [sput] using h
  | cons e t ih =>
    obtain ⟨a, w⟩ := e
    by_cases h1 : k < a
    · simpa [sput, h1] using h
    · by_cases h2 : a = k
      · subst h2
        simp only [sput, lt_irrefl, if_true, if_false, List.mem_cons] at h
        rcases h with h | h
        · exact .inl h
        · exact .inr (List.mem_cons_of_mem _ h)
      · simp only [sput, h1, h2, if_false, List.mem_cons] at h
        rcases h with h | h
        · exact .inr (h ▸ List.mem_cons_self)
        · exact (ih h).imp id (List.mem_cons_of_mem _)

theorem srising_sput {k : Nat} {v : α} {m : Store α} (h : srising m = true) : srising (sput k v m) = true := by
  induction m with
  | nil => rfl
  | cons e t ih =>
    obtain ⟨a, w⟩ := e
    have ht := srising_cons.mp h
    by_cases h1 : k < a
    · simp only [sput, h1, if_true]
      refine srising_cons.mpr ⟨fun x hx => ?_, h⟩
      rcases List.mem_cons.mp hx with rfl | hx
      · exact h1
      · exact lt_trans h1 (ht.1 x hx)
    · by_cases h2 : a = k
      · subst h2
        simp only [sput, lt_irrefl, if_false, if_true]
        exact srising_cons.mpr ⟨ht.1, ht.2⟩
      · simp only [sput, h1, h2, if_false]
        refine srising_cons.mpr ⟨fun x hx => ?_, ih ht.2⟩
        rcases mem_sput hx with rfl | hx
        · exact lt_of_le_of_ne (not_lt.mp h1) h2
        · exact ht.1 x hx

/-- Writing keeps the canonical form. -/
theorem swf_sset [DecidableEq α] {d : α} {m : Store α} (k : Nat) (v : α) (h : swf d m = true) :
    swf d (sset d m k v) = true := by
  simp only [swf, Bool.and_eq_true, List.all_eq_true, decide_eq_true_eq] at h ⊢
  unfold sset; split
  · exact ⟨srising_sdel h.1, fun x hx => h.2 x (mem_sdel.mp hx).1⟩
  · next hv =>
    refine ⟨srising_sput h.1, fun x hx => ?_⟩
    rcases mem_sput hx with rfl | hx
    · exact hv
    · exact h.2 x hx

theorem swf_smod [DecidableEq α] {d : α} {m : Store α} (k : Nat) (f : α → α) (h : swf d m = true) :
    swf d (smod d m k f) = true := swf_sset k _ h

/-! ## Memory -/

@[simp] theorem State.byte_setByte (s : State) (a b : Nat) (x : Byte) :
    (s.setByte a x).byte b = if b = a then x else s.byte b := sget_sset _ _ _ _ _

theorem memory_wf_setByte {s : State} (a : Nat) (x : Byte) (h : Memory.wf s.mem = true) :
    Memory.wf (s.setByte a x).mem = true := swf_sset a x h

theorem memory_wf_putBytes {s : State} (a : Nat) (l : List Byte) (h : Memory.wf s.mem = true) :
    Memory.wf (s.putBytes a l).mem = true := by
  induction l generalizing s a with
  | nil => exact h
  | cons b t ih => exact ih _ (memory_wf_setByte a b h)

/-- Every store keeps the canonical form of memory. -/
theorem memory_wf_store {s : State} (a : Nat) (l : List Byte) (h : Memory.wf s.mem = true) :
    Memory.wf (s.store a l).mem = true := memory_wf_putBytes a l h

theorem State.byte_putBytes (s : State) (a : Nat) (l : List Byte) (b : Nat) :
    (s.putBytes a l).byte b = if a ≤ b ∧ b < a + l.length then l.getD (b - a) 0 else s.byte b := by
  induction l generalizing s a with
  | nil =>
    simp only [State.putBytes, List.length_nil, Nat.add_zero]
    rw [if_neg (by omega)]
  | cons x t ih =>
    simp only [State.putBytes, ih, List.length_cons, State.byte_setByte]
    by_cases h1 : b = a
    · subst h1
      rw [if_neg (by omega), if_pos rfl, if_pos (by omega)]
      simp
    · by_cases h2 : a + 1 ≤ b ∧ b < a + 1 + t.length
      · rw [if_pos h2, if_pos (by omega)]
        obtain ⟨n, hn⟩ : ∃ n, b - a = n + 1 := ⟨b - a - 1, by omega⟩
        rw [hn, show b - (a + 1) = n by omega]; simp
      · rw [if_neg h2, if_neg h1, if_neg (by omega)]

/-- What a byte of memory reads after a store. -/
theorem State.byte_store (s : State) (a : Nat) (l : List Byte) (b : Nat) :
    (s.store a l).byte b = if a ≤ b ∧ b < a + l.length then l.getD (b - a) 0 else s.byte b :=
  s.byte_putBytes a l b

/-! ## Cores -/

theorem State.core_setCore (s : State) (c d : Nat) (k : Core) :
    (s.setCore c k).core d = if d = c then k else s.core d := sget_sset _ _ _ _ _

theorem State.core_modCore (s : State) (c d : Nat) (f : Core → Core) :
    (s.modCore c f).core d = if d = c then f (s.core c) else s.core d := State.core_setCore s c d _

theorem Core.ctx_setCtx (k : Core) (t u : Nat) (x : Ctx) : (k.setCtx t x).ctx u = if u = t then x else k.ctx u :=
  sget_sset _ _ _ _ _

theorem Core.stage_setStage (k : Core) (t u : Nat) (x : Stage) :
    (k.setStage t x).stage u = if u = t then x else k.stage u := sget_sset _ _ _ _ _

end Sys2Proof.Machine
end

