-- ==== Sys2Proof/Laws/Quarter.lean ====
section
/-! SUPPORT. Quarters and what wakes them, accumulator entries in configuration space. -/

namespace Sys2Proof.Machine

/-! ## Waking changes the power state alone -/

@[simp] theorem State.wakeAll_mem (s : State) (l : List Nat) : (s.wakeAll l).mem = s.mem := rfl
@[simp] theorem State.wakeAll_cores (s : State) (l : List Nat) : (s.wakeAll l).cores = s.cores := rfl
@[simp] theorem State.wakeAll_links (s : State) (l : List Nat) : (s.wakeAll l).links = s.links := rfl
@[simp] theorem State.wakeAll_circs (s : State) (l : List Nat) : (s.wakeAll l).circs = s.circs := rfl
@[simp] theorem State.wakeAll_core (s : State) (l : List Nat) (c : Nat) : (s.wakeAll l).core c = s.core c := rfl

theorem State.wake_eq (s : State) (c : Nat) : ∃ p : Power, s.wake c = { s with power := p } := by
  unfold State.wake
  split
  · exact ⟨s.power, rfl⟩
  · exact ⟨_, rfl⟩

@[simp] theorem State.wake_hub {s : State} {c : Nat} (h : isHub c = true) : s.wake c = s := by simp [State.wake, h]

@[simp] theorem State.wake_core (s : State) (c d : Nat) : (s.wake c).core d = s.core d := by
  obtain ⟨p, h⟩ := s.wake_eq c
  rw [h]; rfl

@[simp] theorem State.wake_mem (s : State) (c : Nat) : (s.wake c).mem = s.mem := by
  obtain ⟨p, h⟩ := s.wake_eq c
  rw [h]

/-! ## A core whose clock is gated (R435) -/

theorem State.arrReady_clocked {s : State} {c : Nat} (i : Nat) (h : s.clocked c = true) : s.arrReady c i = (s.core c).arrReady i := by
  simp [State.arrReady, h]

theorem State.arrReady_gated {s : State} {c : Nat} (i : Nat) (h : s.clocked c = false) : s.arrReady c i = none := by
  simp [State.arrReady, h]

theorem array_gated {s : State} {c : Nat} (i : Nat) (h : s.clocked c = false) :
    batFill c i s = none ∧ mmaPass c i s = none ∧ accRead c i s = none := by
  simp [batFill, mmaPass, accRead, State.arrReady_gated i h]

/-! ## Accumulator entries as configuration space shows them (R57, R309) -/

theorem accEntry_zero : accEntry 0 = 0 := by decide

/-- What an entry holds is never changed by being stored again. -/
theorem accEntry_idem (x : F128) : accEntry (accEntry x) = accEntry x := by
  by_cases h : x = 0x80000000000000000000000000000000
  · subst h; decide
  · by_cases g : (x.extractLsb' 112 15 == 0x7FFF && x.extractLsb' 0 112 != 0) = true
    · have e : accEntry x = 0x7FFF8000000000000000000000000000 := by simp only [accEntry, h, g, if_true, if_false]
      rw [e]; decide
    · have e : accEntry x = x := by simp only [accEntry, h, g, if_false, Bool.false_eq_true]
      rw [e, e]

/-- A store of half an entry reads back, and the other half as it was. -/
theorem Core.accBits_storeAcc (k : Core) (i half : Nat) (v : Word) :
    (k.storeAcc i half v).accBits i = setElem 64 half (k.accBits i) v := by
  have key : ∀ x : F128, (if (if accEntry x = x then 0 else x) = 0 then accEntry x else if accEntry x = x then 0 else x) = x := by
    intro x
    by_cases h : accEntry x = x
    · rw [if_pos h, if_pos rfl, h]
    · rw [if_neg h, if_neg]
      intro z
      exact h (z ▸ accEntry_zero)
  unfold Core.storeAcc
  conv => lhs; unfold Core.accBits
  rw [sget_sset_same, sget_sset_same]
  exact key _

/-- A store of half an entry leaves the others. -/
theorem Core.accBits_storeAcc_other (k : Core) (i j half : Nat) (v : Word) (h : j ≠ i) : (k.storeAcc i half v).accBits j = k.accBits j := by
  simp only [Core.storeAcc, Core.accBits, sget_sset_other _ _ _ _ _ h]

end Sys2Proof.Machine
end

