-- ==== Sys2Proof/Laws/Ports.lean ====
section
/-! SUPPORT. Ports, instances of the Kiln and the token: reading after an update, and where a token takes its place. -/

namespace Sys2Proof.Machine

/-! ## Reading a port or an instance after an update -/

theorem State.iq_modIq (s : State) (c d n m : Nat) (f : IqPort → IqPort) :
    (s.modIq c n f).iq d m = if d = c ∧ m = n then f (s.iq c n) else s.iq d m := by
  by_cases h : d = c
  · subst h
    by_cases g : m = n
    · subst g; simp [State.iq, State.modIq, State.core_modCore, Core.inp, smod, sget_sset_same]
    · simp [State.iq, State.modIq, State.core_modCore, Core.inp, smod, sget_sset_other _ _ _ _ _ g, g]
  · simp [State.iq, State.modIq, State.core_modCore, h]

theorem State.oq_modOq (s : State) (c d n m : Nat) (f : OqPort → OqPort) :
    (s.modOq c n f).oq d m = if d = c ∧ m = n then f (s.oq c n) else s.oq d m := by
  by_cases h : d = c
  · subst h
    by_cases g : m = n
    · subst g; simp [State.oq, State.modOq, State.core_modCore, Core.outp, smod, sget_sset_same]
    · simp [State.oq, State.modOq, State.core_modCore, Core.outp, smod, sget_sset_other _ _ _ _ _ g, g]
  · simp [State.oq, State.modOq, State.core_modCore, h]

@[simp] theorem State.oq_modIq (s : State) (c d n m : Nat) (f : IqPort → IqPort) : (s.modIq c n f).oq d m = s.oq d m := by
  by_cases h : d = c
  · subst h; simp [State.oq, State.modIq, State.core_modCore, Core.outp]
  · simp [State.oq, State.modIq, State.core_modCore, h]

@[simp] theorem State.iq_modOq (s : State) (c d n m : Nat) (f : OqPort → OqPort) : (s.modOq c n f).iq d m = s.iq d m := by
  by_cases h : d = c
  · subst h; simp [State.iq, State.modOq, State.core_modCore, Core.inp]
  · simp [State.iq, State.modOq, State.core_modCore, h]

theorem State.inst_modInst (s : State) (i j : Nat) (f : Inst → Inst) :
    (s.modInst i f).inst j = if j = i then f (s.inst i) else s.inst j := by
  by_cases h : j = i
  · subst h; simp [State.inst, State.modInst, smod, sget_sset_same]
  · simp [State.inst, State.modInst, smod, sget_sset_other _ _ _ _ _ h, h]

@[simp] theorem State.iq_modCirc (s : State) (i d m : Nat) (f : Circ → Circ) : (s.modCirc i f).iq d m = s.iq d m := rfl
@[simp] theorem State.iq_modInst (s : State) (i d m : Nat) (f : Inst → Inst) : (s.modInst i f).iq d m = s.iq d m := rfl
@[simp] theorem State.oq_modInst (s : State) (i d m : Nat) (f : Inst → Inst) : (s.modInst i f).oq d m = s.oq d m := rfl
@[simp] theorem State.inst_modIq (s : State) (c n j : Nat) (f : IqPort → IqPort) : (s.modIq c n f).inst j = s.inst j := rfl
@[simp] theorem State.inst_modOq (s : State) (c n j : Nat) (f : OqPort → OqPort) : (s.modOq c n f).inst j = s.inst j := rfl

@[simp] theorem State.wake_iq (s : State) (c d n : Nat) : (s.wake c).iq d n = s.iq d n := by simp [State.iq]
@[simp] theorem State.wake_oq (s : State) (c d n : Nat) : (s.wake c).oq d n = s.oq d n := by simp [State.oq]
@[simp] theorem State.wake_inst (s : State) (c i : Nat) : (s.wake c).inst i = s.inst i := by
  obtain ⟨p, h⟩ := s.wake_eq c
  rw [h]; rfl

/-! ## Where a token takes its place (R405) -/

/-- A token that is not due is not placed. -/
theorem State.tryToken_idle {s : State} {c n : Nat} (h : (s.iq c n).tokenDue = false) : s.tryToken c n = s := by
  simp [State.tryToken, State.placeToken, h]

/-- Nor is one before whose place a charge is open. -/
theorem State.tryToken_open {s : State} {c n : Nat} (h : s.openTail (s.iq c n) = true) : s.tryToken c n = s := by
  simp [State.tryToken, State.placeToken, h]

/-- Whether an entry closes a charge depends on the instances alone. -/
theorem State.closes_congr {s t : State} (h : ∀ i, (t.inst i).rmax = (s.inst i).rmax) (b : InBind) (e : Entry) :
    t.closes b e = s.closes b e := by
  simp only [State.closes, h]

theorem State.opens_congr {s t : State} (h : ∀ i, (t.inst i).rmax = (s.inst i).rmax) (b : InBind) : t.opens b = s.opens b := by
  funext o e
  simp only [State.opens, State.closes_congr h]

/-- At a port of the Kiln a due token takes a credit of the instance and comes behind what is on its way. -/
theorem State.tryToken_kiln {s : State} {c n i : Nat} (hb : (s.iq c n).bind = .kiln i) (hd : (s.iq c n).tokenDue = true)
    (ho : s.openTail (s.iq c n) = false) (hc : 0 < (s.inst i).credits) :
    s.tryToken c n = ((s.modInst i fun x => { x with credits := x.credits - 1 }).wake c).modIq c n IqPort.addToken := by
  simp [State.tryToken, State.placeToken, State.tokenCredit, State.takeTokenCredit, State.putToken, hb, hd, ho, hc]

/-- At a circuit's port with a free slot it takes a credit that has still to go back to the far end. -/
theorem State.tryToken_circ {s : State} {c n id : Nat} (hb : (s.iq c n).bind = .circ id) (hd : (s.iq c n).tokenDue = true)
    (ho : s.openTail (s.iq c n) = false) (hc : (s.iq c n).taken < (s.iq c n).cap) (hf : 0 < (s.circ id).credOut) :
    s.tryToken c n = ((s.modCirc id fun x => { x with credOut := x.credOut - 1 }).wake c).modIq c n IqPort.addToken := by
  simp [State.tryToken, State.placeToken, State.tokenCredit, State.takeTokenCredit, State.putToken, hb, hd, ho, hc, hf]

/-- Where none has, the port owes the next. -/
theorem State.tryToken_circ_owed {s : State} {c n id : Nat} (hb : (s.iq c n).bind = .circ id) (hd : (s.iq c n).tokenDue = true)
    (ho : s.openTail (s.iq c n) = false) (hc : (s.iq c n).taken < (s.iq c n).cap) (hf : (s.circ id).credOut = 0) :
    s.tryToken c n = ((s.modIq c n fun p => { p with owed := p.owed + 1 }).wake c).modIq c n IqPort.addToken := by
  simp [State.tryToken, State.placeToken, State.tokenCredit, State.takeTokenCredit, State.putToken, hb, hd, ho, hc, hf,
    State.iq_modIq]

/-- No token goes to a circuit's port whose slots are taken. -/
theorem State.tryToken_full {s : State} {c n id : Nat} (hb : (s.iq c n).bind = .circ id) (hc : (s.iq c n).cap ≤ (s.iq c n).taken) :
    s.tryToken c n = s := by
  simp [State.tryToken, State.placeToken, State.tokenCredit, hb, Nat.not_lt.mpr hc]

/-! ## The credit of a removal (R237, R405) -/

/-- A removal at a circuit's port that owes nothing sends a notice back. -/
theorem State.returnCredit_circ {s : State} {c n id : Nat} (hb : (s.iq c n).bind = .circ id) (ho : (s.iq c n).owed = 0) :
    s.returnCredit c n = s.modCirc id fun x => { x with credOut := x.credOut + 1 } := by
  simp [State.returnCredit, hb, ho]

/-- One that owes pays for a token. -/
theorem State.returnCredit_owed {s : State} {c n id : Nat} (hb : (s.iq c n).bind = .circ id) (ho : (s.iq c n).owed ≠ 0) :
    s.returnCredit c n = s.modIq c n fun p => { p with owed := p.owed - 1 } := by
  simp [State.returnCredit, hb, ho]

end Sys2Proof.Machine
end

