-- ==== Sys2Proof/Laws/State.lean ====
section
/-! SUPPORT. One lemma per field of State for each update that acts on cores only, and the reads of an updated core. -/

namespace Sys2Proof.Machine

/-! ## Fields that an update of a core leaves alone -/

@[simp] theorem State.setCore_mem (s : State) (c : Nat) (k : Core) : (s.setCore c k).mem = s.mem := rfl
@[simp] theorem State.setCore_eccBad (s : State) (c : Nat) (k : Core) : (s.setCore c k).eccBad = s.eccBad := rfl
@[simp] theorem State.setCore_eccSeen (s : State) (c : Nat) (k : Core) : (s.setCore c k).eccSeen = s.eccSeen := rfl
@[simp] theorem State.setCore_cycles (s : State) (c : Nat) (k : Core) : (s.setCore c k).cycles = s.cycles := rfl
@[simp] theorem State.setCore_cycCmp (s : State) (c : Nat) (k : Core) : (s.setCore c k).cycCmp = s.cycCmp := rfl
@[simp] theorem State.setCore_cmpHit (s : State) (c : Nat) (k : Core) : (s.setCore c k).cmpHit = s.cmpHit := rfl
@[simp] theorem State.setCore_pkgNo (s : State) (c : Nat) (k : Core) : (s.setCore c k).pkgNo = s.pkgNo := rfl
@[simp] theorem State.setCore_logSeq (s : State) (c : Nat) (k : Core) : (s.setCore c k).logSeq = s.logSeq := rfl
@[simp] theorem State.setCore_notices (s : State) (c : Nat) (k : Core) : (s.setCore c k).notices = s.notices := rfl
@[simp] theorem State.setCore_wins (s : State) (c : Nat) (k : Core) : (s.setCore c k).wins = s.wins := rfl
@[simp] theorem State.setCore_circs (s : State) (c : Nat) (k : Core) : (s.setCore c k).circs = s.circs := rfl
@[simp] theorem State.setCore_links (s : State) (c : Nat) (k : Core) : (s.setCore c k).links = s.links := rfl
@[simp] theorem State.setCore_kiln (s : State) (c : Nat) (k : Core) : (s.setCore c k).kiln = s.kiln := rfl
@[simp] theorem State.setCore_tokens (s : State) (c : Nat) (k : Core) : (s.setCore c k).tokens = s.tokens := rfl
@[simp] theorem State.setCore_cfgWait (s : State) (c : Nat) (k : Core) : (s.setCore c k).cfgWait = s.cfgWait := rfl
@[simp] theorem State.setCore_mgmtRx (s : State) (c : Nat) (k : Core) : (s.setCore c k).mgmtRx = s.mgmtRx := rfl
@[simp] theorem State.setCore_mgmtCnt (s : State) (c : Nat) (k : Core) : (s.setCore c k).mgmtCnt = s.mgmtCnt := rfl
@[simp] theorem State.setCore_power (s : State) (c : Nat) (k : Core) : (s.setCore c k).power = s.power := rfl
@[simp] theorem State.setCore_boot (s : State) (c : Nat) (k : Core) : (s.setCore c k).boot = s.boot := rfl
@[simp] theorem State.setCore_nextTag (s : State) (c : Nat) (k : Core) : (s.setCore c k).nextTag = s.nextTag := rfl
@[simp] theorem State.setCore_focus (s : State) (c : Nat) (k : Core) : (s.setCore c k).focus = s.focus := rfl
@[simp] theorem State.setCore_stream (s : State) (c : Nat) (k : Core) : (s.setCore c k).stream = s.stream := rfl
@[simp] theorem State.setCore_agenda (s : State) (c : Nat) (k : Core) : (s.setCore c k).agenda = s.agenda := rfl
@[simp] theorem State.setCore_ticks (s : State) (c : Nat) (k : Core) : (s.setCore c k).ticks = s.ticks := rfl

@[simp] theorem State.modCore_mem (s : State) (c : Nat) (f : Core → Core) : (s.modCore c f).mem = s.mem := rfl
@[simp] theorem State.modCore_eccBad (s : State) (c : Nat) (f : Core → Core) : (s.modCore c f).eccBad = s.eccBad := rfl
@[simp] theorem State.modCore_eccSeen (s : State) (c : Nat) (f : Core → Core) : (s.modCore c f).eccSeen = s.eccSeen := rfl
@[simp] theorem State.modCore_cycles (s : State) (c : Nat) (f : Core → Core) : (s.modCore c f).cycles = s.cycles := rfl
@[simp] theorem State.modCore_cycCmp (s : State) (c : Nat) (f : Core → Core) : (s.modCore c f).cycCmp = s.cycCmp := rfl
@[simp] theorem State.modCore_cmpHit (s : State) (c : Nat) (f : Core → Core) : (s.modCore c f).cmpHit = s.cmpHit := rfl
@[simp] theorem State.modCore_pkgNo (s : State) (c : Nat) (f : Core → Core) : (s.modCore c f).pkgNo = s.pkgNo := rfl
@[simp] theorem State.modCore_logSeq (s : State) (c : Nat) (f : Core → Core) : (s.modCore c f).logSeq = s.logSeq := rfl
@[simp] theorem State.modCore_notices (s : State) (c : Nat) (f : Core → Core) : (s.modCore c f).notices = s.notices := rfl
@[simp] theorem State.modCore_wins (s : State) (c : Nat) (f : Core → Core) : (s.modCore c f).wins = s.wins := rfl
@[simp] theorem State.modCore_circs (s : State) (c : Nat) (f : Core → Core) : (s.modCore c f).circs = s.circs := rfl
@[simp] theorem State.modCore_links (s : State) (c : Nat) (f : Core → Core) : (s.modCore c f).links = s.links := rfl
@[simp] theorem State.modCore_kiln (s : State) (c : Nat) (f : Core → Core) : (s.modCore c f).kiln = s.kiln := rfl
@[simp] theorem State.modCore_tokens (s : State) (c : Nat) (f : Core → Core) : (s.modCore c f).tokens = s.tokens := rfl
@[simp] theorem State.modCore_cfgWait (s : State) (c : Nat) (f : Core → Core) : (s.modCore c f).cfgWait = s.cfgWait := rfl
@[simp] theorem State.modCore_mgmtRx (s : State) (c : Nat) (f : Core → Core) : (s.modCore c f).mgmtRx = s.mgmtRx := rfl
@[simp] theorem State.modCore_mgmtCnt (s : State) (c : Nat) (f : Core → Core) : (s.modCore c f).mgmtCnt = s.mgmtCnt := rfl
@[simp] theorem State.modCore_power (s : State) (c : Nat) (f : Core → Core) : (s.modCore c f).power = s.power := rfl
@[simp] theorem State.modCore_boot (s : State) (c : Nat) (f : Core → Core) : (s.modCore c f).boot = s.boot := rfl
@[simp] theorem State.modCore_nextTag (s : State) (c : Nat) (f : Core → Core) : (s.modCore c f).nextTag = s.nextTag := rfl
@[simp] theorem State.modCore_focus (s : State) (c : Nat) (f : Core → Core) : (s.modCore c f).focus = s.focus := rfl
@[simp] theorem State.modCore_stream (s : State) (c : Nat) (f : Core → Core) : (s.modCore c f).stream = s.stream := rfl
@[simp] theorem State.modCore_agenda (s : State) (c : Nat) (f : Core → Core) : (s.modCore c f).agenda = s.agenda := rfl
@[simp] theorem State.modCore_ticks (s : State) (c : Nat) (f : Core → Core) : (s.modCore c f).ticks = s.ticks := rfl

@[simp] theorem State.modMe_mem (s : State) (f : Core → Core) : (s.modMe f).mem = s.mem := rfl
@[simp] theorem State.modMe_eccBad (s : State) (f : Core → Core) : (s.modMe f).eccBad = s.eccBad := rfl
@[simp] theorem State.modMe_eccSeen (s : State) (f : Core → Core) : (s.modMe f).eccSeen = s.eccSeen := rfl
@[simp] theorem State.modMe_cycles (s : State) (f : Core → Core) : (s.modMe f).cycles = s.cycles := rfl
@[simp] theorem State.modMe_cycCmp (s : State) (f : Core → Core) : (s.modMe f).cycCmp = s.cycCmp := rfl
@[simp] theorem State.modMe_cmpHit (s : State) (f : Core → Core) : (s.modMe f).cmpHit = s.cmpHit := rfl
@[simp] theorem State.modMe_pkgNo (s : State) (f : Core → Core) : (s.modMe f).pkgNo = s.pkgNo := rfl
@[simp] theorem State.modMe_logSeq (s : State) (f : Core → Core) : (s.modMe f).logSeq = s.logSeq := rfl
@[simp] theorem State.modMe_notices (s : State) (f : Core → Core) : (s.modMe f).notices = s.notices := rfl
@[simp] theorem State.modMe_wins (s : State) (f : Core → Core) : (s.modMe f).wins = s.wins := rfl
@[simp] theorem State.modMe_circs (s : State) (f : Core → Core) : (s.modMe f).circs = s.circs := rfl
@[simp] theorem State.modMe_links (s : State) (f : Core → Core) : (s.modMe f).links = s.links := rfl
@[simp] theorem State.modMe_kiln (s : State) (f : Core → Core) : (s.modMe f).kiln = s.kiln := rfl
@[simp] theorem State.modMe_tokens (s : State) (f : Core → Core) : (s.modMe f).tokens = s.tokens := rfl
@[simp] theorem State.modMe_cfgWait (s : State) (f : Core → Core) : (s.modMe f).cfgWait = s.cfgWait := rfl
@[simp] theorem State.modMe_mgmtRx (s : State) (f : Core → Core) : (s.modMe f).mgmtRx = s.mgmtRx := rfl
@[simp] theorem State.modMe_mgmtCnt (s : State) (f : Core → Core) : (s.modMe f).mgmtCnt = s.mgmtCnt := rfl
@[simp] theorem State.modMe_power (s : State) (f : Core → Core) : (s.modMe f).power = s.power := rfl
@[simp] theorem State.modMe_boot (s : State) (f : Core → Core) : (s.modMe f).boot = s.boot := rfl
@[simp] theorem State.modMe_nextTag (s : State) (f : Core → Core) : (s.modMe f).nextTag = s.nextTag := rfl
@[simp] theorem State.modMe_focus (s : State) (f : Core → Core) : (s.modMe f).focus = s.focus := rfl
@[simp] theorem State.modMe_stream (s : State) (f : Core → Core) : (s.modMe f).stream = s.stream := rfl
@[simp] theorem State.modMe_agenda (s : State) (f : Core → Core) : (s.modMe f).agenda = s.agenda := rfl
@[simp] theorem State.modMe_ticks (s : State) (f : Core → Core) : (s.modMe f).ticks = s.ticks := rfl

@[simp] theorem State.modCtx_mem (s : State) (f : Ctx → Ctx) : (s.modCtx f).mem = s.mem := rfl
@[simp] theorem State.modCtx_eccBad (s : State) (f : Ctx → Ctx) : (s.modCtx f).eccBad = s.eccBad := rfl
@[simp] theorem State.modCtx_eccSeen (s : State) (f : Ctx → Ctx) : (s.modCtx f).eccSeen = s.eccSeen := rfl
@[simp] theorem State.modCtx_cycles (s : State) (f : Ctx → Ctx) : (s.modCtx f).cycles = s.cycles := rfl
@[simp] theorem State.modCtx_cycCmp (s : State) (f : Ctx → Ctx) : (s.modCtx f).cycCmp = s.cycCmp := rfl
@[simp] theorem State.modCtx_cmpHit (s : State) (f : Ctx → Ctx) : (s.modCtx f).cmpHit = s.cmpHit := rfl
@[simp] theorem State.modCtx_pkgNo (s : State) (f : Ctx → Ctx) : (s.modCtx f).pkgNo = s.pkgNo := rfl
@[simp] theorem State.modCtx_logSeq (s : State) (f : Ctx → Ctx) : (s.modCtx f).logSeq = s.logSeq := rfl
@[simp] theorem State.modCtx_notices (s : State) (f : Ctx → Ctx) : (s.modCtx f).notices = s.notices := rfl
@[simp] theorem State.modCtx_wins (s : State) (f : Ctx → Ctx) : (s.modCtx f).wins = s.wins := rfl
@[simp] theorem State.modCtx_circs (s : State) (f : Ctx → Ctx) : (s.modCtx f).circs = s.circs := rfl
@[simp] theorem State.modCtx_links (s : State) (f : Ctx → Ctx) : (s.modCtx f).links = s.links := rfl
@[simp] theorem State.modCtx_kiln (s : State) (f : Ctx → Ctx) : (s.modCtx f).kiln = s.kiln := rfl
@[simp] theorem State.modCtx_tokens (s : State) (f : Ctx → Ctx) : (s.modCtx f).tokens = s.tokens := rfl
@[simp] theorem State.modCtx_cfgWait (s : State) (f : Ctx → Ctx) : (s.modCtx f).cfgWait = s.cfgWait := rfl
@[simp] theorem State.modCtx_mgmtRx (s : State) (f : Ctx → Ctx) : (s.modCtx f).mgmtRx = s.mgmtRx := rfl
@[simp] theorem State.modCtx_mgmtCnt (s : State) (f : Ctx → Ctx) : (s.modCtx f).mgmtCnt = s.mgmtCnt := rfl
@[simp] theorem State.modCtx_power (s : State) (f : Ctx → Ctx) : (s.modCtx f).power = s.power := rfl
@[simp] theorem State.modCtx_boot (s : State) (f : Ctx → Ctx) : (s.modCtx f).boot = s.boot := rfl
@[simp] theorem State.modCtx_nextTag (s : State) (f : Ctx → Ctx) : (s.modCtx f).nextTag = s.nextTag := rfl
@[simp] theorem State.modCtx_focus (s : State) (f : Ctx → Ctx) : (s.modCtx f).focus = s.focus := rfl
@[simp] theorem State.modCtx_stream (s : State) (f : Ctx → Ctx) : (s.modCtx f).stream = s.stream := rfl
@[simp] theorem State.modCtx_agenda (s : State) (f : Ctx → Ctx) : (s.modCtx f).agenda = s.agenda := rfl
@[simp] theorem State.modCtx_ticks (s : State) (f : Ctx → Ctx) : (s.modCtx f).ticks = s.ticks := rfl

@[simp] theorem State.modStage_mem (s : State) (f : Stage → Stage) : (s.modStage f).mem = s.mem := rfl
@[simp] theorem State.modStage_eccBad (s : State) (f : Stage → Stage) : (s.modStage f).eccBad = s.eccBad := rfl
@[simp] theorem State.modStage_eccSeen (s : State) (f : Stage → Stage) : (s.modStage f).eccSeen = s.eccSeen := rfl
@[simp] theorem State.modStage_cycles (s : State) (f : Stage → Stage) : (s.modStage f).cycles = s.cycles := rfl
@[simp] theorem State.modStage_cycCmp (s : State) (f : Stage → Stage) : (s.modStage f).cycCmp = s.cycCmp := rfl
@[simp] theorem State.modStage_cmpHit (s : State) (f : Stage → Stage) : (s.modStage f).cmpHit = s.cmpHit := rfl
@[simp] theorem State.modStage_pkgNo (s : State) (f : Stage → Stage) : (s.modStage f).pkgNo = s.pkgNo := rfl
@[simp] theorem State.modStage_logSeq (s : State) (f : Stage → Stage) : (s.modStage f).logSeq = s.logSeq := rfl
@[simp] theorem State.modStage_notices (s : State) (f : Stage → Stage) : (s.modStage f).notices = s.notices := rfl
@[simp] theorem State.modStage_wins (s : State) (f : Stage → Stage) : (s.modStage f).wins = s.wins := rfl
@[simp] theorem State.modStage_circs (s : State) (f : Stage → Stage) : (s.modStage f).circs = s.circs := rfl
@[simp] theorem State.modStage_links (s : State) (f : Stage → Stage) : (s.modStage f).links = s.links := rfl
@[simp] theorem State.modStage_kiln (s : State) (f : Stage → Stage) : (s.modStage f).kiln = s.kiln := rfl
@[simp] theorem State.modStage_tokens (s : State) (f : Stage → Stage) : (s.modStage f).tokens = s.tokens := rfl
@[simp] theorem State.modStage_cfgWait (s : State) (f : Stage → Stage) : (s.modStage f).cfgWait = s.cfgWait := rfl
@[simp] theorem State.modStage_mgmtRx (s : State) (f : Stage → Stage) : (s.modStage f).mgmtRx = s.mgmtRx := rfl
@[simp] theorem State.modStage_mgmtCnt (s : State) (f : Stage → Stage) : (s.modStage f).mgmtCnt = s.mgmtCnt := rfl
@[simp] theorem State.modStage_power (s : State) (f : Stage → Stage) : (s.modStage f).power = s.power := rfl
@[simp] theorem State.modStage_boot (s : State) (f : Stage → Stage) : (s.modStage f).boot = s.boot := rfl
@[simp] theorem State.modStage_nextTag (s : State) (f : Stage → Stage) : (s.modStage f).nextTag = s.nextTag := rfl
@[simp] theorem State.modStage_focus (s : State) (f : Stage → Stage) : (s.modStage f).focus = s.focus := rfl
@[simp] theorem State.modStage_stream (s : State) (f : Stage → Stage) : (s.modStage f).stream = s.stream := rfl
@[simp] theorem State.modStage_agenda (s : State) (f : Stage → Stage) : (s.modStage f).agenda = s.agenda := rfl
@[simp] theorem State.modStage_ticks (s : State) (f : Stage → Stage) : (s.modStage f).ticks = s.ticks := rfl

@[simp] theorem State.setV_mem (s : State) (c r : Nat) (x : VReg) : (s.setV c r x).mem = s.mem := rfl
@[simp] theorem State.setV_eccBad (s : State) (c r : Nat) (x : VReg) : (s.setV c r x).eccBad = s.eccBad := rfl
@[simp] theorem State.setV_eccSeen (s : State) (c r : Nat) (x : VReg) : (s.setV c r x).eccSeen = s.eccSeen := rfl
@[simp] theorem State.setV_cycles (s : State) (c r : Nat) (x : VReg) : (s.setV c r x).cycles = s.cycles := rfl
@[simp] theorem State.setV_cycCmp (s : State) (c r : Nat) (x : VReg) : (s.setV c r x).cycCmp = s.cycCmp := rfl
@[simp] theorem State.setV_cmpHit (s : State) (c r : Nat) (x : VReg) : (s.setV c r x).cmpHit = s.cmpHit := rfl
@[simp] theorem State.setV_pkgNo (s : State) (c r : Nat) (x : VReg) : (s.setV c r x).pkgNo = s.pkgNo := rfl
@[simp] theorem State.setV_logSeq (s : State) (c r : Nat) (x : VReg) : (s.setV c r x).logSeq = s.logSeq := rfl
@[simp] theorem State.setV_notices (s : State) (c r : Nat) (x : VReg) : (s.setV c r x).notices = s.notices := rfl
@[simp] theorem State.setV_wins (s : State) (c r : Nat) (x : VReg) : (s.setV c r x).wins = s.wins := rfl
@[simp] theorem State.setV_circs (s : State) (c r : Nat) (x : VReg) : (s.setV c r x).circs = s.circs := rfl
@[simp] theorem State.setV_links (s : State) (c r : Nat) (x : VReg) : (s.setV c r x).links = s.links := rfl
@[simp] theorem State.setV_kiln (s : State) (c r : Nat) (x : VReg) : (s.setV c r x).kiln = s.kiln := rfl
@[simp] theorem State.setV_tokens (s : State) (c r : Nat) (x : VReg) : (s.setV c r x).tokens = s.tokens := rfl
@[simp] theorem State.setV_cfgWait (s : State) (c r : Nat) (x : VReg) : (s.setV c r x).cfgWait = s.cfgWait := rfl
@[simp] theorem State.setV_mgmtRx (s : State) (c r : Nat) (x : VReg) : (s.setV c r x).mgmtRx = s.mgmtRx := rfl
@[simp] theorem State.setV_mgmtCnt (s : State) (c r : Nat) (x : VReg) : (s.setV c r x).mgmtCnt = s.mgmtCnt := rfl
@[simp] theorem State.setV_power (s : State) (c r : Nat) (x : VReg) : (s.setV c r x).power = s.power := rfl
@[simp] theorem State.setV_boot (s : State) (c r : Nat) (x : VReg) : (s.setV c r x).boot = s.boot := rfl
@[simp] theorem State.setV_nextTag (s : State) (c r : Nat) (x : VReg) : (s.setV c r x).nextTag = s.nextTag := rfl
@[simp] theorem State.setV_focus (s : State) (c r : Nat) (x : VReg) : (s.setV c r x).focus = s.focus := rfl
@[simp] theorem State.setV_stream (s : State) (c r : Nat) (x : VReg) : (s.setV c r x).stream = s.stream := rfl
@[simp] theorem State.setV_agenda (s : State) (c r : Nat) (x : VReg) : (s.setV c r x).agenda = s.agenda := rfl
@[simp] theorem State.setV_ticks (s : State) (c r : Nat) (x : VReg) : (s.setV c r x).ticks = s.ticks := rfl

@[simp] theorem State.setK_mem (s : State) (c j : Nat) (x : BitVec 9) : (s.setK c j x).mem = s.mem := rfl
@[simp] theorem State.setK_eccBad (s : State) (c j : Nat) (x : BitVec 9) : (s.setK c j x).eccBad = s.eccBad := rfl
@[simp] theorem State.setK_eccSeen (s : State) (c j : Nat) (x : BitVec 9) : (s.setK c j x).eccSeen = s.eccSeen := rfl
@[simp] theorem State.setK_cycles (s : State) (c j : Nat) (x : BitVec 9) : (s.setK c j x).cycles = s.cycles := rfl
@[simp] theorem State.setK_cycCmp (s : State) (c j : Nat) (x : BitVec 9) : (s.setK c j x).cycCmp = s.cycCmp := rfl
@[simp] theorem State.setK_cmpHit (s : State) (c j : Nat) (x : BitVec 9) : (s.setK c j x).cmpHit = s.cmpHit := rfl
@[simp] theorem State.setK_pkgNo (s : State) (c j : Nat) (x : BitVec 9) : (s.setK c j x).pkgNo = s.pkgNo := rfl
@[simp] theorem State.setK_logSeq (s : State) (c j : Nat) (x : BitVec 9) : (s.setK c j x).logSeq = s.logSeq := rfl
@[simp] theorem State.setK_notices (s : State) (c j : Nat) (x : BitVec 9) : (s.setK c j x).notices = s.notices := rfl
@[simp] theorem State.setK_wins (s : State) (c j : Nat) (x : BitVec 9) : (s.setK c j x).wins = s.wins := rfl
@[simp] theorem State.setK_circs (s : State) (c j : Nat) (x : BitVec 9) : (s.setK c j x).circs = s.circs := rfl
@[simp] theorem State.setK_links (s : State) (c j : Nat) (x : BitVec 9) : (s.setK c j x).links = s.links := rfl
@[simp] theorem State.setK_kiln (s : State) (c j : Nat) (x : BitVec 9) : (s.setK c j x).kiln = s.kiln := rfl
@[simp] theorem State.setK_tokens (s : State) (c j : Nat) (x : BitVec 9) : (s.setK c j x).tokens = s.tokens := rfl
@[simp] theorem State.setK_cfgWait (s : State) (c j : Nat) (x : BitVec 9) : (s.setK c j x).cfgWait = s.cfgWait := rfl
@[simp] theorem State.setK_mgmtRx (s : State) (c j : Nat) (x : BitVec 9) : (s.setK c j x).mgmtRx = s.mgmtRx := rfl
@[simp] theorem State.setK_mgmtCnt (s : State) (c j : Nat) (x : BitVec 9) : (s.setK c j x).mgmtCnt = s.mgmtCnt := rfl
@[simp] theorem State.setK_power (s : State) (c j : Nat) (x : BitVec 9) : (s.setK c j x).power = s.power := rfl
@[simp] theorem State.setK_boot (s : State) (c j : Nat) (x : BitVec 9) : (s.setK c j x).boot = s.boot := rfl
@[simp] theorem State.setK_nextTag (s : State) (c j : Nat) (x : BitVec 9) : (s.setK c j x).nextTag = s.nextTag := rfl
@[simp] theorem State.setK_focus (s : State) (c j : Nat) (x : BitVec 9) : (s.setK c j x).focus = s.focus := rfl
@[simp] theorem State.setK_stream (s : State) (c j : Nat) (x : BitVec 9) : (s.setK c j x).stream = s.stream := rfl
@[simp] theorem State.setK_agenda (s : State) (c j : Nat) (x : BitVec 9) : (s.setK c j x).agenda = s.agenda := rfl
@[simp] theorem State.setK_ticks (s : State) (c j : Nat) (x : BitVec 9) : (s.setK c j x).ticks = s.ticks := rfl

@[simp] theorem State.modIq_mem (s : State) (c n : Nat) (f : IqPort → IqPort) : (s.modIq c n f).mem = s.mem := rfl
@[simp] theorem State.modIq_eccBad (s : State) (c n : Nat) (f : IqPort → IqPort) : (s.modIq c n f).eccBad = s.eccBad := rfl
@[simp] theorem State.modIq_eccSeen (s : State) (c n : Nat) (f : IqPort → IqPort) : (s.modIq c n f).eccSeen = s.eccSeen := rfl
@[simp] theorem State.modIq_cycles (s : State) (c n : Nat) (f : IqPort → IqPort) : (s.modIq c n f).cycles = s.cycles := rfl
@[simp] theorem State.modIq_cycCmp (s : State) (c n : Nat) (f : IqPort → IqPort) : (s.modIq c n f).cycCmp = s.cycCmp := rfl
@[simp] theorem State.modIq_cmpHit (s : State) (c n : Nat) (f : IqPort → IqPort) : (s.modIq c n f).cmpHit = s.cmpHit := rfl
@[simp] theorem State.modIq_pkgNo (s : State) (c n : Nat) (f : IqPort → IqPort) : (s.modIq c n f).pkgNo = s.pkgNo := rfl
@[simp] theorem State.modIq_logSeq (s : State) (c n : Nat) (f : IqPort → IqPort) : (s.modIq c n f).logSeq = s.logSeq := rfl
@[simp] theorem State.modIq_notices (s : State) (c n : Nat) (f : IqPort → IqPort) : (s.modIq c n f).notices = s.notices := rfl
@[simp] theorem State.modIq_wins (s : State) (c n : Nat) (f : IqPort → IqPort) : (s.modIq c n f).wins = s.wins := rfl
@[simp] theorem State.modIq_circs (s : State) (c n : Nat) (f : IqPort → IqPort) : (s.modIq c n f).circs = s.circs := rfl
@[simp] theorem State.modIq_links (s : State) (c n : Nat) (f : IqPort → IqPort) : (s.modIq c n f).links = s.links := rfl
@[simp] theorem State.modIq_kiln (s : State) (c n : Nat) (f : IqPort → IqPort) : (s.modIq c n f).kiln = s.kiln := rfl
@[simp] theorem State.modIq_tokens (s : State) (c n : Nat) (f : IqPort → IqPort) : (s.modIq c n f).tokens = s.tokens := rfl
@[simp] theorem State.modIq_cfgWait (s : State) (c n : Nat) (f : IqPort → IqPort) : (s.modIq c n f).cfgWait = s.cfgWait := rfl
@[simp] theorem State.modIq_mgmtRx (s : State) (c n : Nat) (f : IqPort → IqPort) : (s.modIq c n f).mgmtRx = s.mgmtRx := rfl
@[simp] theorem State.modIq_mgmtCnt (s : State) (c n : Nat) (f : IqPort → IqPort) : (s.modIq c n f).mgmtCnt = s.mgmtCnt := rfl
@[simp] theorem State.modIq_power (s : State) (c n : Nat) (f : IqPort → IqPort) : (s.modIq c n f).power = s.power := rfl
@[simp] theorem State.modIq_boot (s : State) (c n : Nat) (f : IqPort → IqPort) : (s.modIq c n f).boot = s.boot := rfl
@[simp] theorem State.modIq_nextTag (s : State) (c n : Nat) (f : IqPort → IqPort) : (s.modIq c n f).nextTag = s.nextTag := rfl
@[simp] theorem State.modIq_focus (s : State) (c n : Nat) (f : IqPort → IqPort) : (s.modIq c n f).focus = s.focus := rfl
@[simp] theorem State.modIq_stream (s : State) (c n : Nat) (f : IqPort → IqPort) : (s.modIq c n f).stream = s.stream := rfl
@[simp] theorem State.modIq_agenda (s : State) (c n : Nat) (f : IqPort → IqPort) : (s.modIq c n f).agenda = s.agenda := rfl
@[simp] theorem State.modIq_ticks (s : State) (c n : Nat) (f : IqPort → IqPort) : (s.modIq c n f).ticks = s.ticks := rfl

@[simp] theorem State.modOq_mem (s : State) (c n : Nat) (f : OqPort → OqPort) : (s.modOq c n f).mem = s.mem := rfl
@[simp] theorem State.modOq_eccBad (s : State) (c n : Nat) (f : OqPort → OqPort) : (s.modOq c n f).eccBad = s.eccBad := rfl
@[simp] theorem State.modOq_eccSeen (s : State) (c n : Nat) (f : OqPort → OqPort) : (s.modOq c n f).eccSeen = s.eccSeen := rfl
@[simp] theorem State.modOq_cycles (s : State) (c n : Nat) (f : OqPort → OqPort) : (s.modOq c n f).cycles = s.cycles := rfl
@[simp] theorem State.modOq_cycCmp (s : State) (c n : Nat) (f : OqPort → OqPort) : (s.modOq c n f).cycCmp = s.cycCmp := rfl
@[simp] theorem State.modOq_cmpHit (s : State) (c n : Nat) (f : OqPort → OqPort) : (s.modOq c n f).cmpHit = s.cmpHit := rfl
@[simp] theorem State.modOq_pkgNo (s : State) (c n : Nat) (f : OqPort → OqPort) : (s.modOq c n f).pkgNo = s.pkgNo := rfl
@[simp] theorem State.modOq_logSeq (s : State) (c n : Nat) (f : OqPort → OqPort) : (s.modOq c n f).logSeq = s.logSeq := rfl
@[simp] theorem State.modOq_notices (s : State) (c n : Nat) (f : OqPort → OqPort) : (s.modOq c n f).notices = s.notices := rfl
@[simp] theorem State.modOq_wins (s : State) (c n : Nat) (f : OqPort → OqPort) : (s.modOq c n f).wins = s.wins := rfl
@[simp] theorem State.modOq_circs (s : State) (c n : Nat) (f : OqPort → OqPort) : (s.modOq c n f).circs = s.circs := rfl
@[simp] theorem State.modOq_links (s : State) (c n : Nat) (f : OqPort → OqPort) : (s.modOq c n f).links = s.links := rfl
@[simp] theorem State.modOq_kiln (s : State) (c n : Nat) (f : OqPort → OqPort) : (s.modOq c n f).kiln = s.kiln := rfl
@[simp] theorem State.modOq_tokens (s : State) (c n : Nat) (f : OqPort → OqPort) : (s.modOq c n f).tokens = s.tokens := rfl
@[simp] theorem State.modOq_cfgWait (s : State) (c n : Nat) (f : OqPort → OqPort) : (s.modOq c n f).cfgWait = s.cfgWait := rfl
@[simp] theorem State.modOq_mgmtRx (s : State) (c n : Nat) (f : OqPort → OqPort) : (s.modOq c n f).mgmtRx = s.mgmtRx := rfl
@[simp] theorem State.modOq_mgmtCnt (s : State) (c n : Nat) (f : OqPort → OqPort) : (s.modOq c n f).mgmtCnt = s.mgmtCnt := rfl
@[simp] theorem State.modOq_power (s : State) (c n : Nat) (f : OqPort → OqPort) : (s.modOq c n f).power = s.power := rfl
@[simp] theorem State.modOq_boot (s : State) (c n : Nat) (f : OqPort → OqPort) : (s.modOq c n f).boot = s.boot := rfl
@[simp] theorem State.modOq_nextTag (s : State) (c n : Nat) (f : OqPort → OqPort) : (s.modOq c n f).nextTag = s.nextTag := rfl
@[simp] theorem State.modOq_focus (s : State) (c n : Nat) (f : OqPort → OqPort) : (s.modOq c n f).focus = s.focus := rfl
@[simp] theorem State.modOq_stream (s : State) (c n : Nat) (f : OqPort → OqPort) : (s.modOq c n f).stream = s.stream := rfl
@[simp] theorem State.modOq_agenda (s : State) (c n : Nat) (f : OqPort → OqPort) : (s.modOq c n f).agenda = s.agenda := rfl
@[simp] theorem State.modOq_ticks (s : State) (c n : Nat) (f : OqPort → OqPort) : (s.modOq c n f).ticks = s.ticks := rfl

@[simp] theorem State.setG_mem (s : State) (r : GReg) (v : Word) : (s.setG r v).mem = s.mem := by
  unfold State.setG; (repeat' split) <;> rfl
@[simp] theorem State.setG_eccBad (s : State) (r : GReg) (v : Word) : (s.setG r v).eccBad = s.eccBad := by
  unfold State.setG; (repeat' split) <;> rfl
@[simp] theorem State.setG_eccSeen (s : State) (r : GReg) (v : Word) : (s.setG r v).eccSeen = s.eccSeen := by
  unfold State.setG; (repeat' split) <;> rfl
@[simp] theorem State.setG_cycles (s : State) (r : GReg) (v : Word) : (s.setG r v).cycles = s.cycles := by
  unfold State.setG; (repeat' split) <;> rfl
@[simp] theorem State.setG_cycCmp (s : State) (r : GReg) (v : Word) : (s.setG r v).cycCmp = s.cycCmp := by
  unfold State.setG; (repeat' split) <;> rfl
@[simp] theorem State.setG_cmpHit (s : State) (r : GReg) (v : Word) : (s.setG r v).cmpHit = s.cmpHit := by
  unfold State.setG; (repeat' split) <;> rfl
@[simp] theorem State.setG_pkgNo (s : State) (r : GReg) (v : Word) : (s.setG r v).pkgNo = s.pkgNo := by
  unfold State.setG; (repeat' split) <;> rfl
@[simp] theorem State.setG_logSeq (s : State) (r : GReg) (v : Word) : (s.setG r v).logSeq = s.logSeq := by
  unfold State.setG; (repeat' split) <;> rfl
@[simp] theorem State.setG_notices (s : State) (r : GReg) (v : Word) : (s.setG r v).notices = s.notices := by
  unfold State.setG; (repeat' split) <;> rfl
@[simp] theorem State.setG_wins (s : State) (r : GReg) (v : Word) : (s.setG r v).wins = s.wins := by
  unfold State.setG; (repeat' split) <;> rfl
@[simp] theorem State.setG_circs (s : State) (r : GReg) (v : Word) : (s.setG r v).circs = s.circs := by
  unfold State.setG; (repeat' split) <;> rfl
@[simp] theorem State.setG_links (s : State) (r : GReg) (v : Word) : (s.setG r v).links = s.links := by
  unfold State.setG; (repeat' split) <;> rfl
@[simp] theorem State.setG_kiln (s : State) (r : GReg) (v : Word) : (s.setG r v).kiln = s.kiln := by
  unfold State.setG; (repeat' split) <;> rfl
@[simp] theorem State.setG_tokens (s : State) (r : GReg) (v : Word) : (s.setG r v).tokens = s.tokens := by
  unfold State.setG; (repeat' split) <;> rfl
@[simp] theorem State.setG_cfgWait (s : State) (r : GReg) (v : Word) : (s.setG r v).cfgWait = s.cfgWait := by
  unfold State.setG; (repeat' split) <;> rfl
@[simp] theorem State.setG_mgmtRx (s : State) (r : GReg) (v : Word) : (s.setG r v).mgmtRx = s.mgmtRx := by
  unfold State.setG; (repeat' split) <;> rfl
@[simp] theorem State.setG_mgmtCnt (s : State) (r : GReg) (v : Word) : (s.setG r v).mgmtCnt = s.mgmtCnt := by
  unfold State.setG; (repeat' split) <;> rfl
@[simp] theorem State.setG_power (s : State) (r : GReg) (v : Word) : (s.setG r v).power = s.power := by
  unfold State.setG; (repeat' split) <;> rfl
@[simp] theorem State.setG_boot (s : State) (r : GReg) (v : Word) : (s.setG r v).boot = s.boot := by
  unfold State.setG; (repeat' split) <;> rfl
@[simp] theorem State.setG_nextTag (s : State) (r : GReg) (v : Word) : (s.setG r v).nextTag = s.nextTag := by
  unfold State.setG; (repeat' split) <;> rfl
@[simp] theorem State.setG_focus (s : State) (r : GReg) (v : Word) : (s.setG r v).focus = s.focus := by
  unfold State.setG; (repeat' split) <;> rfl
@[simp] theorem State.setG_stream (s : State) (r : GReg) (v : Word) : (s.setG r v).stream = s.stream := by
  unfold State.setG; (repeat' split) <;> rfl
@[simp] theorem State.setG_agenda (s : State) (r : GReg) (v : Word) : (s.setG r v).agenda = s.agenda := by
  unfold State.setG; (repeat' split) <;> rfl
@[simp] theorem State.setG_ticks (s : State) (r : GReg) (v : Word) : (s.setG r v).ticks = s.ticks := by
  unfold State.setG; (repeat' split) <;> rfl

@[simp] theorem State.setP_mem (s : State) (i : PReg) (b : Bool) : (s.setP i b).mem = s.mem := by
  unfold State.setP; (repeat' split) <;> rfl
@[simp] theorem State.setP_eccBad (s : State) (i : PReg) (b : Bool) : (s.setP i b).eccBad = s.eccBad := by
  unfold State.setP; (repeat' split) <;> rfl
@[simp] theorem State.setP_eccSeen (s : State) (i : PReg) (b : Bool) : (s.setP i b).eccSeen = s.eccSeen := by
  unfold State.setP; (repeat' split) <;> rfl
@[simp] theorem State.setP_cycles (s : State) (i : PReg) (b : Bool) : (s.setP i b).cycles = s.cycles := by
  unfold State.setP; (repeat' split) <;> rfl
@[simp] theorem State.setP_cycCmp (s : State) (i : PReg) (b : Bool) : (s.setP i b).cycCmp = s.cycCmp := by
  unfold State.setP; (repeat' split) <;> rfl
@[simp] theorem State.setP_cmpHit (s : State) (i : PReg) (b : Bool) : (s.setP i b).cmpHit = s.cmpHit := by
  unfold State.setP; (repeat' split) <;> rfl
@[simp] theorem State.setP_pkgNo (s : State) (i : PReg) (b : Bool) : (s.setP i b).pkgNo = s.pkgNo := by
  unfold State.setP; (repeat' split) <;> rfl
@[simp] theorem State.setP_logSeq (s : State) (i : PReg) (b : Bool) : (s.setP i b).logSeq = s.logSeq := by
  unfold State.setP; (repeat' split) <;> rfl
@[simp] theorem State.setP_notices (s : State) (i : PReg) (b : Bool) : (s.setP i b).notices = s.notices := by
  unfold State.setP; (repeat' split) <;> rfl
@[simp] theorem State.setP_wins (s : State) (i : PReg) (b : Bool) : (s.setP i b).wins = s.wins := by
  unfold State.setP; (repeat' split) <;> rfl
@[simp] theorem State.setP_circs (s : State) (i : PReg) (b : Bool) : (s.setP i b).circs = s.circs := by
  unfold State.setP; (repeat' split) <;> rfl
@[simp] theorem State.setP_links (s : State) (i : PReg) (b : Bool) : (s.setP i b).links = s.links := by
  unfold State.setP; (repeat' split) <;> rfl
@[simp] theorem State.setP_kiln (s : State) (i : PReg) (b : Bool) : (s.setP i b).kiln = s.kiln := by
  unfold State.setP; (repeat' split) <;> rfl
@[simp] theorem State.setP_tokens (s : State) (i : PReg) (b : Bool) : (s.setP i b).tokens = s.tokens := by
  unfold State.setP; (repeat' split) <;> rfl
@[simp] theorem State.setP_cfgWait (s : State) (i : PReg) (b : Bool) : (s.setP i b).cfgWait = s.cfgWait := by
  unfold State.setP; (repeat' split) <;> rfl
@[simp] theorem State.setP_mgmtRx (s : State) (i : PReg) (b : Bool) : (s.setP i b).mgmtRx = s.mgmtRx := by
  unfold State.setP; (repeat' split) <;> rfl
@[simp] theorem State.setP_mgmtCnt (s : State) (i : PReg) (b : Bool) : (s.setP i b).mgmtCnt = s.mgmtCnt := by
  unfold State.setP; (repeat' split) <;> rfl
@[simp] theorem State.setP_power (s : State) (i : PReg) (b : Bool) : (s.setP i b).power = s.power := by
  unfold State.setP; (repeat' split) <;> rfl
@[simp] theorem State.setP_boot (s : State) (i : PReg) (b : Bool) : (s.setP i b).boot = s.boot := by
  unfold State.setP; (repeat' split) <;> rfl
@[simp] theorem State.setP_nextTag (s : State) (i : PReg) (b : Bool) : (s.setP i b).nextTag = s.nextTag := by
  unfold State.setP; (repeat' split) <;> rfl
@[simp] theorem State.setP_focus (s : State) (i : PReg) (b : Bool) : (s.setP i b).focus = s.focus := by
  unfold State.setP; (repeat' split) <;> rfl
@[simp] theorem State.setP_stream (s : State) (i : PReg) (b : Bool) : (s.setP i b).stream = s.stream := by
  unfold State.setP; (repeat' split) <;> rfl
@[simp] theorem State.setP_agenda (s : State) (i : PReg) (b : Bool) : (s.setP i b).agenda = s.agenda := by
  unfold State.setP; (repeat' split) <;> rfl
@[simp] theorem State.setP_ticks (s : State) (i : PReg) (b : Bool) : (s.setP i b).ticks = s.ticks := by
  unfold State.setP; (repeat' split) <;> rfl

@[simp] theorem State.setPc_mem (s : State) (a : Addr) : (s.setPc a).mem = s.mem := by
  unfold State.setPc; (repeat' split) <;> rfl
@[simp] theorem State.setPc_eccBad (s : State) (a : Addr) : (s.setPc a).eccBad = s.eccBad := by
  unfold State.setPc; (repeat' split) <;> rfl
@[simp] theorem State.setPc_eccSeen (s : State) (a : Addr) : (s.setPc a).eccSeen = s.eccSeen := by
  unfold State.setPc; (repeat' split) <;> rfl
@[simp] theorem State.setPc_cycles (s : State) (a : Addr) : (s.setPc a).cycles = s.cycles := by
  unfold State.setPc; (repeat' split) <;> rfl
@[simp] theorem State.setPc_cycCmp (s : State) (a : Addr) : (s.setPc a).cycCmp = s.cycCmp := by
  unfold State.setPc; (repeat' split) <;> rfl
@[simp] theorem State.setPc_cmpHit (s : State) (a : Addr) : (s.setPc a).cmpHit = s.cmpHit := by
  unfold State.setPc; (repeat' split) <;> rfl
@[simp] theorem State.setPc_pkgNo (s : State) (a : Addr) : (s.setPc a).pkgNo = s.pkgNo := by
  unfold State.setPc; (repeat' split) <;> rfl
@[simp] theorem State.setPc_logSeq (s : State) (a : Addr) : (s.setPc a).logSeq = s.logSeq := by
  unfold State.setPc; (repeat' split) <;> rfl
@[simp] theorem State.setPc_notices (s : State) (a : Addr) : (s.setPc a).notices = s.notices := by
  unfold State.setPc; (repeat' split) <;> rfl
@[simp] theorem State.setPc_wins (s : State) (a : Addr) : (s.setPc a).wins = s.wins := by
  unfold State.setPc; (repeat' split) <;> rfl
@[simp] theorem State.setPc_circs (s : State) (a : Addr) : (s.setPc a).circs = s.circs := by
  unfold State.setPc; (repeat' split) <;> rfl
@[simp] theorem State.setPc_links (s : State) (a : Addr) : (s.setPc a).links = s.links := by
  unfold State.setPc; (repeat' split) <;> rfl
@[simp] theorem State.setPc_kiln (s : State) (a : Addr) : (s.setPc a).kiln = s.kiln := by
  unfold State.setPc; (repeat' split) <;> rfl
@[simp] theorem State.setPc_tokens (s : State) (a : Addr) : (s.setPc a).tokens = s.tokens := by
  unfold State.setPc; (repeat' split) <;> rfl
@[simp] theorem State.setPc_cfgWait (s : State) (a : Addr) : (s.setPc a).cfgWait = s.cfgWait := by
  unfold State.setPc; (repeat' split) <;> rfl
@[simp] theorem State.setPc_mgmtRx (s : State) (a : Addr) : (s.setPc a).mgmtRx = s.mgmtRx := by
  unfold State.setPc; (repeat' split) <;> rfl
@[simp] theorem State.setPc_mgmtCnt (s : State) (a : Addr) : (s.setPc a).mgmtCnt = s.mgmtCnt := by
  unfold State.setPc; (repeat' split) <;> rfl
@[simp] theorem State.setPc_power (s : State) (a : Addr) : (s.setPc a).power = s.power := by
  unfold State.setPc; (repeat' split) <;> rfl
@[simp] theorem State.setPc_boot (s : State) (a : Addr) : (s.setPc a).boot = s.boot := by
  unfold State.setPc; (repeat' split) <;> rfl
@[simp] theorem State.setPc_nextTag (s : State) (a : Addr) : (s.setPc a).nextTag = s.nextTag := by
  unfold State.setPc; (repeat' split) <;> rfl
@[simp] theorem State.setPc_focus (s : State) (a : Addr) : (s.setPc a).focus = s.focus := by
  unfold State.setPc; (repeat' split) <;> rfl
@[simp] theorem State.setPc_stream (s : State) (a : Addr) : (s.setPc a).stream = s.stream := by
  unfold State.setPc; (repeat' split) <;> rfl
@[simp] theorem State.setPc_agenda (s : State) (a : Addr) : (s.setPc a).agenda = s.agenda := by
  unfold State.setPc; (repeat' split) <;> rfl
@[simp] theorem State.setPc_ticks (s : State) (a : Addr) : (s.setPc a).ticks = s.ticks := by
  unfold State.setPc; (repeat' split) <;> rfl

@[simp] theorem State.setLoop_mem (s : State) (j : Nat) (l : Loop) : (s.setLoop j l).mem = s.mem := by
  unfold State.setLoop; (repeat' split) <;> rfl
@[simp] theorem State.setLoop_eccBad (s : State) (j : Nat) (l : Loop) : (s.setLoop j l).eccBad = s.eccBad := by
  unfold State.setLoop; (repeat' split) <;> rfl
@[simp] theorem State.setLoop_eccSeen (s : State) (j : Nat) (l : Loop) : (s.setLoop j l).eccSeen = s.eccSeen := by
  unfold State.setLoop; (repeat' split) <;> rfl
@[simp] theorem State.setLoop_cycles (s : State) (j : Nat) (l : Loop) : (s.setLoop j l).cycles = s.cycles := by
  unfold State.setLoop; (repeat' split) <;> rfl
@[simp] theorem State.setLoop_cycCmp (s : State) (j : Nat) (l : Loop) : (s.setLoop j l).cycCmp = s.cycCmp := by
  unfold State.setLoop; (repeat' split) <;> rfl
@[simp] theorem State.setLoop_cmpHit (s : State) (j : Nat) (l : Loop) : (s.setLoop j l).cmpHit = s.cmpHit := by
  unfold State.setLoop; (repeat' split) <;> rfl
@[simp] theorem State.setLoop_pkgNo (s : State) (j : Nat) (l : Loop) : (s.setLoop j l).pkgNo = s.pkgNo := by
  unfold State.setLoop; (repeat' split) <;> rfl
@[simp] theorem State.setLoop_logSeq (s : State) (j : Nat) (l : Loop) : (s.setLoop j l).logSeq = s.logSeq := by
  unfold State.setLoop; (repeat' split) <;> rfl
@[simp] theorem State.setLoop_notices (s : State) (j : Nat) (l : Loop) : (s.setLoop j l).notices = s.notices := by
  unfold State.setLoop; (repeat' split) <;> rfl
@[simp] theorem State.setLoop_wins (s : State) (j : Nat) (l : Loop) : (s.setLoop j l).wins = s.wins := by
  unfold State.setLoop; (repeat' split) <;> rfl
@[simp] theorem State.setLoop_circs (s : State) (j : Nat) (l : Loop) : (s.setLoop j l).circs = s.circs := by
  unfold State.setLoop; (repeat' split) <;> rfl
@[simp] theorem State.setLoop_links (s : State) (j : Nat) (l : Loop) : (s.setLoop j l).links = s.links := by
  unfold State.setLoop; (repeat' split) <;> rfl
@[simp] theorem State.setLoop_kiln (s : State) (j : Nat) (l : Loop) : (s.setLoop j l).kiln = s.kiln := by
  unfold State.setLoop; (repeat' split) <;> rfl
@[simp] theorem State.setLoop_tokens (s : State) (j : Nat) (l : Loop) : (s.setLoop j l).tokens = s.tokens := by
  unfold State.setLoop; (repeat' split) <;> rfl
@[simp] theorem State.setLoop_cfgWait (s : State) (j : Nat) (l : Loop) : (s.setLoop j l).cfgWait = s.cfgWait := by
  unfold State.setLoop; (repeat' split) <;> rfl
@[simp] theorem State.setLoop_mgmtRx (s : State) (j : Nat) (l : Loop) : (s.setLoop j l).mgmtRx = s.mgmtRx := by
  unfold State.setLoop; (repeat' split) <;> rfl
@[simp] theorem State.setLoop_mgmtCnt (s : State) (j : Nat) (l : Loop) : (s.setLoop j l).mgmtCnt = s.mgmtCnt := by
  unfold State.setLoop; (repeat' split) <;> rfl
@[simp] theorem State.setLoop_power (s : State) (j : Nat) (l : Loop) : (s.setLoop j l).power = s.power := by
  unfold State.setLoop; (repeat' split) <;> rfl
@[simp] theorem State.setLoop_boot (s : State) (j : Nat) (l : Loop) : (s.setLoop j l).boot = s.boot := by
  unfold State.setLoop; (repeat' split) <;> rfl
@[simp] theorem State.setLoop_nextTag (s : State) (j : Nat) (l : Loop) : (s.setLoop j l).nextTag = s.nextTag := by
  unfold State.setLoop; (repeat' split) <;> rfl
@[simp] theorem State.setLoop_focus (s : State) (j : Nat) (l : Loop) : (s.setLoop j l).focus = s.focus := by
  unfold State.setLoop; (repeat' split) <;> rfl
@[simp] theorem State.setLoop_stream (s : State) (j : Nat) (l : Loop) : (s.setLoop j l).stream = s.stream := by
  unfold State.setLoop; (repeat' split) <;> rfl
@[simp] theorem State.setLoop_agenda (s : State) (j : Nat) (l : Loop) : (s.setLoop j l).agenda = s.agenda := by
  unfold State.setLoop; (repeat' split) <;> rfl
@[simp] theorem State.setLoop_ticks (s : State) (j : Nat) (l : Loop) : (s.setLoop j l).ticks = s.ticks := by
  unfold State.setLoop; (repeat' split) <;> rfl

@[simp] theorem State.setSat_mem (s : State) (b : Bool) : (s.setSat b).mem = s.mem := by
  unfold State.setSat; (repeat' split) <;> rfl
@[simp] theorem State.setSat_eccBad (s : State) (b : Bool) : (s.setSat b).eccBad = s.eccBad := by
  unfold State.setSat; (repeat' split) <;> rfl
@[simp] theorem State.setSat_eccSeen (s : State) (b : Bool) : (s.setSat b).eccSeen = s.eccSeen := by
  unfold State.setSat; (repeat' split) <;> rfl
@[simp] theorem State.setSat_cycles (s : State) (b : Bool) : (s.setSat b).cycles = s.cycles := by
  unfold State.setSat; (repeat' split) <;> rfl
@[simp] theorem State.setSat_cycCmp (s : State) (b : Bool) : (s.setSat b).cycCmp = s.cycCmp := by
  unfold State.setSat; (repeat' split) <;> rfl
@[simp] theorem State.setSat_cmpHit (s : State) (b : Bool) : (s.setSat b).cmpHit = s.cmpHit := by
  unfold State.setSat; (repeat' split) <;> rfl
@[simp] theorem State.setSat_pkgNo (s : State) (b : Bool) : (s.setSat b).pkgNo = s.pkgNo := by
  unfold State.setSat; (repeat' split) <;> rfl
@[simp] theorem State.setSat_logSeq (s : State) (b : Bool) : (s.setSat b).logSeq = s.logSeq := by
  unfold State.setSat; (repeat' split) <;> rfl
@[simp] theorem State.setSat_notices (s : State) (b : Bool) : (s.setSat b).notices = s.notices := by
  unfold State.setSat; (repeat' split) <;> rfl
@[simp] theorem State.setSat_wins (s : State) (b : Bool) : (s.setSat b).wins = s.wins := by
  unfold State.setSat; (repeat' split) <;> rfl
@[simp] theorem State.setSat_circs (s : State) (b : Bool) : (s.setSat b).circs = s.circs := by
  unfold State.setSat; (repeat' split) <;> rfl
@[simp] theorem State.setSat_links (s : State) (b : Bool) : (s.setSat b).links = s.links := by
  unfold State.setSat; (repeat' split) <;> rfl
@[simp] theorem State.setSat_kiln (s : State) (b : Bool) : (s.setSat b).kiln = s.kiln := by
  unfold State.setSat; (repeat' split) <;> rfl
@[simp] theorem State.setSat_tokens (s : State) (b : Bool) : (s.setSat b).tokens = s.tokens := by
  unfold State.setSat; (repeat' split) <;> rfl
@[simp] theorem State.setSat_cfgWait (s : State) (b : Bool) : (s.setSat b).cfgWait = s.cfgWait := by
  unfold State.setSat; (repeat' split) <;> rfl
@[simp] theorem State.setSat_mgmtRx (s : State) (b : Bool) : (s.setSat b).mgmtRx = s.mgmtRx := by
  unfold State.setSat; (repeat' split) <;> rfl
@[simp] theorem State.setSat_mgmtCnt (s : State) (b : Bool) : (s.setSat b).mgmtCnt = s.mgmtCnt := by
  unfold State.setSat; (repeat' split) <;> rfl
@[simp] theorem State.setSat_power (s : State) (b : Bool) : (s.setSat b).power = s.power := by
  unfold State.setSat; (repeat' split) <;> rfl
@[simp] theorem State.setSat_boot (s : State) (b : Bool) : (s.setSat b).boot = s.boot := by
  unfold State.setSat; (repeat' split) <;> rfl
@[simp] theorem State.setSat_nextTag (s : State) (b : Bool) : (s.setSat b).nextTag = s.nextTag := by
  unfold State.setSat; (repeat' split) <;> rfl
@[simp] theorem State.setSat_focus (s : State) (b : Bool) : (s.setSat b).focus = s.focus := by
  unfold State.setSat; (repeat' split) <;> rfl
@[simp] theorem State.setSat_stream (s : State) (b : Bool) : (s.setSat b).stream = s.stream := by
  unfold State.setSat; (repeat' split) <;> rfl
@[simp] theorem State.setSat_agenda (s : State) (b : Bool) : (s.setSat b).agenda = s.agenda := by
  unfold State.setSat; (repeat' split) <;> rfl
@[simp] theorem State.setSat_ticks (s : State) (b : Bool) : (s.setSat b).ticks = s.ticks := by
  unfold State.setSat; (repeat' split) <;> rfl

@[simp] theorem State.setMask_mem (s : State) (c j : Nat) (x : Mask) : (s.setMask c j x).mem = s.mem := by
  unfold State.setMask; (repeat' split) <;> rfl
@[simp] theorem State.setMask_eccBad (s : State) (c j : Nat) (x : Mask) : (s.setMask c j x).eccBad = s.eccBad := by
  unfold State.setMask; (repeat' split) <;> rfl
@[simp] theorem State.setMask_eccSeen (s : State) (c j : Nat) (x : Mask) : (s.setMask c j x).eccSeen = s.eccSeen := by
  unfold State.setMask; (repeat' split) <;> rfl
@[simp] theorem State.setMask_cycles (s : State) (c j : Nat) (x : Mask) : (s.setMask c j x).cycles = s.cycles := by
  unfold State.setMask; (repeat' split) <;> rfl
@[simp] theorem State.setMask_cycCmp (s : State) (c j : Nat) (x : Mask) : (s.setMask c j x).cycCmp = s.cycCmp := by
  unfold State.setMask; (repeat' split) <;> rfl
@[simp] theorem State.setMask_cmpHit (s : State) (c j : Nat) (x : Mask) : (s.setMask c j x).cmpHit = s.cmpHit := by
  unfold State.setMask; (repeat' split) <;> rfl
@[simp] theorem State.setMask_pkgNo (s : State) (c j : Nat) (x : Mask) : (s.setMask c j x).pkgNo = s.pkgNo := by
  unfold State.setMask; (repeat' split) <;> rfl
@[simp] theorem State.setMask_logSeq (s : State) (c j : Nat) (x : Mask) : (s.setMask c j x).logSeq = s.logSeq := by
  unfold State.setMask; (repeat' split) <;> rfl
@[simp] theorem State.setMask_notices (s : State) (c j : Nat) (x : Mask) : (s.setMask c j x).notices = s.notices := by
  unfold State.setMask; (repeat' split) <;> rfl
@[simp] theorem State.setMask_wins (s : State) (c j : Nat) (x : Mask) : (s.setMask c j x).wins = s.wins := by
  unfold State.setMask; (repeat' split) <;> rfl
@[simp] theorem State.setMask_circs (s : State) (c j : Nat) (x : Mask) : (s.setMask c j x).circs = s.circs := by
  unfold State.setMask; (repeat' split) <;> rfl
@[simp] theorem State.setMask_links (s : State) (c j : Nat) (x : Mask) : (s.setMask c j x).links = s.links := by
  unfold State.setMask; (repeat' split) <;> rfl
@[simp] theorem State.setMask_kiln (s : State) (c j : Nat) (x : Mask) : (s.setMask c j x).kiln = s.kiln := by
  unfold State.setMask; (repeat' split) <;> rfl
@[simp] theorem State.setMask_tokens (s : State) (c j : Nat) (x : Mask) : (s.setMask c j x).tokens = s.tokens := by
  unfold State.setMask; (repeat' split) <;> rfl
@[simp] theorem State.setMask_cfgWait (s : State) (c j : Nat) (x : Mask) : (s.setMask c j x).cfgWait = s.cfgWait := by
  unfold State.setMask; (repeat' split) <;> rfl
@[simp] theorem State.setMask_mgmtRx (s : State) (c j : Nat) (x : Mask) : (s.setMask c j x).mgmtRx = s.mgmtRx := by
  unfold State.setMask; (repeat' split) <;> rfl
@[simp] theorem State.setMask_mgmtCnt (s : State) (c j : Nat) (x : Mask) : (s.setMask c j x).mgmtCnt = s.mgmtCnt := by
  unfold State.setMask; (repeat' split) <;> rfl
@[simp] theorem State.setMask_power (s : State) (c j : Nat) (x : Mask) : (s.setMask c j x).power = s.power := by
  unfold State.setMask; (repeat' split) <;> rfl
@[simp] theorem State.setMask_boot (s : State) (c j : Nat) (x : Mask) : (s.setMask c j x).boot = s.boot := by
  unfold State.setMask; (repeat' split) <;> rfl
@[simp] theorem State.setMask_nextTag (s : State) (c j : Nat) (x : Mask) : (s.setMask c j x).nextTag = s.nextTag := by
  unfold State.setMask; (repeat' split) <;> rfl
@[simp] theorem State.setMask_focus (s : State) (c j : Nat) (x : Mask) : (s.setMask c j x).focus = s.focus := by
  unfold State.setMask; (repeat' split) <;> rfl
@[simp] theorem State.setMask_stream (s : State) (c j : Nat) (x : Mask) : (s.setMask c j x).stream = s.stream := by
  unfold State.setMask; (repeat' split) <;> rfl
@[simp] theorem State.setMask_agenda (s : State) (c j : Nat) (x : Mask) : (s.setMask c j x).agenda = s.agenda := by
  unfold State.setMask; (repeat' split) <;> rfl
@[simp] theorem State.setMask_ticks (s : State) (c j : Nat) (x : Mask) : (s.setMask c j x).ticks = s.ticks := by
  unfold State.setMask; (repeat' split) <;> rfl

@[simp] theorem State.setByte_cores (s : State) (a : Nat) (b : Byte) : (s.setByte a b).cores = s.cores := rfl
@[simp] theorem State.setByte_eccBad (s : State) (a : Nat) (b : Byte) : (s.setByte a b).eccBad = s.eccBad := rfl
@[simp] theorem State.setByte_eccSeen (s : State) (a : Nat) (b : Byte) : (s.setByte a b).eccSeen = s.eccSeen := rfl
@[simp] theorem State.setByte_cycles (s : State) (a : Nat) (b : Byte) : (s.setByte a b).cycles = s.cycles := rfl
@[simp] theorem State.setByte_cycCmp (s : State) (a : Nat) (b : Byte) : (s.setByte a b).cycCmp = s.cycCmp := rfl
@[simp] theorem State.setByte_cmpHit (s : State) (a : Nat) (b : Byte) : (s.setByte a b).cmpHit = s.cmpHit := rfl
@[simp] theorem State.setByte_pkgNo (s : State) (a : Nat) (b : Byte) : (s.setByte a b).pkgNo = s.pkgNo := rfl
@[simp] theorem State.setByte_logSeq (s : State) (a : Nat) (b : Byte) : (s.setByte a b).logSeq = s.logSeq := rfl
@[simp] theorem State.setByte_notices (s : State) (a : Nat) (b : Byte) : (s.setByte a b).notices = s.notices := rfl
@[simp] theorem State.setByte_wins (s : State) (a : Nat) (b : Byte) : (s.setByte a b).wins = s.wins := rfl
@[simp] theorem State.setByte_circs (s : State) (a : Nat) (b : Byte) : (s.setByte a b).circs = s.circs := rfl
@[simp] theorem State.setByte_links (s : State) (a : Nat) (b : Byte) : (s.setByte a b).links = s.links := rfl
@[simp] theorem State.setByte_kiln (s : State) (a : Nat) (b : Byte) : (s.setByte a b).kiln = s.kiln := rfl
@[simp] theorem State.setByte_tokens (s : State) (a : Nat) (b : Byte) : (s.setByte a b).tokens = s.tokens := rfl
@[simp] theorem State.setByte_cfgWait (s : State) (a : Nat) (b : Byte) : (s.setByte a b).cfgWait = s.cfgWait := rfl
@[simp] theorem State.setByte_mgmtRx (s : State) (a : Nat) (b : Byte) : (s.setByte a b).mgmtRx = s.mgmtRx := rfl
@[simp] theorem State.setByte_mgmtCnt (s : State) (a : Nat) (b : Byte) : (s.setByte a b).mgmtCnt = s.mgmtCnt := rfl
@[simp] theorem State.setByte_power (s : State) (a : Nat) (b : Byte) : (s.setByte a b).power = s.power := rfl
@[simp] theorem State.setByte_boot (s : State) (a : Nat) (b : Byte) : (s.setByte a b).boot = s.boot := rfl
@[simp] theorem State.setByte_nextTag (s : State) (a : Nat) (b : Byte) : (s.setByte a b).nextTag = s.nextTag := rfl
@[simp] theorem State.setByte_focus (s : State) (a : Nat) (b : Byte) : (s.setByte a b).focus = s.focus := rfl
@[simp] theorem State.setByte_stream (s : State) (a : Nat) (b : Byte) : (s.setByte a b).stream = s.stream := rfl
@[simp] theorem State.setByte_agenda (s : State) (a : Nat) (b : Byte) : (s.setByte a b).agenda = s.agenda := rfl
@[simp] theorem State.setByte_ticks (s : State) (a : Nat) (b : Byte) : (s.setByte a b).ticks = s.ticks := rfl

@[simp] theorem State.putBytes_cores (s : State) (a : Nat) (l : List Byte) : (s.putBytes a l).cores = s.cores := by
  induction l generalizing s a with
  | nil => rfl
  | cons b t ih => simp [State.putBytes, ih]
@[simp] theorem State.putBytes_eccBad (s : State) (a : Nat) (l : List Byte) : (s.putBytes a l).eccBad = s.eccBad := by
  induction l generalizing s a with
  | nil => rfl
  | cons b t ih => simp [State.putBytes, ih]
@[simp] theorem State.putBytes_eccSeen (s : State) (a : Nat) (l : List Byte) : (s.putBytes a l).eccSeen = s.eccSeen := by
  induction l generalizing s a with
  | nil => rfl
  | cons b t ih => simp [State.putBytes, ih]
@[simp] theorem State.putBytes_cycles (s : State) (a : Nat) (l : List Byte) : (s.putBytes a l).cycles = s.cycles := by
  induction l generalizing s a with
  | nil => rfl
  | cons b t ih => simp [State.putBytes, ih]
@[simp] theorem State.putBytes_cycCmp (s : State) (a : Nat) (l : List Byte) : (s.putBytes a l).cycCmp = s.cycCmp := by
  induction l generalizing s a with
  | nil => rfl
  | cons b t ih => simp [State.putBytes, ih]
@[simp] theorem State.putBytes_cmpHit (s : State) (a : Nat) (l : List Byte) : (s.putBytes a l).cmpHit = s.cmpHit := by
  induction l generalizing s a with
  | nil => rfl
  | cons b t ih => simp [State.putBytes, ih]
@[simp] theorem State.putBytes_pkgNo (s : State) (a : Nat) (l : List Byte) : (s.putBytes a l).pkgNo = s.pkgNo := by
  induction l generalizing s a with
  | nil => rfl
  | cons b t ih => simp [State.putBytes, ih]
@[simp] theorem State.putBytes_logSeq (s : State) (a : Nat) (l : List Byte) : (s.putBytes a l).logSeq = s.logSeq := by
  induction l generalizing s a with
  | nil => rfl
  | cons b t ih => simp [State.putBytes, ih]
@[simp] theorem State.putBytes_notices (s : State) (a : Nat) (l : List Byte) : (s.putBytes a l).notices = s.notices := by
  induction l generalizing s a with
  | nil => rfl
  | cons b t ih => simp [State.putBytes, ih]
@[simp] theorem State.putBytes_wins (s : State) (a : Nat) (l : List Byte) : (s.putBytes a l).wins = s.wins := by
  induction l generalizing s a with
  | nil => rfl
  | cons b t ih => simp [State.putBytes, ih]
@[simp] theorem State.putBytes_circs (s : State) (a : Nat) (l : List Byte) : (s.putBytes a l).circs = s.circs := by
  induction l generalizing s a with
  | nil => rfl
  | cons b t ih => simp [State.putBytes, ih]
@[simp] theorem State.putBytes_links (s : State) (a : Nat) (l : List Byte) : (s.putBytes a l).links = s.links := by
  induction l generalizing s a with
  | nil => rfl
  | cons b t ih => simp [State.putBytes, ih]
@[simp] theorem State.putBytes_kiln (s : State) (a : Nat) (l : List Byte) : (s.putBytes a l).kiln = s.kiln := by
  induction l generalizing s a with
  | nil => rfl
  | cons b t ih => simp [State.putBytes, ih]
@[simp] theorem State.putBytes_tokens (s : State) (a : Nat) (l : List Byte) : (s.putBytes a l).tokens = s.tokens := by
  induction l generalizing s a with
  | nil => rfl
  | cons b t ih => simp [State.putBytes, ih]
@[simp] theorem State.putBytes_cfgWait (s : State) (a : Nat) (l : List Byte) : (s.putBytes a l).cfgWait = s.cfgWait := by
  induction l generalizing s a with
  | nil => rfl
  | cons b t ih => simp [State.putBytes, ih]
@[simp] theorem State.putBytes_mgmtRx (s : State) (a : Nat) (l : List Byte) : (s.putBytes a l).mgmtRx = s.mgmtRx := by
  induction l generalizing s a with
  | nil => rfl
  | cons b t ih => simp [State.putBytes, ih]
@[simp] theorem State.putBytes_mgmtCnt (s : State) (a : Nat) (l : List Byte) : (s.putBytes a l).mgmtCnt = s.mgmtCnt := by
  induction l generalizing s a with
  | nil => rfl
  | cons b t ih => simp [State.putBytes, ih]
@[simp] theorem State.putBytes_power (s : State) (a : Nat) (l : List Byte) : (s.putBytes a l).power = s.power := by
  induction l generalizing s a with
  | nil => rfl
  | cons b t ih => simp [State.putBytes, ih]
@[simp] theorem State.putBytes_boot (s : State) (a : Nat) (l : List Byte) : (s.putBytes a l).boot = s.boot := by
  induction l generalizing s a with
  | nil => rfl
  | cons b t ih => simp [State.putBytes, ih]
@[simp] theorem State.putBytes_nextTag (s : State) (a : Nat) (l : List Byte) : (s.putBytes a l).nextTag = s.nextTag := by
  induction l generalizing s a with
  | nil => rfl
  | cons b t ih => simp [State.putBytes, ih]
@[simp] theorem State.putBytes_focus (s : State) (a : Nat) (l : List Byte) : (s.putBytes a l).focus = s.focus := by
  induction l generalizing s a with
  | nil => rfl
  | cons b t ih => simp [State.putBytes, ih]
@[simp] theorem State.putBytes_stream (s : State) (a : Nat) (l : List Byte) : (s.putBytes a l).stream = s.stream := by
  induction l generalizing s a with
  | nil => rfl
  | cons b t ih => simp [State.putBytes, ih]
@[simp] theorem State.putBytes_agenda (s : State) (a : Nat) (l : List Byte) : (s.putBytes a l).agenda = s.agenda := by
  induction l generalizing s a with
  | nil => rfl
  | cons b t ih => simp [State.putBytes, ih]
@[simp] theorem State.putBytes_ticks (s : State) (a : Nat) (l : List Byte) : (s.putBytes a l).ticks = s.ticks := by
  induction l generalizing s a with
  | nil => rfl
  | cons b t ih => simp [State.putBytes, ih]

@[simp] theorem State.store_cores (s : State) (a : Nat) (l : List Byte) : (s.store a l).cores = s.cores := by simp [State.store]
@[simp] theorem State.store_cycles (s : State) (a : Nat) (l : List Byte) : (s.store a l).cycles = s.cycles := by simp [State.store]
@[simp] theorem State.store_cycCmp (s : State) (a : Nat) (l : List Byte) : (s.store a l).cycCmp = s.cycCmp := by simp [State.store]
@[simp] theorem State.store_cmpHit (s : State) (a : Nat) (l : List Byte) : (s.store a l).cmpHit = s.cmpHit := by simp [State.store]
@[simp] theorem State.store_pkgNo (s : State) (a : Nat) (l : List Byte) : (s.store a l).pkgNo = s.pkgNo := by simp [State.store]
@[simp] theorem State.store_logSeq (s : State) (a : Nat) (l : List Byte) : (s.store a l).logSeq = s.logSeq := by simp [State.store]
@[simp] theorem State.store_notices (s : State) (a : Nat) (l : List Byte) : (s.store a l).notices = s.notices := by simp [State.store]
@[simp] theorem State.store_wins (s : State) (a : Nat) (l : List Byte) : (s.store a l).wins = s.wins := by simp [State.store]
@[simp] theorem State.store_circs (s : State) (a : Nat) (l : List Byte) : (s.store a l).circs = s.circs := by simp [State.store]
@[simp] theorem State.store_links (s : State) (a : Nat) (l : List Byte) : (s.store a l).links = s.links := by simp [State.store]
@[simp] theorem State.store_kiln (s : State) (a : Nat) (l : List Byte) : (s.store a l).kiln = s.kiln := by simp [State.store]
@[simp] theorem State.store_tokens (s : State) (a : Nat) (l : List Byte) : (s.store a l).tokens = s.tokens := by simp [State.store]
@[simp] theorem State.store_cfgWait (s : State) (a : Nat) (l : List Byte) : (s.store a l).cfgWait = s.cfgWait := by simp [State.store]
@[simp] theorem State.store_mgmtRx (s : State) (a : Nat) (l : List Byte) : (s.store a l).mgmtRx = s.mgmtRx := by simp [State.store]
@[simp] theorem State.store_mgmtCnt (s : State) (a : Nat) (l : List Byte) : (s.store a l).mgmtCnt = s.mgmtCnt := by simp [State.store]
@[simp] theorem State.store_power (s : State) (a : Nat) (l : List Byte) : (s.store a l).power = s.power := by simp [State.store]
@[simp] theorem State.store_boot (s : State) (a : Nat) (l : List Byte) : (s.store a l).boot = s.boot := by simp [State.store]
@[simp] theorem State.store_nextTag (s : State) (a : Nat) (l : List Byte) : (s.store a l).nextTag = s.nextTag := by simp [State.store]
@[simp] theorem State.store_focus (s : State) (a : Nat) (l : List Byte) : (s.store a l).focus = s.focus := by simp [State.store]
@[simp] theorem State.store_stream (s : State) (a : Nat) (l : List Byte) : (s.store a l).stream = s.stream := by simp [State.store]
@[simp] theorem State.store_agenda (s : State) (a : Nat) (l : List Byte) : (s.store a l).agenda = s.agenda := by simp [State.store]
@[simp] theorem State.store_ticks (s : State) (a : Nat) (l : List Byte) : (s.store a l).ticks = s.ticks := by simp [State.store]
@[simp] theorem State.store_mem (s : State) (a : Nat) (l : List Byte) : (s.store a l).mem = (s.putBytes a l).mem := rfl

end Sys2Proof.Machine
end

