-- ==== Sys2Proof/Tests/Slice0.lean ====
section
/-! SUPPORT. Tests on fixed values: ill-formed terms, the words of every encoded instruction as the tables of spec/03 and the examples
of spec/04 to spec/12 give them, and reserved words refused. -/

open Sys2Proof Sys2Proof.Machine

namespace Sys2Proof.Tests

set_option maxRecDepth 8000

/-- All clusters, no lane mask, direct fields. -/
def vh : VHead := { cl := 0xF, m := 0, ind := false }
/-- The guard that always holds. -/
def g0 : Guard := { pg := 0, neg := false }

/-! ## Ill-formed terms, one for each check of Instr.wf -/

theorem test_wf_scalar : ([
    .bext 1 2 60 4, .bins 1 2 63 63, .fcvt .f32f16 1 2 .rtz, .loop g0 5 0, .sysr g0 4 0x003, .sysw g0 4 0x015, .sysw g0 4 0x002,
    .sysw g0 4 0x018, .sysw g0 4 0x01F, .sysw g0 4 0x033, .sysw g0 4 0x030, .qpeek 1 2 true 35 0, .epop 1 3 true] : List Instr).all
      (fun i => !i.wf) = true := by decide

theorem test_wf_vector : ([
    .vadd vh .f8e4 .rne 1 2 3, .vfma vh .i32 .rne 1 2 3 4, .vmin vh .f4 1 2 3, .vsqrt vh .n8 .rne 1 2, .vtanh vh .i8 .rne 1 2,
    .viadd vh .f32 false 1 2 3, .vand vh .bf16 1 2 3, .vshlVb vh .f16 1 2 3, .vshlImm vh .i8 1 2 8, .vshrImm vh .f32 1 2 0,
    .vsarImm vh .i16 1 2 16, .vfsh vh .i32 1 2 3 32, .vbext vh .i8 1 2 6 2, .vsatn vh .i8 .i16 1 2, .vsatn vh .i8 .i8 1 2,
    .vcmp .un vh .i32 1 2 3, .vcmp .eq { vh with ind := true } .f32 1 2 3, .mset 0xF 1 0x83, .vcvt vh .f32 .bf16 .rtz 1 2,
    .vpack vh .f32 1 2 3, .vunpack vh .n32 false 1 2, .vscale vh .f8e4 .f8e4 1 2, .vscale vh .f32 .bf16 1 2,
    .vquant vh .f32 .f32 .rne 1 2 3, .vdeq vh .i32 .f8e4 .rne 1 2 3, .vcmprSt vh .f4 false 1 2 3, .vexpdLd vh .f4 1 2,
    .vqpop { vh with m := 1 } 1 2, .vqpush { vh with m := 1 } .f32 true 1 2 3, .vshuf vh .rev 1 2 3, .vred vh .and .f32 .rne 1 2,
    .vred vh .max .f32 .rtz 1 2, .vargmax vh .f4 1 2, .vscan vh .max .i32 .rtz 1 2] : List Instr).all (fun i => !i.wf) = true := by
  decide

theorem test_wf_matrix : ([
    .mbatLd 0 false (.v 1) .f8e4 .plain, .mbatLd 0 false (.slice 1) .f32 .plain, .mbatLd 0 false (.slice 1) .f8e4 .t16,
    .mma 0 0 false (.v 1) 0 .f8e4 .f8e4 true, .mma 0 0 false (.v 1) 17 .f8e4 .f8e4 true, .macRd 0 0 (.v 1) 0 .f32 .rne,
    .macRdq 0 0 (.v 1) 17 .f8e4 .rne false, .mscale 0 false (.iq 1)] : List Instr).all (fun i => !i.wf) = true := by decide

/-! ## Words, written out from the layouts and opcode maps of spec/03; those of the spec's example tables are the spec's own -/

/-- The decoder reads the instruction from the words. -/
def reads (x : Code × Instr) : Bool := decide (decodeCode x.1 = .ok x.2)

/-- R87: limm's 53 bits lie in S0 [20:0] and S1 [31:0]. -/
theorem test_words_limm : reads (.limm 0x44B55555 0x80000001, .limm 5 (0x80000001#32 ++ 0x155555#21)) = true := by decide

/-- Table 3.8 op 0x01. -/
theorem test_words_alu : ([
    (.s 0x0422F800, .add 1 2 31),
    (.s 0x0443F001, .sub 2 3 30),
    (.s 0x0464E802, .and 3 4 29),
    (.s 0x0485E003, .or 4 5 28),
    (.s 0x04A6D804, .xor 5 6 27),
    (.s 0x04C7D005, .shl 6 7 26),
    (.s 0x04E8C806, .shr 7 8 25),
    (.s 0x0509C007, .sar 8 9 24),
    (.s 0x052AB808, .rotl 9 10 23),
    (.s 0x054BB009, .slt 10 11 22),
    (.s 0x056CA80A, .sltn 11 12 21),
    (.s 0x058DA00B, .seq 12 13 20),
    (.s 0x05AE980C, .min 13 14 19),
    (.s 0x05CF900D, .max 14 15 18),
    (.s 0x05F0880E, .minn 15 16 17),
    (.s 0x0611800F, .maxn 16 17 16)] : List (Code × Instr)).all reads = true := by decide

/-- Table 3.8 op 0x02. -/
theorem test_words_mul : ([
    (.s 0x0922F800, .mul 9 2 31),
    (.s 0x0943F001, .mulh 10 3 30),
    (.s 0x0964E802, .mulhn 11 4 29),
    (.s 0x0985E003, .div 12 5 28),
    (.s 0x09A6D804, .divn 13 6 27),
    (.s 0x09C7D005, .rem 14 7 26),
    (.s 0x09E8C806, .remn 15 8 25)] : List (Code × Instr)).all reads = true := by decide

/-- Table 3.8 ops 0x03 to 0x05, Table 5.8. -/
theorem test_words_bit : ([
    (.s 0x0D220000, .clz 9 2),
    (.s 0x0D430001, .ctz 10 3),
    (.s 0x0D640002, .popc 11 4),
    (.s 0x0D850003, .bswap 12 5),
    (.s 0x0CE80014, .sxt 7 8 .w16),
    (.s 0x0CE80025, .zxt 7 8 .w32),
    (.s 0x0CE84806, .fshl 7 8 9),
    (.s 0x0CE84807, .fshr 7 8 9),
    (.s 0x10A93060, .bext 5 9 12 6),
    (.s 0x14A9F030, .bins 5 9 60 3)] : List (Code × Instr)).all reads = true := by decide

/-- Table 3.8 ops 0x08 to 0x10, Table 5.8. -/
theorem test_words_imm : ([
    (.s 0x20228001, .addi 1 2 0x8001),
    (.s 0x24438002, .andi 2 3 0x8002),
    (.s 0x28648003, .ori 3 4 0x8003),
    (.s 0x2C858004, .xori 4 5 0x8004),
    (.s 0x3022003F, .shli 1 2 63),
    (.s 0x3443003E, .shri 2 3 62),
    (.s 0x3864003D, .sari 3 4 61),
    (.s 0x3C85003C, .rotli 4 5 60),
    (.s 0x40421234, .lih 2 2 0x1234)] : List (Code × Instr)).all reads = true := by decide

/-- Table 3.8 ops 0x14 to 0x17, Table 5.8. -/
theorem test_words_pred : ([
    (.s 0x50442802, .cmp .lt 2 4 5),
    (.s 0x50242805, .cmp .len 1 4 5),
    (.s 0x54221800, .pand 1 2 3),
    (.s 0x54432001, .por 2 3 4),
    (.s 0x54642802, .pxor 3 4 5),
    (.s 0x54E20003, .pnot 7 2),
    (.s 0x5A800000, .pget 20),
    (.s 0x5C642806, .sel 3 4 5 6)] : List (Code × Instr)).all reads = true := by decide

/-- Table 3.8 ops 0x18 to 0x1B, Table 5.8. -/
theorem test_words_fpu : ([
    (.s 0x60642800, .fadd 3 4 5 .rne),
    (.s 0x60642811, .fsub 3 4 5 .rtz),
    (.s 0x60642822, .fmul 3 4 5 .rdn),
    (.s 0x60642873, .fdiv 3 4 5 .dyn),
    (.s 0x60640054, .fsqrt 3 4 .rto),
    (.s 0x60642805, .fmin 3 4 5),
    (.s 0x60642806, .fmax 3 4 5),
    (.s 0x60640007, .fclass 3 4),
    (.s 0x648531C8, .ffma 4 5 6 7 .rtz),
    (.s 0x68C42803, .fcmp .un 6 4 5),
    (.s 0x6C640020, .fcvt .i32f32 3 4 .rdn)] : List (Code × Instr)).all reads = true := by decide

/-- Table 4.4, Table 5.8 and Table 3.8 ops 0x20 to 0x23. -/
theorem test_words_mem : ([
    (.s 0x80C3BFFC, .ld .n32 6 3 (-4)),
    (.s 0x84A2C008, .st .d64 5 2 8),
    (.s 0x88227000, .lda 3 1 2 (-4096)),
    (.s 0x8DA25819, .amo .cas true 13 2 11)] : List (Code × Instr)).all reads = true := by decide

/-- Table 3.9 and the examples of spec/06. -/
theorem test_words_c : ([
    (.c 0x05FFFFFB, .br ⟨3, true⟩ (-5)),
    (.c 0x08BC0000, .brr ⟨1, false⟩ 30),
    (.c 0x0C00000C, .call ⟨0, false⟩ 12),
    (.c 0x13FC0000, .callr ⟨7, true⟩ 30),
    (.c 0x14000000, .ret ⟨0, false⟩),
    (.c 0x180A0060, .loop ⟨0, false⟩ 5 3),
    (.c 0x1C000000, .halt ⟨0, false⟩),
    (.c 0x20000021, .trap ⟨0, false⟩ 0x21),
    (.c 0x25000000, .eret ⟨2, false⟩),
    (.c 0x28000000, .idle ⟨0, false⟩),
    (.c 0x2C00BEEF, .brk ⟨0, false⟩ 0xBEEF),
    (.c 0x40000000, .fireEnd ⟨0, false⟩),
    (.c 0x44000000, .fireNext ⟨0, false⟩),
    (.c 0x48280000, .split ⟨0, false⟩ 20),
    (.c 0x4C000000, .join ⟨0, false⟩),
    (.c 0x52800000, .barGrp ⟨5, false⟩)] : List (Code × Instr)).all reads = true := by decide

/-- Table 3.9 ops 0x18 to 0x1B and the examples of spec/06. -/
theorem test_words_cf : ([
    (.c 0x60292400, .cfArmReg ⟨0, false⟩ 41 9),
    (.c 0x60288400, .cfArmImm ⟨0, false⟩ 40 0x400),
    (.c 0x64074800, .cfWaitAny ⟨0, false⟩ 7 9),
    (.c 0x64344800, .cfWaitAll ⟨0, false⟩ 20 9),
    (.c 0x68074800, .cfFfr ⟨0, false⟩ 7 9),
    (.c 0x6C283000, .cfStat ⟨0, false⟩ 40 6)] : List (Code × Instr)).all reads = true := by decide

/-- Table 3.9 ops 0x20, 0x21 with the numbers of Table 1.4. -/
theorem test_words_sys : ([
    (.c 0x80080200, .sysr ⟨0, false⟩ 4 0x010),
    (.c 0x80080060, .coreSatRead ⟨0, false⟩ 4),
    (.c 0x84080620, .sysw ⟨0, false⟩ 4 0x031),
    (.c 0x840602A0, .cfErrWrite ⟨0, false⟩ 3),
    (.c 0x84080040, .coreRmodeWrite ⟨0, false⟩ 4),
    (.c 0x84080340, .loopCntWrite ⟨0, false⟩ 4 2),
    (.c 0x840803E0, .loopStartWrite ⟨0, false⟩ 4 3),
    (.c 0x84080660, .cycCmpWrite ⟨0, false⟩ 4),
    (.c 0x84080600, .hubStatusWrite ⟨0, false⟩ 4)] : List (Code × Instr)).all reads = true := by decide

/-- the examples of spec/10. -/
theorem test_words_q : ([
    (.q 0x0503C000, .qpop 8 3 true true),
    (.q 0x08D1C000, .qpush 6 1 true true),
    (.q 0x0D248680, .qpeek 9 4 true 3 2),
    (.q 0x11448000, .qhead 10 4 true 0),
    (.q 0x14058000, .qskip 5 true),
    (.q 0x1973C000, .qmark 11 3 true .ce),
    (.q 0x1D960000, .qfree 12 6),
    (.q 0x21A40000, .qavail 13 4),
    (.q 0x25C28000, .epop 14 2 true),
    (.q 0x28A70000, .mov 5 7),
    (.q 0x2C624000, .movp 3 2 true),
    (.q 0x31F30000, .qstat 15 19),
    (.q 0x34028C00, .qcopy 2 3 true),
    (.q 0x08F28000, .qpush 7 2 true false)] : List (Code × Instr)).all reads = true := by decide

/-- Table 3.11 ops 0x01 to 0x26, Table 7.8. -/
theorem test_words_vf : ([
    (.v 0xF010010203000000, .vadd ⟨0xF, 0, false⟩ .f32 .rne 1 2 3),
    (.v 0xF020010203001100, .vsub ⟨0xF, 0, false⟩ .bf16 .rtz 1 2 3),
    (.v 0xF030010203002200, .vmul ⟨0xF, 0, false⟩ .f16 .rdn 1 2 3),
    (.v 0xF0C0010203000300, .vdiv ⟨0xF, 0, false⟩ .f32 .rup 1 2 3),
    (.v 0xF0420708090A1100, .vfma ⟨0xF, 2, false⟩ .bf16 .rtz 7 8 9 10),
    (.v 0x30500708090A2C00, .vfms ⟨3, 0, true⟩ .f16 .rna 7 8 9 10),
    (.v 0xF0600708090A0700, .vfnma ⟨0xF, 0, false⟩ .f32 .dyn 7 8 9 10),
    (.v 0xF070010203001000, .vmin ⟨0xF, 0, false⟩ .bf16 1 2 3),
    (.v 0xF080010203001000, .vmax ⟨0xF, 0, false⟩ .bf16 1 2 3),
    (.v 0xF0B0010203001000, .vcopysign ⟨0xF, 0, false⟩ .bf16 1 2 3),
    (.v 0xF090010200001000, .vabs ⟨0xF, 0, false⟩ .bf16 1 2),
    (.v 0xF0A0010200001000, .vneg ⟨0xF, 0, false⟩ .bf16 1 2),
    (.v 0xF0D0010200002300, .vsqrt ⟨0xF, 0, false⟩ .f16 .rup 1 2),
    (.v 0xF200010200002300, .vrcp ⟨0xF, 0, false⟩ .f16 .rup 1 2),
    (.v 0xF210010200002300, .vrsq ⟨0xF, 0, false⟩ .f16 .rup 1 2),
    (.v 0xF220010200002300, .vexp2 ⟨0xF, 0, false⟩ .f16 .rup 1 2),
    (.v 0xF230010200002300, .vlog2 ⟨0xF, 0, false⟩ .f16 .rup 1 2),
    (.v 0xF250010200002300, .vcos ⟨0xF, 0, false⟩ .f16 .rup 1 2),
    (.v 0xF260010200002300, .vtanh ⟨0xF, 0, false⟩ .f16 .rup 1 2),
    (.v 0xF240204300000800, .vsin ⟨0xF, 0, true⟩ .f32 .rne 0x20 0x43)] : List (Code × Instr)).all reads = true := by decide

/-- Table 3.11 ops 0x30 to 0x41, Table 7.8. -/
theorem test_words_vi : ([
    (.v 0x4300040405008001, .viadd ⟨4, 0, false⟩ .i16 true 4 4 5),
    (.v 0xF31004040500B000, .visub ⟨0xF, 0, false⟩ .n8 false 4 4 5),
    (.v 0xF320010203006000, .vimul ⟨0xF, 0, false⟩ .i32 1 2 3),
    (.v 0xF330010203007000, .vimulh ⟨0xF, 0, false⟩ .n32 1 2 3),
    (.v 0xF340010203008000, .vimin ⟨0xF, 0, false⟩ .i16 1 2 3),
    (.v 0xF350010203009000, .vimax ⟨0xF, 0, false⟩ .n16 1 2 3),
    (.v 0xF36001020300A000, .vand ⟨0xF, 0, false⟩ .i8 1 2 3),
    (.v 0xF37001020300B000, .vor ⟨0xF, 0, false⟩ .n8 1 2 3),
    (.v 0xF380010203006000, .vxor ⟨0xF, 0, false⟩ .i32 1 2 3),
    (.v 0xF390010200007000, .vnot ⟨0xF, 0, false⟩ .n32 1 2),
    (.v 0xF3A00203040070FF, .vshlVb ⟨0xF, 0, false⟩ .n32 2 3 4),
    (.v 0xF3A002030000800F, .vshlImm ⟨0xF, 0, false⟩ .i16 2 3 15),
    (.v 0xF3B002030000800E, .vshrImm ⟨0xF, 0, false⟩ .i16 2 3 14),
    (.v 0xF3B002030400A0FF, .vshrVb ⟨0xF, 0, false⟩ .i8 2 3 4),
    (.v 0xF3C002030000800D, .vsarImm ⟨0xF, 0, false⟩ .i16 2 3 13),
    (.v 0xF3C002030400A0FF, .vsarVb ⟨0xF, 0, false⟩ .i8 2 3 4),
    (.v 0xF3D00B0C00007044, .vbext ⟨0xF, 0, false⟩ .n32 11 12 4 2),
    (.v 0xF3E001020300601F, .vfsh ⟨0xF, 0, false⟩ .i32 1 2 3 31),
    (.v 0xF3F001020000B000, .vpopc ⟨0xF, 0, false⟩ .n8 1 2),
    (.v 0xF400010200009000, .vclz ⟨0xF, 0, false⟩ .n16 1 2),
    (.v 0xF41001020000600B, .vsatn ⟨0xF, 0, false⟩ .i32 .n8 1 2)] : List (Code × Instr)).all reads = true := by decide

/-- Table 3.11 ops 0x50 to 0x5E. -/
theorem test_words_vm : ([
    (.v 0xF500030607000002, .vcmp .lt ⟨0xF, 0, false⟩ .f32 3 6 7),
    (.v 0xF510010203040000, .vsel ⟨0xF, 0, false⟩ 1 2 3 4),
    (.v 0x5580010203000000, .mand 5 1 2 3),
    (.v 0x5590010203000000, .mor 5 1 2 3),
    (.v 0x55A0010203000000, .mxor 5 1 2 3),
    (.v 0x55B0010200000000, .mnot 5 1 2),
    (.v 0x55C0010200000000, .mpopc 5 1 2),
    (.v 0x55D0010200000000, .mfirst 5 1 2),
    (.v 0xF5E0030000000081, .mset 0xF 3 0x81)] : List (Code × Instr)).all reads = true := by decide

/-- Table 3.11 ops 0x60 to 0x65, Table 7.5. -/
theorem test_words_vc : ([
    (.v 0xF600010200001100, .vcvt ⟨0xF, 0, false⟩ .bf16 .f32 .rtz 1 2),
    (.v 0xF610010203003000, .vpack ⟨0xF, 0, false⟩ .f8e4 1 2 3),
    (.v 0xF620010200008001, .vunpack ⟨0xF, 0, false⟩ .i16 true 1 2),
    (.v 0x16300B0A00030000, .vscale ⟨1, 0, false⟩ .f32 .f8e4 11 10),
    (.v 0x16400C0A0B030000, .vquant ⟨1, 0, false⟩ .f32 .f8e4 .rne 12 10 11),
    (.v 0x16500D0C0B030000, .vdeq ⟨1, 0, false⟩ .f32 .f8e4 .rne 13 12 11)] : List (Code × Instr)).all reads = true := by decide

/-- Table 3.11 ops 0x70 to 0x7C and the examples of spec/08. -/
theorem test_words_vd : ([
    (.v 0xF700140300000002, .vld ⟨0xF, 0, false⟩ 20 3 2),
    (.v 0xF7101403000000FF, .vst ⟨0xF, 0, false⟩ 20 3 0xFF),
    (.v 0xF720140304000000, .vlds ⟨0xF, 0, false⟩ 20 3 4),
    (.v 0xF730140304000000, .vsts ⟨0xF, 0, false⟩ 20 3 4),
    (.v 0xF740140304000000, .vgather ⟨0xF, 0, false⟩ 20 3 4),
    (.v 0xF750140384000000, .vscatter ⟨0xF, 0, false⟩ 20 3 0x84),
    (.v 0xF760140300000000, .vldb ⟨0xF, 0, false⟩ 20 3),
    (.v 0xF770084009000000, .vrget ⟨0xF, 0, false⟩ 8 64 9),
    (.v 0xF780084009000000, .vrput ⟨0xF, 0, false⟩ 8 64 9),
    (.v 0x17901E0405001000, .vcmprSt ⟨1, 0, false⟩ .bf16 false 30 4 5),
    (.v 0x17A01F0400001000, .vexpdLd ⟨1, 0, false⟩ .bf16 31 4),
    (.v 0xF7B0100600000000, .vqpop ⟨0xF, 0, false⟩ 16 6),
    (.v 0xF7C0280708003001, .vqpush ⟨0xF, 0, false⟩ .f8e4 true 40 7 8)] : List (Code × Instr)).all reads = true := by decide

/-- Table 3.11 ops 0x90 to 0x9B and the examples of spec/08. -/
theorem test_words_vp : ([
    (.v 0xF900010203000000, .vperm ⟨0xF, 0, false⟩ 1 2 3),
    (.v 0xF910010203000002, .vshuf ⟨0xF, 0, false⟩ .uev 1 2 3),
    (.v 0xF920020300000005, .vrotl ⟨0xF, 0, false⟩ 2 3 5),
    (.v 0xF93008090C000000, .vxcl ⟨0xF, 0, false⟩ 8 9 12),
    (.v 0xF942050600000000, .vred ⟨0xF, 2, false⟩ .add .f32 .rne 5 6),
    (.v 0xF950010200008000, .vargmax ⟨0xF, 0, false⟩ .i16 1 2),
    (.v 0xF960010200006002, .vscan ⟨0xF, 0, false⟩ .min .i32 .rne 1 2),
    (.v 0xF970090000000000, .viota ⟨0xF, 0, false⟩ 9),
    (.v 0xF98009000C000000, .vmovs ⟨0xF, 0, false⟩ 9 12),
    (.v 0xF99009080C000000, .vbcast ⟨0xF, 0, false⟩ 9 8 12),
    (.v 0xF9A0090000000000, .vzero ⟨0xF, 0, false⟩ 9),
    (.v 0xF9B0020005000020, .kset 0xF 2 5 32)] : List (Code × Instr)).all reads = true := by decide

/-- the examples of spec/09 and Listing 3.1. -/
theorem test_words_mx : ([
    (.x 0x0108B20000030000, .mbatLd 0 true (.slice 2) .f8e4 .plain),
    (.x 0x0100B00000040001, .mbatLd 0 false (.slice 0) .f8e5 .t8),
    (.x 0x0800B10000000000, .mscale 0 false (.slice 1)),
    (.x 0x0208000000000000, .mbatSel 0 true),
    (.x 0x030A080010A30001, .mma 2 0 true (.v 8) 16 .i8 .f8e4 true),
    (.x 0x0320820003330000, .mma 0 2 false (.iq 2) 3 .f8e4 .f8e4 false),
    (.x 0x0450000000000000, .macClr 0 5),
    (.x 0x072000000000FF00, .mrows 0 2 0xFF00),
    (.x 0x051000B410010001, .macRd 0 1 (.slice 4) 16 .bf16 .rtz),
    (.x 0x0630009501030008, .macRdq 0 3 (.oq 5) 1 .f8e4 .rne true),
    (.x 0x0930000400000000, .mstat 0 3 4),
    (.x 0x0A00000000000000, .mwait 0 0)] : List (Code × Instr)).all reads = true := by decide

/-- Table 3.13 ops 0x01 to 0x0E, Table 11.6. -/
theorem test_words_en : ([
    (.x 0x810190A600000000, .dxCopy 0 3 4 5 6),
    (.x 0x8202A12A00000000, .dxPat 0 5 8 9 10),
    (.x 0x830331AE0000040D, .dxGat 0 6 12 13 14 13 4),
    (.x 0x842331AE0001000C, .dxSct 1 6 12 13 14 12 256),
    (.x 0x8503D2A000000001, .dxStream 0 7 20 21 1 false),
    (.x 0x8503D2A000000006, .dxStream 0 7 20 21 2 true),
    (.x 0x8600000000000000, .dxDrain 0),
    (.x 0x880490A600000000, .rst 0 9 4 5 6),
    (.x 0x89011D0900000000, .rld 0 2 7 8 9),
    (.x 0x89011D0900000001, .rldIq 0 2 7 8 9),
    (.x 0x8A052D8D00000010, .ramo 0 10 11 12 13 .add true),
    (.x 0x8B1F90A000000000, .rcfAdd 0 63 4 5),
    (.x 0x8C018000FFFFFFC0, .cfAdd 0 3 (-64)),
    (.x 0x8D00000000000000, .fenceCore 0),
    (.x 0x8D00000000000001, .fencePkg 0),
    (.x 0x8D00000000000002, .fenceDom 0),
    (.x 0x8E1456C000000000, .fenceF 0 40 21 22)] : List (Code × Instr)).all reads = true := by decide

/-- Table 3.13 ops 0x10 to 0x22, Table 12.9. -/
theorem test_words_en2 : ([
    (.x 0x9000100000000000, .kilnAdmit 0 4),
    (.x 0x9100000000000032, .kilnStep 0 2 3),
    (.x 0x920652A000000003, .kilnRet 0 12 20 21 3),
    (.x 0x930014C000000000, .kilnRd 0 5 6),
    (.x 0x9400100000000000, .kilnCancel 0 4),
    (.x 0x9560100000000000, .kilnEvict 3 4),
    (.x 0x9600100000000002, .kilnAbort 0 4 false true),
    (.x 0x98001D0900000000, .cfgLoad 0 7 8 9),
    (.x 0x9900280000000001, .cfgCommit 0 10 true),
    (.x 0x9A00280000000000, .cfgAbort 0 10),
    (.x 0x9B00280000000000, .cfgTok 0 10),
    (.x 0x9C0029600000000F, .segSet 0 15 10 11),
    (.x 0x9D002D8D00000007, .winSet 0 7 11 12 13),
    (.x 0x9E000000000000C8, .winRevoke 0 200),
    (.x 0x9F00240000000000, .circBind 0 9),
    (.x 0x9F00240000000001, .circBindRel 0 9),
    (.x 0xA000380000000000, .eventPop 0 14),
    (.x 0xA10010A000000000, .logRd 0 4 5),
    (.x 0xA2000C0000000000, .dbgCtlHalt 0 3),
    (.x 0xA2000C0000000001, .dbgCtlHaltq 0 3),
    (.x 0xA2000C0000000002, .dbgCtlRun 0 3),
    (.x 0xA2000C0000000003, .dbgCtlStep 0 3),
    (.x 0xA2000C0000000004, .dbgCtlResume 0 3),
    (.x 0xA2000C0000000005, .dbgCtlSkip 0 3),
    (.x 0xA2000C0000000006, .dbgCtlAbort 0 3)] : List (Code × Instr)).all reads = true := by decide

/-! ## Words that no instruction has (R75, R77, R79, R85 to R91): each refused -/

theorem test_reserved_words : ([
    -- opcode 0 with other bits set, opcodes and sub-op values absent from the maps, unused fields
    .s 0x00000001, .s 0x04611010, .s 0x18000000, .s 0x0C220800, .s 0x0C000008, .s 0x30000040, .s 0x80C3E000, .s 0x8CA2000A,
    .s 0x10A90031, .s 0x10A9F0F0, .s 0x6064107F, .s 0x44000000,
    .c 0x00000001, .c 0x18000000, .c 0x14000001, .c 0x20000100, .c 0x30000000, .c 0x80080001,
    .q 0x00000001, .q 0x04150000, .q 0x08E08000, .q 0x18608000, .q 0x25C38000, .q 0x38000000, .q 0x0D24C680,
    .v 0x0000000000000001, .v 0xF0E0000000000000, .v 0xF010010203006000, .v 0xF01001020300C000, .v 0xF300010203006002,
    .v 0x00100102030000F0, .v 0xF910010203000006,
    .x 0x8000000000000001, .x 0x8700000000000000, .x 0x0B00000000000000, .x 0x0320820011330000, .x 0x0320C00003330000,
    .x 0x0320820103330000, .x 0x8D00000000000003, .x 0xA200000000000007, .x 0x8600800000000000] : List Code).all
      (fun c => match decodeCode c with | .ok _ => false | .error _ => true) = true := by decide

/-! ## Bundles (R74 to R77, Table 3.15) -/

/-- Listing 3.1's 32 bytes: three operations. -/
theorem test_bundle_listing : (match decodeBundle (0x0320820003330000#64 ++ 0#64 ++ 0x04858000#32 ++ 0#32 ++ 0#32 ++ 0x04611000#32) with
    | .ok [(.s0, .ok a), (.q, .ok b), (.x, .ok c)] =>
      decide (a = .add 3 1 2 ∧ b = .qpop 4 5 true false ∧ c = .mma 0 2 false (.iq 2) 3 .f8e4 .f8e4 false)
    | _ => false) = true := by decide

/-- R75, R76: limm in S1 does not decode; an all-zero and an all-one bundle fault whole. -/
theorem test_bundle_refused :
    (match decodeBundle (0#192 ++ 0x44B55555#32 ++ 0x04611000#32) with
    | .ok [(.s0, .ok _), (.s1, .error _)] => true
    | _ => false) = true ∧
    (match decodeBundle 0 with | .error _ => true | .ok _ => false) = true ∧
    (match decodeBundle (BitVec.allOnes 256) with | .error _ => true | .ok _ => false) = true := by decide

end Sys2Proof.Tests
end

