-- ==== Sys2Proof/Tests/Runs0.lean ====
section
/-! SUPPORT. Tests of one instruction or one event on a small state; expected values are those of the spec's worked examples and
tables, or follow from its formulas by hand. -/

open Sys2Proof Sys2Proof.Machine

namespace Sys2Proof.Tests

set_option maxRecDepth 20000

/-- What a next state shows; none after a stop. -/
def after {α : Type} (i : Instr) (s : State) (f : State → α) : Option α :=
  match Machine.exec i s with
  | .next t => some (f t)
  | _ => none

/-- Hub core 0 at level M after reset; compute core 0 with a stage that declares every register. -/
def hub0 : State := State.reset
def cmp0 : State := State.reset.placeCompute 0
/-- Registers g1, g2, g3 set. -/
def with3 (s : State) (a b c : Word) : State := ((s.setG 1 a).setG 2 b).setG 3 c
/-- The result of a scalar operation into g3 from g1 and g2. -/
def result (i : Instr) (a b c : Word) : Option Word := after i (with3 hub0 a b c) fun t => t.g 3

/-! ## Scalar (spec/05) -/

theorem test_alu_edges :
    result (.add 3 1 2) (-1) 2 0 = some 1 ∧ result (.sub 3 1 2) 0 1 0 = some (-1) ∧
    result (.sar 3 1 2) 0x8000000000000000 127 0 = some (-1) ∧ result (.shl 3 1 2) 5 64 0 = some 5 ∧
    result (.rotl 3 1 2) 0x8000000000000001 1 0 = some 3 ∧ result (.slt 3 1 2) (-1) 0 0 = some 1 ∧
    result (.sltn 3 1 2) (-1) 0 0 = some 0 ∧ result (.maxn 3 1 2) (-1) 0 0 = some (-1) ∧ result (.max 3 1 2) (-1) 0 0 = some 0 := by
  decide

/-- Table 5.2 and its example: -7 / 2 = -3 with remainder -1. -/
theorem test_division :
    result (.div 3 1 2) (-7) 2 0 = some (-3) ∧ result (.rem 3 1 2) (-7) 2 0 = some (-1) ∧
    result (.div 3 1 2) 9 0 0 = some (-1) ∧ result (.rem 3 1 2) 9 0 0 = some 9 ∧
    result (.div 3 1 2) 0x8000000000000000 (-1) 0 = some 0x8000000000000000 ∧
    result (.rem 3 1 2) 0x8000000000000000 (-1) 0 = some 0 ∧ result (.mulh 3 1 2) 0x8000000000000000 (-1) 0 = some 0 ∧
    result (.mulhn 3 1 2) (-1) (-1) 0 = some (-2) := by decide

/-- R125 to R127: counts, extension, the pair shifts with s = 0 and with a source that is the destination. -/
theorem test_bits :
    result (.clz 3 1) 0 0 0 = some 64 ∧ result (.ctz 3 1) 0x10 0 0 = some 4 ∧ result (.popc 3 1) (-1) 0 0 = some 64 ∧
    result (.bswap 3 1) 0x0102030405060708 0 0 = some 0x0807060504030201 ∧ result (.sxt 3 1 .w8) 0x1280 0 0 = some (-128) ∧
    result (.fshl 3 1 2) 7 9 64 = some 7 ∧ result (.fshr 3 1 2) 7 9 64 = some 9 ∧ result (.fshr 3 1 2) 1 2 1 = some 0x8000000000000001 ∧
    result (.bext 3 1 12 6) 0xFF000 0 0 = some 0x7F ∧ result (.bins 3 1 60 3) 0xA 0 5 = some 0xA000000000000005 := by decide

theorem test_immediates :
    result (.addi 3 1 0xFFFF) 0 0 0 = some (-1) ∧ result (.ori 3 1 0x8000) 0 0 0 = some 0x8000 ∧
    result (.lih 3 3 0x1234) 0 0 0xFFFF000000000001 = some 0x1234000000000001 ∧ result (.limm 3 (-1)) 0 0 0 = some (-1) ∧
    result (.lda 3 3 1 (-1)) 16 0 0 = some 8 := by decide

/-- R13: g0 reads 0 and keeps no write; R123: no fault, PC + 32. -/
theorem test_g0 : after (.addi 0 0 5) hub0 (fun t => (t.g 0, t.pc)) = some (0, 0xF870100020) := by decide

/-- R132 to R137 with the examples of spec/05: 1 + 1, a rounding of 1/3, min of signed zeros, -2.5 to -3, 2^32 saturating. -/
theorem test_floats :
    result (.fadd 3 1 2 .rne) 0x3F800000 0x3F800000 0 = some 0x40000000 ∧
    result (.fdiv 3 1 2 .rne) 0x3F800000 0x40400000 0 = some 0x3EAAAAAB ∧
    result (.fdiv 3 1 2 .rtz) 0x3F800000 0x40400000 0 = some 0x3EAAAAAA ∧
    result (.fmin 3 1 2) 0 0x80000000 0 = some 0x80000000 ∧ result (.fclass 3 1) 0x7FC00000 0 0 = some 0x100 ∧
    result (.fsqrt 3 1 .rne) 0x40800000 0 0 = some 0x40000000 ∧
    result (.fcvt .i32f32 3 1 .rdn) 0xC0200000 0 0 = some 0xFFFFFFFFFFFFFFFD ∧
    after (.fcvt .i32f32 3 1 .rdn) (with3 hub0 0x4F800000 0 0) (fun t => (t.g 3, t.ctx.sat)) = some (0x7FFFFFFF, true) := by decide +kernel

/-- R130, R131: unsigned order, p0 discarded, pget in bit order. -/
theorem test_predicates :
    after (.cmp .ltn 2 1 2) (with3 hub0 1 (-1) 0) (fun t => (t.p 2, t.p 0)) = some (true, true) ∧
    after (.cmp .lt 0 1 2) (with3 hub0 1 (-1) 0) (fun t => t.p 0) = some true ∧
    after (.pget 3) (hub0.setP 7 true) (fun t => t.g 3) = some 0x81 ∧
    after (.pxor 1 2 3) ((hub0.setP 2 true).setP 3 true) (fun t => t.p 1) = some false := by decide

/-- The segment example of spec/13: SEG5 of core 58 maps EA 0x50_0000_3000 to 0x00_E800_3000; a store and a load there. -/
def core58 : State :=
  (({ State.reset with focus := 58 }).modCore 58 fun k =>
    { (k.setStage 0 Stage.probe) with firing := some 0, pc := 0, ctxOwner := 3, ctxWorld := false, seg := [(5, 0x00040000E8000033)] }).setG 1
    0x5000003000

theorem test_segment : core58.tr .st 0x5000003000 8 8 = .ok 0xE8003000 ∧ (rangeOf 0xE8003000).isMem = true := by decide

theorem test_store_load :
    after (.st .i16 2 1 2) (core58.setG 2 0x18765) (fun t => (t.byte 0xE8003002, t.byte 0xE8003003, t.byte 0xE8003004, t.pc)) =
      some (0x65, 0x87, 0, 32) ∧
    after (.ld .i16 3 1 2) (core58.store 0xE8003002 [0x65, 0x87]) (fun t => t.g 3) = some 0xFFFFFFFFFFFF8765 ∧
    after (.ld .n16 3 1 2) (core58.store 0xE8003002 [0x65, 0x87]) (fun t => t.g 3) = some 0x8765 := by decide

/-- R142: a compare that holds writes, one that fails does not; both return the old value. -/
theorem test_cas :
    after (.amo .cas false 13 1 11) (((core58.store 0xE8003000 [7]).setG 13 7).setG 11 9) (fun t => (t.g 13, t.byte 0xE8003000)) =
      some (7, 9) ∧
    after (.amo .cas false 13 1 11) (((core58.store 0xE8003000 [7]).setG 13 6).setG 11 9) (fun t => (t.g 13, t.byte 0xE8003000)) =
      some (7, 7) := by decide

/-- R138: a misaligned load halts the stage with ALIGN, and its destination keeps its value. -/
theorem test_align : after (.ld .i32 3 1 2) (core58.setG 3 5) (fun t => (t.me.trapCause.setWidth 8, (t.me.stage 0).state,
    ((t.me.ctx 0).g.lookup 3))) = some (4#8, .halted, some 5) := by decide

/-! ## Control (spec/06) -/

theorem test_branches :
    after (.br g0 (-5)) (hub0.setPc 0xF870101000) (fun t => t.pc) = some 0xF870100F60 ∧
    after (.callr g0 31) ((hub0.setG 31 0x40)) (fun t => (t.pc, t.g 31)) = some (0x40, 0xF870100020) ∧
    after (.br { pg := 1, neg := false } 9) hub0 (fun t => t.pc) = some 0xF870100020 ∧
    after (.brr g0 1) (cmp0.setG 1 (4096 * 32)) (fun t => (t.me.stage 0).haltCause) = some 1 := by decide

/-- Listing 6.1, Table 6.2: the commits of b2 and b5 (commits 3, 6, 10 and 17). -/
def listing61 (c0 c1 : BitVec 32) : State :=
  ((cmp0.setLoop 0 { len := 3, count := c0, start := 96 }).setLoop 1
    { len := if c1 = 0 then 0 else 2, count := c1, start := 128 }).setPc 160

theorem test_loop_branch :
    after (.addi 2 2 8) (listing61 2 3) (fun t => ((t.loop 0).count, (t.loop 1).count, t.pc)) = some (2, 2, 128) ∧
    after (.addi 2 2 8) (listing61 2 1) (fun t => ((t.loop 0).count, (t.loop 1).len, t.pc)) = some (1, 0, 96) ∧
    after (.addi 2 2 8) (listing61 1 1) (fun t => ((t.loop 0).len, (t.loop 1).len, t.pc)) = some (0, 0, 192) := by decide

theorem test_loop_begin :
    after (.loop g0 5 3) ((cmp0.setG 5 2).setPc 64) (fun t => ((t.loop 0).len, (t.loop 0).count, (t.loop 0).start, t.pc)) =
      some (3, 2, 96, 96) ∧
    after (.loop g0 5 3) (cmp0.setPc 64) (fun t => ((t.loop 0).len, t.pc)) = some (0, 192) := by decide

/-- R153, R35, R402: trap at M on a hub core; eret goes back. -/
theorem test_trap_eret :
    after (.trap g0 0x21) hub0 (fun t => (t.me.hub.bankM.cause, t.me.hub.bankM.pc, t.pc, t.me.hub.priv)) =
      some (0x000000210200000E, 0xF870100020, 0xF8701001C0, .m) ∧
    after (.eret g0) (hub0.modMe fun k => { k with hub := { k.hub with bankM := { k.hub.bankM with pc := 0x40, pie := true, ppriv := .u } } })
      (fun t => (t.pc, t.me.hub.ie, t.me.hub.priv)) = some (0x40, true, .u) := by decide

/-- Table 6.3: cf.wait.any takes the lowest ready flag and leaves the other; ERR shows in bit 63; .all waits. -/
def flags (v40 v41 : BitVec 32) (err : Bool) : State :=
  (cmp0.modMe fun k => { k with cf := [(40, { value := v40, threshold := 8, err := err, owner := some 0 }),
    (41, { value := v41, threshold := 16, err := false, owner := some 0 })] }).setG 9 0x0000030000000000

theorem test_cf_wait :
    after (.cfWaitAny g0 7 9) (flags 8 16 false) (fun t => (t.g 7, (t.me.flag 40).value, (t.me.flag 41).value)) = some (40, 0, 16) ∧
    after (.cfWaitAny g0 7 9) (flags 8 16 true) (fun t => t.g 7) = some 0x8000000000000028 ∧
    after (.cfWaitAll g0 7 9) (flags 8 3 false) (fun t => ((t.me.flag 40).value, t.pc)) = some (8, 0) := by decide

/-- R29, R32: mode 6 is ILLOP 0x0B; LOOP.CNT with COUNT 0 leaves the level inactive. -/
theorem test_sysw :
    after (.coreRmodeWrite g0 1) (cmp0.setG 1 6) (fun t => (t.me.stage 0).haltCause) = some 1 ∧
    after (.loopCntWrite g0 1 2) (cmp0.setG 1 0x0030000000000002) (fun t => ((t.loop 2).len, (t.loop 2).count)) = some (3, 2) ∧
    after (.sysw g0 1 0x000) hub0 (fun t => t.me.hub.bankM.cause) = some 0x0000000402000001 := by decide

/-! ## Faults: the example after R401 -/

/-- Core 36, stage 1, owner 3, charge 40, SEQ 517, bundle 3: the logbook entry and the notice of a QRATE on iq4. -/
def core36 : State :=
  ({ State.reset with focus := 36, logSeq := 517 }).modCore 36 fun k =>
    { ((k.setStage 1 { Stage.probe with inRate := [(4, 1)] }).setCtx 1 { Ctx.reset with fireDesc := 0x00280000 }) with
      firing := some 1, pc := 0x60, ctxOwner := 3, ctxWorld := false
      iq := [(4, { IqPort.reset with bind := .route 35 0, cap := 2, owner := some 1, popped := 1
                                     q := [{ kind := .tile, beats := [(BitVec.ofNat 512 (2 + 11 * 16 + 128 * 2 ^ 16)), 0, 0] }] })] }

theorem test_fault_example :
    after (.qpop 15 4 true false) core36 (fun t =>
      (t.load 0x8700040A0 8, t.load 0x8700040A8 8, t.load 0x8700040B0 8, t.load 0x8700040B8 8)) =
        some (0x0000020507643024, 0x0028000000000060, 4, 0) ∧
    after (.qpop 15 4 true false) core36 (fun t => t.notices) =
      some [{ w0 := 0x0000020500000301, w1 := 0x07010024, w2 := 0x60, w3 := 4 }] := by decide

end Sys2Proof.Tests
end

