-- ==== Sys2Proof/Tests/Witness0.lean ====
section
/-! SUPPORT. For each statement with hypotheses, small states and operands that meet them, clause by clause, at the edges of
their ranges. A clause that rests on a verdict of an opaque constant of Config has none (NOTES.md). -/

open Sys2Proof Sys2Proof.Machine Sys2Proof.Claims

namespace Sys2Proof.Tests

set_option maxRecDepth 20000

/-- Compute core 0 in split mode; a hub core at a level. -/
def split0 : State := cmp0.modCtx fun x => { x with split := some (x.splitBanks (splitStarts 32 0) 0) }
def hubAt (l : Priv) : State := hub0.modMe fun k => { k with hub := { k.hub with priv := l } }

theorem witness_DecodeEncode : (Instr.add 3 1 2).wf = true ∧ encode (.add 3 1 2) = some (.s 0x04611000) := by decide

theorem witness_BundleDecodes : (Instr.limm 2 (-1)).wf = true ∧ ∃ c, encode (.limm 2 (-1)) = some c := by
  exact ⟨by decide, _, rfl⟩

theorem witness_RegisterResults : (∃ f, intResult (.addi 0 0 (-1)) = some (0, f)) ∧ (∃ f, intResult (.add 16 1 2) = some (16, f)) ∧
    bankOk cmp0 31 ∧ bankOk split0 0 ∧ bankOk split0 16 :=
  ⟨⟨_, rfl⟩, ⟨_, rfl⟩, by unfold bankOk; decide, by unfold bankOk; decide, by unfold bankOk; decide⟩

theorem witness_RegisterResults_predicates : ∃ f, predResult (.cmp .len 0 1 2) = some (0, f) := ⟨_, rfl⟩

theorem witness_FloatResults : (∃ f, floatResult (.ffma 31 1 2 3 .dyn) = some (31, f)) ∧ bankOk cmp0 31 :=
  ⟨⟨_, rfl⟩, by unfold bankOk; decide⟩

/-- A NaN, both infinities, the largest finite value and the least for a conversion to an integer; each source of one into a
floating-point format; the ends of the finite values of the three formats. -/
theorem witness_Conversions : (∃ r, intTarget .n32f32 = some r) ∧ f32Of 0x7FC00000 = .nan ∧ f32Of 0xFF800000 = .inf true ∧
    f32Of 0x7F800000 = .inf false ∧ (∃ n q, f32Of 0x7F7FFFFF = .fin n q) ∧ (∃ n q, f32Of 0x80000001 = .fin n q) ∧
    (∃ m v, floatTarget .f32i64 0x8000000000000000 = some (m, v)) ∧ (∃ m v, floatTarget .bf16f32 0x7F7FFFFF = some (m, v)) ∧
    (∃ n q, Fmt.b16.value 0xFBFF = .fin n q) ∧ (∃ n q, Fmt.bf.value 0x0001 = .fin n q) ∧ ∃ n q, Fmt.b32.value 0 = .fin n q := by
  and_intros
  all_goals first | rfl | exact ⟨_, rfl⟩ | exact ⟨_, _, rfl⟩

/-- Table 2.8: -10.5 and 500 into E4M3 in each mode; a format with infinities; the least and the largest code of the narrowest. -/
theorem witness_FloatResults_rounding :
    between 3 (-9) (21 / 2) 10 0 ∧ chosen .rne true (21 / 2) 10 0 = 10 ∧ chosen .rtz true (21 / 2) 10 0 = 10 ∧
    chosen .rdn true (21 / 2) 10 0 = 11 ∧ chosen .rup true (21 / 2) 10 0 = 10 ∧ chosen .rna true (21 / 2) 10 0 = 11 ∧
    chosen .rto true (21 / 2) 10 0 = 11 ∧ between 3 (-9) 500 15 5 ∧
    (∀ r ∈ [Rnd.rne, .rtz, .rdn, .rup, .rna, .rto], (448 : Rat) < chosen r false 500 15 5) ∧
    (Fmt.e4m3, 3, -9, 448, false, 8) ∈ fmtRows ∧ (Fmt.e5m2, 2, -16, 57344, true, 8) ∈ fmtRows ∧ (0 : Rat) < 500 ∧ 15 < 2 ^ 4 := by
  unfold between; decide +kernel

theorem witness_ScalarFrame : ordinary cmp0 ∧ ordinary hub0 ∧ (∃ t, Machine.exec (.addi 1 0 1) cmp0 = .next t) ∧
    (∃ f, intResult (.addi 1 0 1) = some (1, f)) ∧ bankOk cmp0 1 ∧ ∃ f, predResult (.pnot 7 0) = some (7, f) :=
  ⟨by unfold ordinary; decide, by unfold ordinary; decide, ⟨_, rfl⟩, ⟨_, rfl⟩, by unfold bankOk; decide, _, rfl⟩

/-- Each of the other forms that write a register, and those that may wait. -/
theorem witness_ScalarFrame_other : otherDest (.ld .d64 4 1 0) = some 4 ∧ otherDest (.qpop 4 3 true false) = some 4 ∧
    otherDest (.epop 31 0 false) = some 31 ∧ mayWait (.qpop 4 3 true false) cmp0 = true ∧ mayWait (.epop 31 0 false) cmp0 = false ∧
    mayWait (.ld .d64 4 1 0) hub0 = true ∧ mayWait (.ld .d64 4 1 0) cmp0 = false ∧
    writesP7 (.epop 31 0 false) = true ∧ writesP7 (.ld .d64 4 1 0) = false ∧ bankOk cmp0 31 := by
  unfold bankOk; decide

theorem witness_SplitBankFault : split0.inSplit = true ∧ (∃ f, intResult (.addi 1 0 1) = some (1, f)) ∧
    (∃ f, intResult (.mov 15 1) = some (15, f)) ∧ (1 : GReg) ≠ 0 ∧ (15 : GReg).toNat < 16 :=
  ⟨by decide, ⟨_, rfl⟩, ⟨_, rfl⟩, by decide, by decide⟩

/-- The last aligned word of core 58's segment window of the example, clean and with an error. -/
theorem witness_LoadValue : bankOk core58 3 ∧ reaches core58 .ld (core58.ea 1 0) (ldSize .d64) 0xE8003000 ∧
    core58.badIn 0xE8003000 8 = false ∧ State.badIn { core58 with eccBad := [0xE8003007] } 0xE8003000 8 = true :=
  ⟨by unfold bankOk; decide, by unfold reaches; decide, by decide, by decide⟩

theorem witness_StoreBytes : ordinary core58 ∧ reaches core58 .st (core58.ea 1 (-1)) (stSize .i8) 0xE8002FFF :=
  ⟨by unfold ordinary; decide, by unfold reaches; decide⟩

theorem witness_AtomicUpdate : bankOk core58 13 ∧ core58.tr .amo (core58.g 1) 8 8 = .ok 0xE8003000 ∧ core58.badIn 0xE8003000 8 = false :=
  ⟨by unfold bankOk; decide, by decide, by decide⟩

/-- Over its width by one; misaligned by one; an empty and a short segment; a right, the world and the owner missing; an error. -/
theorem witness_AccessFaults : bankOk core58 3 ∧ 2 ^ 40 ≤ ((core58.setG 1 0x10000000000).ea 1 0).toNat ∧
    ((core58.setG 1 0xFFFFFFFFFF).ea 1 0).toNat < 2 ^ 40 ∧ ((core58.setG 1 0xFFFFFFFFFF).ea 1 0).toNat % 2 ≠ 0 ∧
    directMap core58.focus core58.me .ld (core58.ea 1 0).toNat = false ∧ segLimit (core58.me.segment 15) = 0 ∧
    segLimit (core58.me.segment 5) * 65536 < 0x3FFFFF9 + 8 ∧ 0x3FFFFF8 + 8 ≤ segLimit (core58.me.segment 5) * 65536 ∧
    segLimit (core58.me.segment 5) ≠ 0 ∧ 0x3000 + 8 ≤ segLimit (core58.me.segment 5) * 65536 ∧
    (Access.ld.rd = true ∧ segR 0x00040000E8000032 = false) ∧ (Access.st.wr = true ∧ segW 0x00040000E8000031 = false) ∧
    (Access.ld.rd = true → segR (core58.me.segment 5) = true) ∧ segWorld 0x00040000E800003B = true ∧ core58.me.ctxWorld = false ∧
    segOwner 0x00040000E8000043 ≠ core58.me.ctxOwner.toNat ∧ core58.hub = false ∧
    reaches core58 .ld (core58.ea 1 0) 8 0xE8003000 ∧ State.badIn { core58 with eccBad := [0xE8003000] } 0xE8003000 8 = true := by
  unfold bankOk reaches; decide

/-- A segment that reaches a hole, the logbook, or neither; each range that the direct map checks, at its first place; level S and M. -/
theorem witness_AccessFaults_places :
    (let bad := fun b : Nat => ¬ (rangeOf b = .slice ∨ rangeOf b = .hubGen ∨ (rangeOf b = .hubSec ∧ true = true ∧ offLogbook b 8))
     bad 0x480000000 ∧ bad 0x870000000 ∧ bad 0x870007FF8 ∧ bad 0xF00000000 ∧ ¬ bad 0x870008000) ∧
    (let s := hubAt .s
     ∀ pa ∈ [0, 0x480000000, 0x870000000, 0xC00000000, 0xF40000000, 0xF00000000],
       directMap s.focus s.me .ld (0xF000000000 + pa) = true ∧ (0xF000000000 + pa) % 2 ^ 36 = pa ∧ (0xF000000000 + pa) < 2 ^ 40 ∧
       (0xF000000000 + pa) % 8 = 0) ∧ (hubAt .s).me.hub.priv ≠ .m ∧
    (rangeOf 0 = .slice ∧ rangeOf 0x480000000 = .unmapped ∧ rangeOf 0x870000000 = .hubSec ∧ ¬ offLogbook 0x870000000 8 ∧
      rangeOf 0xC00000000 = .kilnRec ∧ rangeOf 0xF40000000 = .winView ∧ rangeOf 0xF00000000 = .cfg) ∧
    (hubAt .s).me.ctxWorld = true ∧ ((hubAt .s).modMe fun k => { k with ctxWorld := false }).me.ctxWorld = false ∧
    ((hubAt .s).core ((0xF00000000 - 0xF00000000) / 0x100000)).ctxWorld = true ∧
    ({ (hubAt .s) with kiln := { (hubAt .s).kiln with recs := [(0, { Rec.reset with world := true })] } }.recd
      ((0xC00000000 - 0xC00000000) / 64)).world = true := by
  unfold offLogbook; decide

theorem witness_SegmentTranslate :
    0x5000003000 < 2 ^ 40 ∧ 0x5000003000 % 8 = 0 ∧ directMap core58.focus core58.me .ld 0x5000003000 = false ∧
    Access.ld.ex = false ∧ segLimit (core58.me.segment 5) ≠ 0 ∧ 0x3000 + 8 ≤ segLimit (core58.me.segment 5) * 65536 ∧
    segR (core58.me.segment 5) = true ∧ segW (core58.me.segment 5) = true ∧ segWorld (core58.me.segment 5) = false ∧
    segOwner (core58.me.segment 5) = core58.me.ctxOwner.toNat ∧ segBase (core58.me.segment 5) * 65536 + 0x3000 + 8 ≤ 0x480000000 ∧
    (0x870000000 - 8 + 8 ≤ 0x870000000 ∧ offLogbook (0x870000000 - 8) 8 ∧ offLogbook 0x870008000 8 ∧ ¬ offLogbook 0x870007FF8 8) := by
  unfold offLogbook; decide

/-- Through the direct map: each range, at its first and last place; level S and M; with and without WORLD. -/
theorem witness_SegmentTranslate_direct :
    (∀ pa ∈ [0, 0x47FFFFFF8, 0x800000000, 0x86FFFFFF8, 0x870008000, 0x87FFFFFF8, 0xC00000000, 0xC0003FFF8, 0xF00000000, 0xF11FFFFF8,
      0xF40000000, 0xF40000FF8], directMap hub0.focus hub0.me .ld (0xF000000000 + pa) = true ∧
      directMap (hubAt .s).focus (hubAt .s).me .ld (0xF000000000 + pa) = true ∧ (0xF000000000 + pa) < 2 ^ 40 ∧
      (0xF000000000 + pa) % 8 = 0 ∧ (0xF000000000 + pa) % 2 ^ 36 = pa) ∧ Access.ld.ex = false ∧ hub0.me.hub.priv = .m ∧
    (rangeOf 0x47FFFFFF8 = .slice ∧ rangeOf 0x86FFFFFF8 = .hubGen ∧ rangeOf 0x87FFFFFF8 = .hubSec ∧ offLogbook 0x870008000 8 ∧
      rangeOf 0xC0003FFF8 = .kilnRec ∧ rangeOf 0xF11FFFFF8 = .cfg ∧ rangeOf 0xF40000FF8 = .winView) ∧ hub0.me.ctxWorld = true ∧
    (hub0.recd ((0xC0003FFF8 - 0xC00000000) / 64)).world = false ∧ (hub0.core ((0xF11FFFFF8 - 0xF00000000) / 0x100000)).ctxWorld = true ∧
    (directMap hub0.focus hub0.me .fetch 0xF870100000 = true ∧ rangeOf 0x870100000 = .hubSec) := by
  unfold offLogbook; decide

theorem witness_ReadAfterWrite : Memory.wf State.reset.mem = true := by decide

theorem witness_GuardedOff : guardOf (.brr ⟨1, false⟩ 2) = some ⟨1, false⟩ ∧ (cmp0.p 1 != false) = false ∧
    decodes (.brr ⟨1, false⟩ 2) cmp0 := by
  refine ⟨rfl, by decide, fun sl o h => ?_⟩
  cases sl <;> cases h <;> decide

theorem witness_GuardedOff_join : guardOf (.join ⟨1, false⟩) = some ⟨1, false⟩ ∧ (split0.p 1 != false) = false ∧
    decodes (.join ⟨1, false⟩) split0 := by
  refine ⟨rfl, by decide, fun sl o h => ?_⟩
  cases sl <;> cases h <;> decide

theorem witness_CoresKept : Hardwired { hub0 with cores := [] } ∧ OneFiring { hub0 with cores := [] } :=
  ⟨fun _ _ => ⟨⟨rfl, rfl, fun _ _ => rfl⟩, fun _ => ⟨rfl, rfl, fun _ _ => rfl⟩⟩, fun _ _ h => by cases h⟩

/-- Commits 6 and 10 of Table 6.2: level 1 ends and goes on; it ends for good, and level 0 goes on; none ends; the last bundle. -/
theorem witness_LoopBranch :
    (∀ k, 2 ≤ k → k < 4 → ¬ endsAt (listing61 2 3) k 160) ∧ endsAt (listing61 2 3) 1 160 ∧ ((listing61 2 3).loop 1).count ≠ 1 ∧
    endsAt (listing61 2 1) 1 160 ∧ ((listing61 2 1).loop 1).count = 1 ∧ (∀ k, 0 ≤ k → k < 4 → ¬ endsAt (listing61 2 3) k 96) ∧
    ((96 : Addr).toNat ≠ 4095 * 32) ∧ (∀ k, 0 ≤ k → k < 4 → ¬ endsAt cmp0 k 0x1FFE0) ∧ cmp0.hub = false ∧
    (0x1FFE0 : Addr).toNat = 4095 * 32 := by
  unfold endsAt
  refine ⟨?_, by decide, by decide, by decide, by decide, ?_, by decide, ?_, by decide, by decide⟩ <;> intro k h1 h2 <;>
    (have : k = 0 ∨ k = 1 ∨ k = 2 ∨ k = 3 := by omega) <;> rcases this with rfl | rfl | rfl | rfl <;> first | (exfalso; omega) | decide

/-- To bundle 0 and to 4,095, one before and one beyond; the register forms likewise and off a multiple of 32. -/
theorem witness_Branches : cmp0.guard g0 = true ∧ 0 ≤ dispTo cmp0 0 ∧ dispTo cmp0 4095 < codeEnd cmp0 ∧ dispTo cmp0 (-1) < 0 ∧
    codeEnd cmp0 ≤ dispTo cmp0 4096 ∧ ((cmp0.setG 31 0x1FFE0).g 31).toNat < codeEnd cmp0 ∧
    ((cmp0.setG 31 0x1FFE0).g 31).toNat % 32 = 0 ∧ codeEnd cmp0 ≤ ((cmp0.setG 31 0x20000).g 31).toNat ∧
    ((cmp0.setG 31 0x1FFE1).g 31).toNat < codeEnd cmp0 ∧ ((cmp0.setG 31 0x1FFE1).g 31).toNat % 32 ≠ 0 ∧
    ((hub0.setG 1 0xFFFFFFFFE0).g 1).toNat < codeEnd hub0 ∧ codeEnd hub0 ≤ ((hub0.setG 1 0x10000000000).g 1).toNat := by decide

/-- A body that just fits, one that does not; no pass, one pass, 2^32 passes; four levels in use. -/
theorem witness_LoopBegin : cmp0.guard g0 = true ∧ (4094 : BitVec 12) ≠ 0 ∧
    cmp0.pc.toNat + 32 * (4094 : BitVec 12).toNat < codeEnd cmp0 ∧ codeEnd cmp0 ≤ (cmp0.setPc 32).pc.toNat + 32 * (4095 : BitVec 12).toNat ∧
    cmp0.g 5 = 0 ∧ (cmp0.setG 5 1).g 5 ≠ 0 ∧ ((cmp0.setG 5 0xFFFFFFFF).g 5).toNat < 2 ^ 32 ∧ 2 ^ 32 ≤ ((cmp0.setG 5 0x100000000).g 5).toNat ∧
    (cmp0.loop 0).len = 0 ∧
    let l : Loop := { len := 1, count := 1, start := 0 }
    ((listing61 2 3).loop 2).len = 0 ∧ (∀ k < 2, ((listing61 2 3).loop k).len ≠ 0) ∧
      ∀ j < 4, (((((cmp0.setLoop 0 l).setLoop 1 l).setLoop 2 l).setLoop 3 l).loop j).len ≠ 0 := by decide

theorem witness_HaltTrapBreak : (hubAt .u).guard g0 = true ∧ (hubAt .u).hub = true ∧ (hubAt .u).me.hub.priv = .u ∧
    1 ≤ (hubAt .s).me.hub.priv.code ∧ 1 ≤ hub0.me.hub.priv.code ∧ cmp0.guard g0 = true ∧ cmp0.hub = false := by decide

theorem witness_HubTrap : hub0.hub = true ∧ hub0.me.hub.priv = .m ∧ (hubAt .u).me.hub.priv ≠ .m ∧ (hubAt .s).me.hub.priv ≠ .m := by decide

theorem witness_StageFault : cmp0.hub = false ∧ cmp0.me.firing = some 0 ∧ (255 : Nat) < 256 ∧ (7 : Nat) < 8 ∧ cmp0.focus < 288 ∧
    core36.me.firing = some 1 ∧ core36.focus < 288 := by decide

/-- A hub core at S or M whose bank returns to a level and a place. -/
def backTo (l : Priv) (to_ : Priv) (pc : Addr) : State := (hubAt l).modMe fun k => { k with hub := { k.hub with
  bankS := { k.hub.bankS with pc := pc, ppriv := to_ }, bankM := { k.hub.bankM with pc := pc, ppriv := to_ } } }

theorem witness_ReturnFromTrap : (hubAt .u).guard g0 = true ∧ (hubAt .u).hub = true ∧ (hubAt .u).me.hub.priv = .u ∧
    (backTo .s .m 32).me.hub.bankS.ppriv = .m ∧ (backTo .s .s 33).me.hub.priv = .s ∧ (backTo .s .s 33).me.hub.bankS.ppriv ≠ .m ∧
    (backTo .s .s 33).me.hub.bankS.pc.toNat % 32 ≠ 0 ∧ (backTo .s .u 32).me.hub.bankS.pc.toNat % 32 = 0 ∧
    (backTo .m .m 31).me.hub.priv = .m ∧ (backTo .m .m 31).me.hub.bankM.pc.toNat % 32 ≠ 0 ∧
    (backTo .m .u 0).me.hub.bankM.pc.toNat % 32 = 0 := by decide

/-- Hub core 0 at a level with IE, IRQ.EN and idle; the compare has been reached and the security block has its condition. -/
def irqState (l : Priv) (ie : Bool) (en : BitVec 4) (idle : Bool) : State :=
  { (hub0.modMe fun k => { k with hub := { k.hub with priv := l, ie := ie, irqEn := en, idle := idle } }) with
    boot := { hub0.boot with secPend := true } }

theorem witness_IdleAndWake : (hubAt .u).guard g0 = true ∧ 1 ≤ (hubAt .s).me.hub.priv.code ∧
    (irqState .s false 8 true).hubLive 512 = true ∧ ((irqState .s false 8 true).core 512).hub.idle = true ∧
    (irqState .s false 8 true).irqPend &&& ((irqState .s false 8 true).core 512).hub.irqEn ≠ 0 ∧
    (irqState .s false 8 true).irqToTake 512 = none ∧ (irqState .s true 8 true).irqToTake 512 = some 3 ∧
    (irqState .s true 8 true).hubLive 512 = true := by decide

/-- The compare at S from U, the security block at M, and the three ways in which none is taken. -/
theorem witness_Interrupts :
    (irqState .u true 8 false).hubLive 512 = true ∧ (irqState .u true 8 false).irqPend.getLsbD 3 = true ∧
    ((irqState .u true 8 false).core 512).hub.irqEn.getLsbD 3 = true ∧ ((irqState .u true 8 false).core 512).hub.irqEn.getLsbD 2 = false ∧
    ((irqState .u true 8 false).core 512).hub.priv ≠ .m ∧ (∀ m < 3, ¬ (irqState .u true 8 false).me.hub.irqEn.getLsbD m = true) ∧
    (irqState .m true 15 false).irqPend.getLsbD 2 = true ∧ ((irqState .m true 15 false).core 512).hub.irqEn.getLsbD 2 = true ∧
    ((irqState .s false 15 false).core 512).hub.ie = false ∧ (∀ i < 4, ¬ (irqState .s true 0 false).me.hub.irqEn.getLsbD i = true) ∧
    ((irqState .m true 8 false).core 512).hub.priv = .m := by decide

/-- A stage with iq 3 and oq 5 at rate 2; the ports given. -/
def withPorts (i : IqPort) (o : OqPort) : State := cmp0.modMe fun k =>
  { (k.setStage 0 { Stage.probe with inRate := [(3, 2)], outRate := [(5, 2)] }) with
    iq := [(3, { i with owner := some 0, bind := .route 1 0, cap := 2 })], oq := [(5, { o with owner := some 0, bind := .route 1 0 })] }
/-- A tile of 1 row of 128 bytes with CHARGE 7, a tile without rows, a CE. -/
def tile1 : Entry := mkTile (mkHead 2 11 1 128 0 7 0 0 0) [] [0x0123456789ABCDEF]
def tile0 : Entry := mkTile (mkHead 2 11 0 128 0 7 0 0 0) [] []
/-- A tile of 17 rows, a reserved value. -/
def tileBad : Entry := mkTile (mkHead 2 11 17 128 0 7 0 0 0) [] []
def ce7 : Entry := mkMarker 10 7 0
/-- iq 3 with entries, a cursor and pops; oq 5 with credits and pushes. -/
def iqWith (q : List Entry) (beat word popped : Nat) : IqPort := { IqPort.reset with q := q, beat := beat, word := word, popped := popped }
def oqWith (credits pushed : Nat) : OqPort := { OqPort.reset with credits := credits, pushed := pushed }
def ports (q : List Entry) (popped pushed : Nat) : State := withPorts (iqWith q 0 0 popped) (oqWith 2 pushed)

/-- A hub core with a notice for its world and owner. -/
def noticed : State := { hub0 with notices := [{ w0 := 0x1001, w1 := 0, w2 := 0, w3 := 0 }] }

theorem witness_FiringEnds : cmp0.guard g0 = true ∧ cmp0.inSplit = false ∧ cmp0.rateFault = none ∧ cmp0.hub = false ∧
    hub0.rateFault = none ∧ hub0.hub = true ∧ (ports [] 1 2).rateFault = some 3 ∧ (ports [] 2 1).rateFault = some 21 ∧
    (ports [] 2 2).rateFault = none ∧ noticed.hubNext (noticed.closeFiring noticed.focus 0 true) = true ∧ noticed.rateFault = none := by
  decide

theorem witness_FiringEnds_table : (dataFiring (ports [] 2 2) ∧ inputDone (ports [] 2 2) 3 ∧ outputDone (ports [] 2 2) 5) ∧
    ¬ inputDone (ports [] 1 2) 3 ∧ (inputDone (ports [] 2 1) 3 ∧ ¬ outputDone (ports [] 2 1) 5) ∧
    ¬ dataFiring ((ports [] 1 2).modCtx fun x => { x with fireDesc := 0x10 }) := by
  unfold inputDone outputDone dataFiring; decide

/-- A data firing; a marker firing whose marker stands at its head, and one that has taken it. -/
def marked (q : List Entry) : State := (ports q 0 0).modStage fun x => { x with markerPort := some 3 }
theorem witness_FiringClosed : ((ports [] 2 2).core 0).firing = some 0 ∧ (((ports [] 2 2).core 0).stage 0).markerPort = none ∧
    (((ports [] 2 2).core 0).stage 0).rateIn 3 ≠ 0 ∧ (((ports [] 2 2).core 0).stage 0).rateOut 5 ≠ 0 ∧
    ((marked [ce7]).core 0).firing = some 0 ∧ ((((marked [ce7]).core 0).stage 0).markerPort = some 3 ∧ (3 : BitVec 4).toNat < 16) ∧
    (((marked [ce7]).iq 0 3).q = ce7 :: [] ∧ ce7.kind = .marker ∧ ((marked [ce7]).iq 0 3).bind = .route 1 0) ∧
    (∀ e, ((marked [tile1]).iq 0 3).q.head? = some e → e.kind ≠ .marker) := by
  refine ⟨by decide, by decide, by decide, by decide, by decide, by decide, by decide, fun e h => ?_⟩
  have : e = tile1 := by simpa [eq_comm] using (show some tile1 = some e from h)
  subst this; decide

/-- All streams but this one running, and all but this one at their join. -/
def joined3 (b : Bool) : State := split0.modCtx fun x => [1, 2, 3].foldl (fun y i => y.modBank i fun z => { z with joined := b }) x

theorem witness_SplitAndJoin : cmp0.hub = false ∧ cmp0.guard g0 = true ∧ cmp0.inSplit = false ∧ split0.inSplit = true ∧
    split0.stream < 4 ∧ (∀ j < 4, ¬ endsAt split0 j split0.pc) ∧ split0.pc.toNat ≠ 4095 * 32 ∧ (split0.ctx.bank 3).joined = false ∧
    (joined3 true).inSplit = true ∧ (∀ i < 4, i ≠ (joined3 true).stream → ((joined3 true).ctx.bank i).joined = true) ∧
    (∀ j < 4, ¬ endsAt (joined3 true) j (joined3 true).pc) ∧ ((joined3 true).ctx.bank 0).pc.toNat ≠ 4095 * 32 ∧
    (((joined3 true).modCtx fun x => x.modBank 0 fun b => { b with pc := 0x1FFE0 }).ctx.bank 0).pc.toNat = 4095 * 32 := by
  unfold endsAt; decide

/-- Cores 0 and 1 in one group; core 1 has arrived, or not; this core has not arrived, or has. -/
def group2 (mine theirs : Nat) : State :=
  let r : Region := { x := 0, y := 0, w := 2, h := 1 }
  (cmp0.modStage fun x => { x with group := r, barArrived := mine }).modCore 1 fun k =>
    k.setStage 0 { Stage.probe with group := r, barArrived := theirs }

theorem witness_GroupBarrier : (group2 0 1).hub = false ∧ (group2 0 1).guard g0 = true ∧ (group2 0 1).inSplit = false ∧
    (∀ c ∈ (group2 0 1).stage.group.cores, c ≠ (group2 0 1).focus →
      (group2 0 1).stage.barDone + 1 ≤ (((group2 0 1).core c).stage (group2 0 1).stg).barArrived) ∧
    (1 ∈ (group2 0 0).stage.group.cores ∧ 1 ≠ (group2 0 0).focus ∧
      (((group2 0 0).core 1).stage (group2 0 0).stg).barArrived < (group2 0 0).stage.barDone + 1) ∧
    (group2 0 0).stage.barArrived ≠ 1 ∧ (group2 1 0).stage.barArrived = 1 ∧ (group2 0 0).stage.barFree < (group2 0 0).stage.barDone + 1 ∧
    (let s := (group2 0 0).modStage fun x => { x with barFree := 1 }
     s.stage.barDone + 1 ≤ s.stage.barFree) ∧ split0.inSplit = true ∧ split0.hub = false ∧ split0.guard g0 = true := by decide

/-- Thresholds at 2^31 - 1 and 2^31; a mask of 0; flags 40 and 41 of Table 6.3: the lower ready, none, both, one. -/
theorem witness_CountingFlags : cmp0.guard g0 = true ∧ ((cmp0.setG 1 0x7FFFFFFF).g 1).toNat < 2 ^ 31 ∧
    2 ^ 31 ≤ ((cmp0.setG 1 0x80000000).g 1).toNat ∧ bankOk (flags 8 16 false) 7 ∧ cmp0.g 9 = 0 ∧ (flags 8 16 false).g 9 ≠ 0 ∧
    ((flags 8 16 false).g 9).getLsbD 40 = true ∧ ((flags 8 16 false).me.flag 40).ready = true ∧
    (∀ i < 40, ¬ ((flags 8 16 false).g 9).getLsbD i = true) ∧
    (∀ j < 64, ((flags 8 16 false).g 9).getLsbD j = true → ((flags 8 16 false).me.flag j).ready = true) ∧
    (∀ j < 64, ((flags 7 15 false).g 9).getLsbD j = true → ((flags 7 15 false).me.flag j).ready = false) ∧
    (((flags 8 15 false).g 9).getLsbD 41 = true ∧ ((flags 8 15 false).me.flag 41).ready = false) := by
  unfold bankOk; decide

theorem witness_SysRead : cmp0.guard g0 = true ∧ bankOk cmp0 31 ∧ (commonReg cmp0 (0x01F : BitVec 12).toNat).isSome = true ∧
    cmp0.hub = false ∧ (hubOnlyReg hub0 (0x02B : BitVec 12).toNat).isSome = true ∧ levelOf 0x02B ≤ hub0.me.hub.priv.code ∧
    (hubAt .s).me.hub.priv.code < levelOf 0x028 ∧ (hubAt .u).me.hub.priv.code < levelOf 0x020 ∧
    cmp0.me.arr.any (satPending cmp0.stg) = false ∧
    (State.modMe cmp0 fun k => { k with arr := [.read 0 (.vreg 0) 1 .f8e4 0 true true 0 0] }).me.arr.any (satPending 0) = true := by
  unfold bankOk; decide

/-- Numbers on both sides of the groups of Table 1.4. -/
theorem witness_SysRead_numbers : (∀ n ∈ [0x004, 0x009, 0x013, 0x017, 0x024, 0x034, 0x050, 0xFFF], ¬ anyNumber n ∧ ¬ hubNumber n) ∧
    (∀ n ∈ [0x022, 0x023, 0x028, 0x02B, 0x030, 0x033], hubNumber n) ∧ ∀ n ∈ [0x000, 0x003, 0x008, 0x021, 0x040, 0x04F], anyNumber n := by
  unfold anyNumber hubNumber; decide

theorem witness_SysWrite : hub0.guard g0 = true ∧ hub0.inSplit = false ∧ hub0.hub = true ∧ hub0.me.hub.priv = .m ∧
    ((cmp0.setG 1 5).g 1).toNat % 8 < 6 ∧ 6 ≤ ((cmp0.setG 1 6).g 1).toNat % 8 ∧ ordinary cmp0 ∧ ordinary hub0 ∧
    1 ≤ (hubAt .s).me.hub.priv.code ∧ (hubAt .s).me.hub.priv = .s ∧ ((hub0.setG 1 3).g 1).extractLsb' 0 2 ≠ 2 ∧ cmp0.hub = false ∧
    (hubAt .u).me.hub.priv = .u ∧ (hubAt .s).me.hub.priv ≠ .u ∧ ((hub0.setG 1 2).g 1).extractLsb' 0 2 = 2 ∧ (hubAt .s).me.hub.priv ≠ .m ∧
    (∀ n ∈ [0x000, 0x008, 0x012, 0x014, 0x016, 0x040, 0x04F], fixedNumber n) ∧ split0.inSplit = true ∧ anyNumber 0x04F ∧
    (hub0.modCtx fun x => { x with split := some [] }).inSplit = true ∧ hubNumber 0x033 := by
  unfold ordinary fixedNumber anyNumber hubNumber; decide

/-- The head entry read, begun and ended: a whole tile, its last word, a word before, a tile of no rows, a marker, two entries. -/
theorem witness_QueueReads :
    iqNamed (ports [tile1] 0 0) 3 ∧ anyTileAt (ports [tile1] 0 0) 3 tile1 ∧ badHead tile1.head = false ∧ bankOk (ports [tile1] 0 0) 4 ∧
    mayTake (ports [tile1] 1 0) 3 ∧ hRows tile0.head = 0 ∧ anyTileAt (ports [tile0] 1 0) 3 tile0 ∧ hRows tile1.head ≠ 0 ∧
    badHead tile0.head = false ∧ anyTileAt (ports [tileBad] 0 0) 3 tileBad ∧ badHead tileBad.head = true ∧
    (let s := withPorts (iqWith [tile1] 2 7 1) (oqWith 2 0)
     iqNamed s 3 ∧ anyTileAt s 3 tile1 ∧ mayTake s 3 ∧ popNext s 3 tile1 = 1 + hScb tile1.head + 2 * hRows tile1.head) ∧
    popNext (ports [tile1] 0 0) 3 tile1 ≠ 1 + hScb tile1.head + 2 * hRows tile1.head ∧
    markerAtHead (ports [ce7] 0 0) 3 ce7 ∧ iqNamed (ports [ce7] 0 0) 3 ∧
    ((ports [tile1, ce7] 0 0).iq (ports [tile1, ce7] 0 0).focus 3).q = [tile1, ce7] := by
  unfold iqNamed anyTileAt bankOk mayTake markerAtHead; decide

/-- An input bound to a circuit whose next notice goes back, and one where it pays for a token. -/
theorem witness_QueueReads_circuit : ∀ k ∈ [0, 1],
    let s := (ports [tile1] 0 0).modIq 0 3 fun p => { p with bind := .circ 17, owed := k }
    (s.iq s.focus 3).bind = .circ 17 ∧ (s.iq s.focus 3).owed = k ∧ (s.iq s.focus 3).q = [tile1] := by
  decide

theorem witness_QueuePushes :
    oqNamed (ports [] 0 1) 5 ∧ ((ports [tile1] 1 1).oq 0 5).failed = false ∧ ((ports [tile1] 1 1).oq 0 5).credits ≠ 0 ∧
    ((ports [tile1] 1 1).oq 0 5).cur = none ∧ oqNamed (ports [tile1] 1 1) 5 ∧ iqNamed (ports [tile1] 1 1) 3 ∧
    ((ports [tile1] 1 1).iq 0 3).beat = 0 ∧ tileAt (ports [tile1] 1 1) 3 tile1 ∧
    ((ports [tile1] 1 1).iq 0 3).popped < (ports [tile1] 1 1).stage.rateIn 3 ∧
    ((ports [tile1] 1 1).oq 0 5).pushed < (ports [tile1] 1 1).stage.rateOut 5 ∧ markerAtHead (ports [ce7] 0 0) 3 ce7 := by
  unfold oqNamed iqNamed tileAt markerAtHead; decide

/-- No tile open, and one open; an open tile of one word, of a whole row, of the 256 words of a full tile. -/
def openT (byV : Bool) (n : Nat) : OpenTile := { byV := byV, head := pushHead cmp0 11, words := List.replicate n 5 }
def opening (byV : Bool) (n : Nat) : State := withPorts (iqWith [] 0 0 0) { oqWith 2 1 with cur := some (openT byV n) }

theorem witness_QueuePushes_open : (mayPush (ports [] 0 1) 5 ∧ mayPush (opened (ports [] 0 1) 5 false (pushHead (ports [] 0 1) 11)) 5) ∧
    (((opening false 1).oq (opening false 1).focus 5).cur = some (openT false 1) ∧ oqNamed (opening false 256) 5) ∧
    hScb (openT false 1).head = 0 ∧ ∀ n ∈ [1, 16, 256], ((openT false n).words.length + 15) / 16 < 32 :=
  ⟨⟨by show _ ∧ _ ∧ _; decide, by show _ ∧ _ ∧ _; decide⟩, by unfold oqNamed; decide, by decide, by decide⟩

/-- Another stream's port, one not the stage's, one unbound; an empty port, failed and not; a marker; a tile beyond the rate; no
credit; a failed oq. -/
theorem witness_QueueStops :
    readsIq (.qpop 4 3 true false) = some (3, true, true) ∧ readsIq (.qskip 3 false) = some (3, false, false) ∧
    pushesOq (.qpush 1 5 true false) = some (5, true) ∧ bankOk (ports [] 0 0) 4 ∧ split0.inSplit = true ∧ 3 ≠ 12 + split0.stream ∧
    bankOk split0 0 ∧ (cmp0.iq cmp0.focus 3).owner ≠ some cmp0.stg ∧
    (let s := (ports [] 0 0).modIq 0 3 fun p => { p with bind := .unbound }
     (s.iq s.focus 3).owner = some s.stg ∧ s.stage.rateIn 3 ≠ 0 ∧ (s.iq s.focus 3).bind = .unbound) ∧
    iqNamed (ports [] 0 0) 3 ∧ ((ports [] 0 0).iq 0 3).q = [] ∧ ((ports [] 0 0).iq 0 3).failed = false ∧
    ((State.modIq (ports [] 0 0) 0 3 fun p => { p with failed := true }).iq 0 3).failed = true ∧
    markerAtHead (ports [ce7] 0 0) 3 ce7 ∧ tileAt (ports [tile1] 2 0) 3 tile1 ∧ ((ports [tile1] 2 0).iq 0 3).beat = 0 ∧
    (ports [tile1] 2 0).stage.rateIn 3 ≤ ((ports [tile1] 2 0).iq 0 3).popped ∧ (cmp0.oq cmp0.focus 5).owner ≠ some cmp0.stg ∧
    anyTileAt (ports [tileBad] 0 0) 3 tileBad ∧ badHead tileBad.head = true := by
  unfold bankOk iqNamed markerAtHead tileAt anyTileAt; decide

/-- An unbound oq; no credit; a failed oq; the rate used up; an open tile of each origin, and a full one. -/
theorem witness_QueueStops_push :
    (let s := (ports [] 0 0).modOq 0 5 fun p => { p with bind := .unbound }
     (s.oq s.focus 5).owner = some s.stg ∧ s.stage.rateOut 5 ≠ 0 ∧ (s.oq s.focus 5).bind = .unbound) ∧
    (let s := withPorts (iqWith [] 0 0 0) (oqWith 0 0)
     oqNamed s 5 ∧ (s.oq s.focus 5).cur = none ∧ (s.oq s.focus 5).failed = false ∧ (s.oq s.focus 5).credits = 0) ∧
    ((State.modOq (ports [] 0 0) 0 5 fun p => { p with failed := true }).oq 0 5).failed = true ∧
    (oqNamed (ports [] 0 2) 5 ∧ ((ports [] 0 2).oq 0 5).credits ≠ 0 ∧ ((ports [] 0 2).oq 0 5).cur = none ∧
      (ports [] 0 2).stage.rateOut 5 ≤ ((ports [] 0 2).oq 0 5).pushed) ∧
    (let s := opening true 1
     oqNamed s 5 ∧ (s.oq s.focus 5).failed = false ∧ (s.oq s.focus 5).credits ≠ 0 ∧ (s.oq s.focus 5).cur = some (openT true 1)) ∧
    (openT true 1).byV = true ∧ (openT false 256).byV = false ∧ 256 ≤ (openT false 256).words.length := by
  unfold oqNamed; decide

/-- Copies: another stream's port; a cursor off beat 0 and an open tile; a reserved head; either rate used up. -/
theorem witness_QueueStops_copy :
    (split0.inSplit = true ∧ (3 : BitVec 4).toNat ≠ 12 + split0.stream) ∧
    (let s := withPorts (iqWith [tile1] 2 0 1) (oqWith 2 0)
     iqNamed s 3 ∧ oqNamed s 5 ∧ (s.iq s.focus 3).q ≠ [] ∧ (∀ e ∈ (s.iq s.focus 3).q.head?, e.kind ≠ .token) ∧
     (s.oq s.focus 5).failed = false ∧ (s.oq s.focus 5).credits ≠ 0 ∧ (s.iq s.focus 3).beat ≠ 0) ∧
    (let s := fun e popped pushed => ports [e] popped pushed
     anyTileAt (s tileBad 0 0) 3 tileBad ∧ badHead tileBad.head = true ∧ badHead tile1.head = false ∧
     (s tile1 2 0).stage.rateIn 3 ≤ ((s tile1 2 0).iq 0 3).popped ∧
     ((s tile1 1 2).iq 0 3).popped < (s tile1 1 2).stage.rateIn 3 ∧ (s tile1 1 2).stage.rateOut 5 ≤ ((s tile1 1 2).oq 0 5).pushed) := by
  unfold iqNamed oqNamed anyTileAt; decide

/-- Copies: an input that is not the stage's, an unbound one; an empty one that has failed or not; a token at the head; no credit; a
failed output; p7 instead of a wait. -/
theorem witness_QueueStops_copy_waits :
    (cmp0.iq cmp0.focus 3).owner ≠ some cmp0.stg ∧ iqNamed (ports [tile1] 0 0) 3 ∧ cmp0.inSplit = false ∧
    (let s := (ports [tile1] 0 0).modOq 0 5 fun p => { p with owner := some 1 }
     iqNamed s 3 ∧ (s.oq s.focus 5).owner ≠ some s.stg) ∧
    (let s := (ports [tile1] 0 0).modOq 0 5 fun p => { p with bind := .unbound }
     iqNamed s 3 ∧ (s.oq s.focus 5).owner = some s.stg ∧ s.stage.rateOut 5 ≠ 0 ∧ (s.oq s.focus 5).bind = .unbound) := by
  unfold iqNamed; decide

def tokenE : Entry := { tile1 with kind := .token }
theorem witness_QueueStops_copy_heads :
    (let s := ports [] 0 0
     iqNamed s 3 ∧ oqNamed s 5 ∧ (s.iq s.focus 3).q = [] ∧ (s.iq s.focus 3).failed = false ∧ (s.iq s.focus 3).beat = 0 ∧
     (s.oq s.focus 5).cur = none ∧ (s.oq s.focus 5).credits ≠ 0) ∧
    (((ports [] 0 0).modIq 0 3 fun p => { p with failed := true }).iq 0 3).failed = true ∧
    (let s := ports [tokenE] 0 0
     iqNamed s 3 ∧ oqNamed s 5 ∧ (s.iq s.focus 3).q.head?.map (·.kind) = some .token) ∧
    (let s := withPorts (iqWith [tile1] 0 0 0) (oqWith 0 0)
     iqNamed s 3 ∧ oqNamed s 5 ∧ (s.oq s.focus 5).failed = false ∧ (s.oq s.focus 5).credits = 0) ∧
    (let s := (ports [tile1] 0 0).modOq 0 5 fun p => { p with failed := true }
     iqNamed s 3 ∧ oqNamed s 5 ∧ (s.oq s.focus 5).failed = true) := by
  unfold iqNamed oqNamed; refine ⟨?_, ?_, ?_, ?_, ?_⟩ <;> decide

/-- The result queue of engine 0: no entry of the stage, one not filled, one filled behind another stage's. -/
def rqWith (l : List REntry) : State := (ports [tile1, ce7] 0 0).modMe fun k => { k with rq := [(0, l)] }

theorem witness_QueueStatus : bankOk (ports [tile1, ce7] 0 0) 4 ∧ oqNamed (ports [tile1, ce7] 0 0) 5 ∧
    iqNamed (ports [tile1, ce7] 0 0) 3 ∧ (3 : BitVec 5).toNat < 16 ∧ 16 ≤ (21 : BitVec 5).toNat ∧
    (∀ x ∈ (rqWith [{ id := 0, stage := 1, val := some 5 }]).me.rqOf 0, x.stage ≠ (rqWith []).stg) ∧
    (rqWith [{ id := 0, stage := 1, val := some 5 }, { id := 1, stage := 0, val := none }]).me.rqOf 0 =
      [{ id := 0, stage := 1, val := some 5 }] ++ { id := 1, stage := 0, val := none } :: [] ∧
    (rqWith [{ id := 0, stage := 1, val := some 5 }, { id := 1, stage := 0, val := some 6 }]).me.rqOf 0 =
      [{ id := 0, stage := 1, val := some 5 }] ++ { id := 1, stage := 0, val := some 6 } :: [] ∧ (rqWith []).stg = 0 := by
  unfold bankOk oqNamed iqNamed; decide

/-- Port 3 and port 16 + 5 in g1, 1 or 16 rows in g2, a new tile and an open one. -/
theorem witness_QueueTiles :
    let s := with3 (ports [tile1] 1 1) 3 16 21
    let h : VHead := ⟨15, 0, false⟩
    (s.g 1).toNat % 32 = 3 ∧ tileReady s h 252 ∧ iqNamed s 3 ∧ tileAt s 3 tile1 ∧ mayTake s 3 ∧
    (s.g 3).toNat % 32 = 16 + 5 ∧ oqNamed s 5 ∧ 1 ≤ (s.g 2).toNat % 32 ∧ (s.g 2).toNat % 32 ≤ 16 ∧ (s.oq s.focus 5).failed = false ∧
    (s.oq s.focus 5).cur = none ∧ (s.oq s.focus 5).credits ≠ 0 ∧ (s.oq s.focus 5).pushed < s.stage.rateOut 5 ∧
    (let u := opened s 5 true (pushHead s 3)
     ∀ o ∈ (u.oq u.focus 5).cur, o.byV = true ∧ hFmt o.head = 3 ∧ o.words.length + 16 * 16 ≤ 256) := by
  unfold tileReady iqNamed oqNamed tileAt mayTake; decide

/-- Every cluster, a masked register through k, and one cluster of a split stream. -/
theorem witness_VectorElements :
    (∃ row, elemRow (.vadd ⟨15, 0, false⟩ .f32 .rne 255 0 1) = some row ∧ vReady cmp0 row.h (row.vd :: row.srcs)) ∧
    (Instr.vadd ⟨15, 0, false⟩ .f32 .rne 255 0 1).wf = true ∧ vReady cmp0 ⟨8, 15, true⟩ [31, 0] ∧ vReady split0 ⟨0, 0, false⟩ [255] := by
  refine ⟨⟨_, rfl, ?_⟩, by decide, ?_, ?_⟩ <;> unfold vReady <;> decide

/-- A row whose lanes are all its mask's, one that writes every lane, one with a condition on the lanes of vB, one not in split mode. -/
theorem witness_VectorLanes :
    (∃ row, laneRow (.vperm ⟨1, 0, false⟩ 2 0 1) = some row ∧ vReady cmp0 row.h (row.vd :: row.srcs) ∧ row.ok cmp0) ∧
    (∃ row, laneRow (.vred ⟨15, 0, false⟩ .add .f32 .rne 2 0) = some row ∧ row.all = true ∧ row.ok cmp0) ∧
    (∃ row, laneRow (.vrget ⟨1, 0, false⟩ 2 255 1) = some row ∧ row.ok cmp0) ∧
    (∃ row, laneRow (.vxcl ⟨15, 0, false⟩ 2 0 1) = some row ∧ row.ok cmp0) ∧
    (∃ row, laneRow (.vsel ⟨15, 0, false⟩ 2 0 1 15) = some row ∧ row.ok cmp0) ∧
    (Instr.vperm ⟨1, 0, false⟩ 2 0 1).wf = true := by
  refine ⟨⟨_, rfl, ?_, trivial⟩, ⟨_, rfl, rfl, trivial⟩, ⟨_, rfl, ?_⟩, ⟨_, rfl, ?_⟩, ⟨_, rfl, ?_⟩, by decide⟩
  · unfold vReady; decide
  · show ∀ c ∈ _, _; decide
  · show _ = _; decide
  · show _ = _; decide

theorem witness_VectorMasks :
    (∃ row, maskRow (.mset 15 1 129) = some row ∧ row.cl ≠ 0 ∧ ∀ j ∈ row.md :: row.masks, cmp0.stage.hasMask j.toNat = true) ∧
    (Instr.mset 15 1 129).wf = true ∧ cmp0.hub = false ∧ cmp0.inSplit = false ∧ cmp0.me.vBusy = false ∧
    vReady cmp0 ⟨15, 0, false⟩ [0, 1] ∧ cmp0.stage.hasMask 15 = true :=
  ⟨⟨_, rfl, by decide, by decide⟩, by decide, by decide, by decide, by decide, by unfold vReady; decide, by decide⟩

/-- Lane 127 of cluster 0 alone; vldb and vst of it; a misaligned base. -/
def lane127 : State := (core58.setMask 0 1 (BitVec.ofNat 128 (2 ^ 127)))

theorem witness_VectorMemory :
    (∃ row, addrRow (.vldb ⟨1, 1, false⟩ 2 1) = some row ∧ vReady lane127 row.h (row.vd :: row.srcs) ∧ row.base lane127 ∧
      row.store = false ∧ ∀ x ∈ lane127.accessed row.h, lane127.tr .ld (row.addr lane127 x.1 x.2) 4 4 = .ok 0xE8003000 ∧
        lane127.badIn 0xE8003000 4 = false) ∧
    (∃ row, addrRow (.vst ⟨1, 1, false⟩ 2 1 (-1)) = some row ∧ vReady lane127 row.h (row.vd :: row.srcs) ∧ row.base lane127 ∧
      row.store = true ∧ ∀ x ∈ lane127.accessed row.h, lane127.tr .st (row.addr lane127 x.1 x.2) 4 4 = .ok 0xE800317C) ∧
    (lane127.setG 1 0x500000307F).g 1 + BitVec.ofInt 64 (128 * (-128 : BitVec 8).toInt) = 0x500000307F - 0x4000 ∧
    (0x500000307F - 0x4000 : Word).toNat % 128 ≠ 0 ∧ (0x500000307F - 0x4000 : Word).toNat < 2 ^ 40 := by
  refine ⟨⟨_, rfl, ?_, trivial, rfl, ?_⟩, ⟨_, rfl, ?_, ?_, rfl, ?_⟩, by decide, by decide, by decide⟩
  · unfold vReady; decide
  · decide
  · unfold vReady; decide
  · show _ = _; decide
  · decide

/-- No lane accessed, with a misaligned base beyond the address space. -/
theorem witness_VectorMemory_masked : cmp0.accessed ⟨15, 1, false⟩ = [] ∧
    ((cmp0.setG 1 0x10000000001).g 1 + BitVec.ofInt 64 (128 * (0 : BitVec 8).toInt)).toNat % 128 ≠ 0 := by decide

/-- Lane 127's index at the last register; an index register at 511 and above. -/
theorem witness_VectorIndexed :
    vReady lane127 ⟨1, 1, false⟩ [255, 1, 2] ∧ (∀ c ∈ lane127.clusters 1, ∀ l < 128, active lane127 ⟨1, 1, false⟩ c l = true →
      lane127.vnum false c 255 + (lane (vr lane127 ⟨1, 1, false⟩ c 1) l).toNat / 128 ≤ 255 ∧
      lane127.stage.hasV (lane127.vnum false c 255 + (lane (vr lane127 ⟨1, 1, false⟩ c 1) l).toNat / 128) = true) ∧
    cmp0.hub = false ∧ cmp0.inSplit = false ∧ cmp0.me.vBusy = false ∧
    (∀ c ∈ cmp0.clusters 15, ((cmp0.setG 1 508).g 1).toNat + (1 : BitVec 8).toNat * c ≤ 511) ∧
    ∃ c ∈ cmp0.clusters 15, 511 < ((cmp0.setG 1 509).g 1).toNat + (1 : BitVec 8).toNat * c :=
  ⟨by unfold vReady; decide, by decide, by decide, by decide, by decide, by decide, 3, by decide, by decide⟩

/-- One lane holding one element of 8 bits that is not zero: 128 bytes are just enough; and that object back. -/
def sparse1 : State := ((lane127.setV 0 2 (BitVec.ofNat 4096 (7 <<< 4064))).store 0xE8003000
  ([1, 3, 4, 0, 1, 0, 64, 0, 128, 0, 0, 0, 0, 0, 0, 0, 1] ++ List.replicate 63 0 ++ [7]))

theorem witness_SparseObjects :
    vReady sparse1 ⟨1, 1, false⟩ [2] ∧ (Ty.f8e4 ≠ .f4) ∧ (sparse1.g 1).toNat % 64 = 0 ∧
    (let xs := inputsOf sparse1 ⟨1, 1, false⟩ .f8e4 2
     (16 + (xs.length + 511) / 512 * 64 + (xs.filter fun x => x != 0).length * (Ty.width .f8e4 / 8) + 63) / 64 * 64 = 128) ∧
    (∀ j < 128 / 4, sparse1.tr .st (sparse1.g 1 + BitVec.ofNat 64 (4 * j)) 4 4 = .ok (0xE8003000 + 4 * j)) ∧
    (let count := (sparse1.accessed ⟨1, 1, false⟩).length * (32 / Ty.width .f8e4)
     let bits := value sparse1 0xE8003010 64
     value sparse1 0xE8003000 1 = 1 ∧ value sparse1 0xE8003001 1 = (Ty.code .f8e4).toNat ∧ value sparse1 0xE8003002 2 = count ∧
     value sparse1 0xE8003006 2 = (count + 511) / 512 * 64 ∧ value sparse1 0xE8003004 2 = 1 ∧
     value sparse1 0xE8003008 4 = (16 + 64 + 1 * (Ty.width .f8e4 / 8) + 63) / 64 * 64 ∧ bits < 2 ^ count ∧
     ((List.range count).countP fun j => bits.testBit j) = 1 ∧
     ∀ j < (16 + 64 + 1 * (Ty.width .f8e4 / 8) + 3) / 4, sparse1.tr .ld (sparse1.g 1 + BitVec.ofNat 64 (4 * j)) 4 4 = .ok (0xE8003000 + 4 * j) ∧
       sparse1.badIn (0xE8003000 + 4 * j) 4 = false) := by
  refine ⟨by unfold vReady; decide, by decide, by decide, by decide, by decide, ?_⟩
  decide

/-- Core 58 with the segment of the example, ports 3 and 5, operand registers in its slice, stream port 0 open over 32 KiB. -/
def mx : State := (core58.modMe fun k =>
  { (k.setStage 0 { Stage.probe with inRate := [(3, 2)], outRate := [(5, 2)] }) with
    iq := [(3, { iqWith [mkTile (mkHead 0 3 1 128 0 7 0 0 0) [] [5]] 0 0 0 with owner := some 0, bind := .route 1 0, cap := 2 })]
    oq := [(5, { oqWith 2 1 with owner := some 0, bind := .route 1 0 })]
    bats := [(0, { Bat.reset with fmt := 3 }), (1, { Bat.reset with fmt := 1 })]
    sp := [(0, { StreamPort.reset with isOpen := true, base := 0xE8800000, len := 32768, left := 12288 }),
           (3, { StreamPort.reset with isOpen := true, base := 0xE8800000, len := 576, left := 576 })] }).setG 16 0x5000000000
/-- The same with operations in its array. -/
def mxWith (l : List ArrOp) : State := mx.modMe fun k => { k with arr := l }
def passOp (groups : List Nat) : ArrOp := .pass 1 1 1 false .f8e4 .f8e4 [5] [] 0 groups

/-- Fills from the slice and the stream port; a bank group in use; scales; passes from each source; clears; reads to each
destination; waits. -/
theorem witness_MatrixIssue :
    xReady mx 0 ∧ mx.hub = false ∧ mx.stage.hasBat 1 = true ∧ sliceAt mx .ld 0 12288 0xE8000000 ∧
    groupsFree mx.me.aStreams (groupsOf 0xE8000000 12288) ∧ 0x1D0 ∈ groupsOf 0xE8000000 12288 ∧
    (∃ l ∈ (mxWith [passOp [0x1D0]]).me.aStreams, 0x1D0 ∈ l) ∧ (∀ h ∈ groupsOf 0xE8000000 12288, ¬ h < 0x1D0) ∧
    streamGives mx 0 12288 ∧ groupsFree mx.me.aStreams (mx.me.port 0).groups ∧ mx.me.noSliceWrite = true := by
  unfold xReady sliceAt groupsFree streamGives; decide

/-- A bank group of the operand in use by an A stream, by a fill; a stream port's; operations that a clear, an mstat, an mma and a fill
from the slice wait for. -/
def fillOp : ArrOp := .fillW 1 .t16 [1] false [0x1D0]
theorem witness_MatrixIssue_conflicts :
    groupTaken (mxWith [passOp [0x1D0]]).me.aStreams (groupsOf 0xE8000000 12288) 0x1D0 ∧
    (let s := mxWith [passOp [0x1D1]]
     streamGives s 0 12288 ∧ groupTaken s.me.aStreams (s.me.port 0).groups 0x1D1) ∧
    (groupTaken (mxWith [fillOp]).me.fillStreams (groupsOf 0xE8000000 2048) 0x1D0 ∧ passReady (mxWith [fillOp]) 0 false .f8e4 .f8e4) ∧
    (mxWith [fillOp]).me.batIdle 1 = false ∧ (mxWith [passOp []]).me.tileIdle 1 = false ∧
    (mxWith [.read 0 (.mem 0xE8000000) 16 .f32 0 false false 0 0]).me.noSliceWrite = false ∧
    (mxWith [.read 0 (.vreg 0) 16 .f32 0 false false 0 0]).me.vBusy = true := by
  unfold groupTaken streamGives passReady; decide

theorem witness_MatrixIssue_scales : scaleBlocks (mx.me.bat 0).fmt = some 4 ∧ sliceAt mx .ld 0 (144 * 4) 0xE8000000 ∧
    streamGives mx 3 (144 * 4) ∧ declared mx 127 (144 * 4) ∧ mx.me.vBusy = false ∧
    (mx.me.bat 1).fmt = 1 ∧ scaleBlocks 1 = some 2 ∧ sliceAt mx .ld 0 (144 * 2) 0xE8000000 := by
  unfold sliceAt streamGives declared; decide

theorem witness_MatrixIssue_passes :
    passReady mx 0 false .f8e4 .f8e4 ∧ (16 : BitVec 8).toNat ≤ 16 ∧ sliceAt mx .ld 0 (128 * 16) 0xE8000000 ∧
    groupsFree mx.me.fillStreams (groupsOf 0xE8000000 2048) ∧ streamGives mx 0 (128 * 16) ∧
    groupsFree mx.me.fillStreams (mx.me.port 0).groups ∧ declared mx 127 (128 * 16) ∧
    (∃ e, iqNamed mx 3 ∧ tileAt mx 3 e ∧ mmaHeadFault e .f8e4 1 = none ∧ mayTake mx 3) := by
  refine ⟨?_, by decide, ?_, ?_, ?_, ?_, ?_, mkTile (mkHead 0 3 1 128 0 7 0 0 0) [] [5], ?_⟩
  all_goals first | unfold passReady | unfold sliceAt | unfold groupsFree | unfold streamGives | unfold declared |
    unfold iqNamed tileAt mayTake
  all_goals decide

theorem witness_MatrixIssue_reads :
    mx.stage.hasAcc 15 = true ∧ mx.me.tileIdle 15 = true ∧ (mxWith [passOp []]).me.tileIdle 1 = false ∧
    declared mx 0 (16 * outRow .f32) ∧ sliceAt mx .st 0 (16 * outRow .f32) 0xE8000000 ∧ oqNamed mx 5 ∧ (Ty.width .f8e4 ≤ 8) ∧
    (mx.oq mx.focus 5).cur = none ∧ (mx.oq mx.focus 5).failed = false ∧ (mx.oq mx.focus 5).credits ≠ 0 ∧
    (mx.oq mx.focus 5).pushed < mx.stage.rateOut 5 ∧ mx.me.batIdle 0 = true ∧ mx.me.batIdle 1 = true ∧ mx.stage.hasV 127 = true := by
  unfold declared sliceAt oqNamed; decide

theorem witness_MatrixIssue_row : ∃ row, readRow (.macRdq 0 1 (.oq 5) 16 .f8e4 .rne true) = some row ∧ row.ok :=
  ⟨_, rfl, rfl, fun _ => ⟨⟨_, rfl⟩, fun h => by cases h⟩⟩

/-- Each kind of operation at the head of the array. -/
theorem witness_MatrixCompletes :
    (let o : ArrOp := .fillW 0 .t16 [1, 2] true [0x1D0]
     ((mxWith [o]).core 58).arrReady 0 = some o) ∧ (List.replicate 12288 (0 : Byte)).length = 12288 ∧
    ((mxWith [.fillS 0 4 [] true]).core 58).arrReady 0 = some (.fillS 0 4 [] true) ∧
    (((mxWith [.fillS 0 4 [] true, passOp []]).core 58).arrReady 1 = some (passOp []) ∧ ([5] : List (BitVec 1024)).length ≤ 1) ∧
    ((mxWith [.read 0 (.mem 0xE8000000) 16 .f32 0 false false 0 0]).core 58).arrReady 0 =
      some (.read 0 (.mem 0xE8000000) 16 .f32 0 false false 0 0) ∧
    ((mxWith [.read 0 (.vreg 0) 16 .f32 0 false false 0 0]).core 58).arrReady 0 = some (.read 0 (.vreg 0) 16 .f32 0 false false 0 0) ∧
    ((mxWith [.read 0 (.oq 5) 1 .f8e4 0 true true 0 7]).core 58).arrReady 0 = some (.read 0 (.oq 5) 1 .f8e4 0 true true 0 7) := by
  refine ⟨by decide, List.length_replicate .., ?_⟩
  decide

/-- Quantising reads into memory, plain and with scales. -/
theorem witness_MatrixCompletes_quant : ∀ sc ∈ [false, true],
    ((mxWith [.read 0 (.mem 0xE8000000) 16 .f8e4 0 true sc 0 0]).core 58).arrReady 0 =
      some (.read 0 (.mem 0xE8000000) 16 .f8e4 0 true sc 0 0) ∧ Ty.f8e4.isQuant = true := by
  decide

/-- The largest magnitude 56 over 448 is 0.125, the scale 0x7C0 (Table 7.5); -10.5 and 500 over it. -/
theorem witness_MatrixCompletes_values : scaleMag 0x7C0 = 1 / 8 ∧ (56 : Rat) / qmaxOf .f8e4 ≤ scaleMag 0x7C0 ∧
    ¬ scaleMag 0xFFE < (56 : Rat) / qmaxOf .f8e4 ∧ scaleMag 0x00F = 0 ∧ qmaxCode .i8 true = 0x81 ∧
    scaleNum 0xFFF = .nan ∧ scaleNum 0x7F0 = .fin false 1 := by
  decide +kernel

/-- A core whose clock runs, and one whose quarter is in IDLE. -/
theorem witness_MatrixCompletes_clock : (mxWith []).clocked 58 = true ∧ { (mxWith []) with power := { mx.power with idle := 15 } }.clocked 58 = false := by
  decide

/-- A weight fill of a whole image stands at the head, whatever its bytes. -/
theorem witness_MatrixCompletes_fill (bs : List Byte) :
    ((mxWith [.fillW 0 .t16 bs true [0x1D0]]).core 58).arrReady 0 = some (.fillW 0 .t16 bs true [0x1D0]) := rfl

/-- Core 58 with three registers, among them a length; flag 0 is its stage's. -/
def en (a b c : Word) : State := with3 (core58.modMe fun k => { k with cf := [(0, { Flag.reset with owner := some 0 })] }) a b c
/-- A pattern of two elements of one byte, strides 1 and 2, at 0x50_0000_4000; a list of two frames. -/
def enPat : State := (en 0x5000002000 0x5000001000 0x5000004000).store 0xE8004000 ([1, 0, 0, 0, 1, 0, 0, 0] ++ List.replicate 8 0 ++ [2, 0, 0, 0, 1, 0, 0, 0, 2])
def enList : State := (en 0x5000008000 0x5000010000 0x5000004000).store 0xE8004000 [1, 0, 0, 0, 3, 0, 0, 0x80]
/-- A reply port of core 0 for core 58. -/
def enReply : State := (en 0x30000 0x0000020000000010 1).modIq 0 3 fun p => { p with bind := .reply 58 }

theorem witness_EngineCommands :
    xReady (en 1 2 3) 0 ∧ (en 1 2 3).me.rqFree 0 = true ∧ (32 : BitVec 6).toNat = 32 ∧ flagMine (en 1 2 3) 0 ∧ flagMine hub0 0 ∧
    (let s := en 0x5000002000 0x5000001000 0x1000
     (s.g 3).toNat ≠ 0 ∧ (s.g 3).toNat < 2 ^ 31 ∧ s.tr .engWr (s.g 1) 1 (s.g 3).toNat = .ok 0xE8002000 ∧
     s.tr .engRd (s.g 2) 1 (s.g 3).toNat = .ok 0xE8001000 ∧ disjoint 0xE8002000 0x1000 0xE8001000 0x1000) ∧
    ¬ disjoint 0xE8002000 0x1001 0xE8001000 0x1001 ∧
    enList.pageOperands enList 0 (enList.g 3) 6 2 = .ok (0xE8004000, [1, 0x80000003]) ∧
    enList.frames .engRd .engWr 64 (frameOps (enList.g 2) (enList.g 1) 64 [1, 0x80000003]) = .ok [(0xE8010040, 0xE8008000)] ∧
    enList.frames .engWr .engRd 64 (frameOps (enList.g 1) (enList.g 2) 64 [1, 0x80000003]) = .ok [(0xE8008040, 0xE8010000)] ∧
    (∃ x ∈ frameOps (enList.g 2) (enList.g 3 - 4) 64 [1], enList.meet x.2 64 (enList.g 3) 8 = true) ∧
    (∃ x ∈ frameOps (enList.g 2 - 64) (enList.g 2) 64 [1], ∃ y ∈ frameOps (enList.g 2 - 64) (enList.g 2) 64 [1],
      enList.meet x.1 64 y.2 64 = true) ∧
    disjoint 0xE8008000 64 0xE8004000 8 ∧ disjoint 0xE8008040 64 0xE8010000 64 ∧
    ((en 0 0 0).me.port 3).isOpen = false ∧ (en 0x5000000000 0 0).streamSource 0x5000000000 64 false = .ok 0xE8000000 ∧
    (en 0x5000000000 0 0).streamSource 0x5000000000 2048 true = .ok 0xE8000000 ∧
    (0x0000020000000010 % 2 ^ 40 % 8 = 0 ∧ (en 0x5000000FF8 0x0000020000000010 1).tr .engRw 0x5000000FF8 8 8 = .ok 0xE8000FF8) := by
  unfold xReady flagMine disjoint; decide

/-- A pattern's operands; the edge of a flag's range, with and without a dx.drain before the cf.add. -/
theorem witness_EngineCommands_pattern : ∃ p, enPat.readPattern enPat (enPat.g 3) = .ok p ∧ p.total ≠ 0 ∧
    enPat.tr .engRd (enPat.g 2 + BitVec.ofInt 64 (hull p.elem (p.dims.map fun d => (d.1, d.2.1))).1) 1
      (hull p.elem (p.dims.map fun d => (d.1, d.2.1))).2 = .ok 0xE8001000 ∧
    enPat.tr .engWr (enPat.g 1 + BitVec.ofInt 64 (hull p.elem (p.dims.map fun d => (d.1, d.2.2))).1) 1
      (hull p.elem (p.dims.map fun d => (d.1, d.2.2))).2 = .ok 0xE8002000 :=
  ⟨_, rfl, by decide, by decide, by decide⟩

def drain0 : EngCmd :=
  { id := 4, eng := 0, stage := 0, pc := 0, charge := 0, flag := none, err := false, op := .drain { core := 58, eng := 0, id := 3 } }

theorem witness_EngineCommands_add : flagOver (((en 1 2 3).me.flag 0).value.toInt + (0x7FFFFFFF : BitVec 32).toInt) = false ∧
    flagOver ((({ Flag.reset with value := 1 } : Flag)).value.toInt + (0x7FFFFFFF : BitVec 32).toInt) = true ∧
    ¬ drainBefore (en 1 2 3) ∧ drainBefore ((en 1 2 3).modMe fun k => { k with eng := [drain0] }) := by
  refine ⟨by decide, by decide, ?_, drain0, by decide, by decide, _, rfl⟩
  rintro ⟨e, h, -⟩
  cases h

/-- This package as a target; a reply port bound for this core. -/
theorem witness_EngineCommands_targets : targets (en 0x0000020000000010 0 0) ((en 0x0000020000000010 0 0).g 1) 0 ∧
    (targets enReply (enReply.g 2) 0 ∧ (enReply.g 1).toNat = 0 + 2 ^ 16 * 3 ∧ (enReply.iq 0 3).bind = .reply enReply.focus ∧
      (enReply.g 3).toNat ≠ 0) := by
  refine ⟨⟨by decide, by decide, .inl (by decide)⟩, ⟨by decide, by decide, .inl (by decide)⟩, ?_⟩
  decide

/-- Core 58 with engine commands of stage 0. -/
def engCmd (id : Nat) (flag : Option Nat) (op : EngOp) : EngCmd :=
  { id := id, eng := 0, stage := 0, pc := 0, charge := 0, flag := flag, err := false, op := op }
def enWith (l : List EngCmd) : State := core58.modMe fun k => { k with eng := l }
/-- A remote command to package 5, all answered; one of a reply, all its 2,049 bytes in. -/
def remDone : Remote := { remoteOf .rst 5 0 64 0 with sent := 64 }
def remReply : Remote := { remoteOf .rldIq 5 0 2049 0 with sent := 2049, iqCore := 0, iqPort := 3 }

theorem witness_EngineCompletes_moves :
    ((enWith []).core 58).haltq = [] ∧
    (let e := engCmd 0 (some 3) (.copy 0xE8002000 0xE8001000 0x1000)
     ((enWith [e]).core 58).begun 0 = some e ∧ countFits (enWith [e]) 58 e 0x1000) ∧
    (let e := engCmd 0 (some 3) (.count 0)
     ((enWith [e]).core 58).begun 0 = some e ∧ countFits (enWith [e]) 58 e 0) ∧
    (let e := engCmd 0 (some 3) (.addFlag 0x80000000)
     ((enWith [e]).core 58).begun 0 = some e ∧ countFits (enWith [e]) 58 e (0x80000000 : BitVec 32).toInt) ∧
    (let m := [(0xE8002000, 0xE8001000), (0xE8002000, 0xE8001040)]
     let e := engCmd 0 (some 3) (.frames m 64)
     ((enWith [e]).core 58).begun 0 = some e ∧ countFits (enWith [e]) 58 e (64 * 2)) ∧
    (let e := engCmd 0 none (.pat 0xE8002000 0xE8001000 1 [(2, 1, 2)])
     ((enWith [e]).core 58).begun 0 = some e ∧ countFits (enWith [e]) 58 e 2) := by
  unfold countFits; decide

/-- Two frames into one page, and a pattern of two bytes to one place, whose sources are sound; the pattern with an error in its
sources. -/
theorem witness_EngineCompletes_copies :
    noneReads core58 2 (fun k => ([(0xE8002000, 0xE8001000), (0xE8002000, 0xE8001040)].getD k (0, 0)).1)
      (fun k => ([(0xE8002000, 0xE8001000), (0xE8002000, 0xE8001040)].getD k (0, 0)).2) 64 ∧
    (let into (k : Nat) : Nat := ((0xE8002000 : Int) + (patAt [(2, 1, 0)] k).2).toNat
     let from_ (k : Nat) : Nat := ((0xE8001000 : Int) + (patAt [(2, 1, 0)] k).1).toNat
     noneReads core58 2 into from_ 1 ∧
     spoiltCopy { core58 with eccBad := [0xE8001000] } 2 from_ 1 ∧ noneReads { core58 with eccBad := [0xE8001000] } 2 into from_ 1) := by
  unfold noneReads spoiltCopy disjoint
  refine ⟨⟨by decide, fun h => absurd h (by decide)⟩, ⟨by decide, fun h => absurd h (by decide)⟩, by decide, by decide, fun _ => by decide⟩

theorem witness_EngineCompletes_remote :
    (let e := { engCmd 0 (some 3) (.kret 1 2 0) with eng := 2 }
     ((enWith [e]).core 58).begun 0 = some e ∧ countFits (enWith [e]) 58 e (8 * 2)) ∧
    (let e := { engCmd 0 (some 3) (.remote remDone) with eng := 1 }
     ((enWith [e]).core 58).begun 0 = some e ∧ remDone.pkg ≠ (enWith [e]).pkgNo ∧ remDone.finished = true ∧ remDone.bad = none ∧
     countFits (enWith [e]) 58 e remDone.count ∧ ∀ x ∈ ((enWith [e]).core 58).eng, x.id = e.id → x = e) ∧
    (let e := engCmd 0 none (.drain { core := 58, eng := 0, id := 9 })
     let o := { engCmd 1 none (.count 0) with stage := 1 }
     ((enWith [o, e]).core 58).eng[1]? = some e ∧
     (∀ j < 1, ∀ x ∈ ((enWith [o, e]).core 58).eng[j]?, x.stage ≠ e.stage ∨ 2 ≤ x.eng)) := by
  unfold countFits; decide

/-- A reply whose first tile is in, with a slot of its port free; the last row of a tile. -/
theorem witness_EngineCompletes_reply :
    (let e := { engCmd 0 (some 3) (.remote remReply) with eng := 1 }
     let s := (enWith [e]).modIq 0 3 fun p => { p with cap := 2, q := [tile0] }
     (s.core 58).haltq = [] ∧ (s.core 58).begun 0 = some e ∧ remReply.kind = .rldIq ∧ remReply.pkg ≠ s.pkgNo ∧
     remReply.given < remReply.len ∧ (s.iq 0 3).tokenDue = false ∧ (s.iq 0 3).behind = false ∧
     (s.iq 0 3).q.length + (s.iq 0 3).coming.length + (s.iq 0 3).held.length < (s.iq 0 3).cap ∧
     (∀ p ∈ remReply.pieces, remReply.given ≤ p.1 → p.1 < remReply.given + 2048 → p.1 < remReply.sent ∧ ∀ q ∈ remReply.out, q.off ≠ p.1) ∧
     ∀ x ∈ (s.core 58).eng, x.id = e.id → x = e) ∧ remReply.badOffs = [] ∧ 128 * 15 < min 2048 (remReply.len - remReply.given) := by
  decide

/-- Hub core 0 at a level and of a world, with the segment of the example and three registers; records, an instance. -/
def sys (l : Priv) (world : Bool) (a b c : Word) : State :=
  with3 (hub0.modMe fun k => { k with ctxOwner := 3, ctxWorld := world, seg := [(5, 0x00040000E8000033)], hub := { k.hub with priv := l } }) a b c
def withRecs (s : State) (l : Store Rec) : State := { s with kiln := { s.kiln with recs := l } }
def withInst (s : State) (i : Nat) (x : Inst) : State := { s with kiln := { s.kiln with insts := [(i, x)] } }
def rcd (st : RecState) (world : Bool) : Rec := { Rec.reset with state := st, world := world }
/-- A descriptor of instance 7: prompt of 1 token, 2 new tokens, both addresses in hub memory, world bit set. -/
def descBytes : List Byte :=
  [5, 0, 0, 0, 7, 7, 0x1F, 15, 1, 0, 0, 0, 2, 0, 0, 0] ++ bytesOf 8 (0x870100000 : Word) ++ bytesOf 8 (0x870200000 : Word) ++ List.replicate 32 0
def inst7 : Inst := { Inst.reset with pool := 4, d := 1, placed := true, kcore := 0, kiq := 3 }
/-- Compute core 0 with stage 0 resident for instance 7 of a package. -/
def kstage (pkg : Byte) (x : Inst) : State :=
  withInst (cmp0.modMe fun k => k.modStage 0 fun t => { t with inst := some 7, instPkg := pkg }) 7 x

theorem witness_KilnCommands :
    (let s := sys .s false 0x5000001000 4095 0
     sysCall s 0 ∧ s.tr .engRd (s.g 1) 64 64 = .ok 0xE8001000 ∧ s.tr .engWr (s.g 1) 64 64 = .ok 0xE8001000 ∧
     (s.g 2).toNat = 4095 ∧ s.me.ctxWorld = false ∧ s.me.hub.priv ≠ .m ∧ ((withRecs s [(4095, rcd .active true)]).recd 4095).world = true ∧
     (((withRecs s [(4095, rcd .active false)]).recd 4095).world = true → s.me.ctxWorld = true ∨ s.me.hub.priv = .m)) ∧
    (let s := withRecs (sys .m false 0 1 2) [(0, rcd .pending true), (1, rcd .inflight false), (2, rcd .active true)]
     sysCall s 0 ∧ (s.g 1).toNat = 0 ∧ (s.g 2).toNat = 1 ∧ (s.g 3).toNat = 2 ∧ s.me.hub.priv = .m ∧
     (s.recd 0).state = .pending ∧ (s.recd 1).state = .inflight ∧ (s.recd 2).state = .active ∧ (s.recd 3).state = .free) ∧
    (let s := withRecs (sys .s false 4095 0 0) [(4095, rcd .active true)]
     (s.g 1).toNat = 4095 ∧ (s.recd 4095).world = true ∧ s.me.ctxWorld = false ∧ s.me.hub.priv ≠ .m) ∧
    (let s := withInst (withRecs hub0 [(0, rcd .done false)]) 7 inst7
     descBytes.length = 64 ∧ (s.recd 1).state = .free ∧ (∀ m < 1, (s.recd m).state ≠ .free) ∧
     (s.inst (leAt descBytes 4 1 % 8)).pool ≠ 0 ∧ badDescriptor descBytes = false ∧ (rangeOf (leAt descBytes 16 8)).isHubMem = true ∧
     (rangeOf (leAt descBytes 24 8)).isHubMem = true ∧ ((leAt descBytes 6 1).testBit 4 = true → true = true)) := by
  unfold sysCall sysLevel xReady; decide

/-- Charges 5 and 0x10005 of instance 7 in flight, the older first, with a secure record in each. -/
def inst77 : Inst := { inst7 with charges := [⟨5, 1⟩, ⟨0x10005, 1⟩] }
def abort77 (world : Bool) : State :=
  withInst (withRecs (sys .s world 0x700000005 0 0) [(2, { rcd .inflight true with inst := 7, infchg := 5, inrows := 1 }),
    (9, { rcd .inflight true with inst := 7, infchg := 0x10005, inrows := 1 })]) 7 inst77

theorem witness_KilnCommands_abort :
    ((abort77 true).g 1).toNat % 2 ^ 16 = 5 ∧ ((abort77 true).g 1).toNat / 2 ^ 32 = 7 ∧ sysCall (abort77 true) 0 ∧
    (hub0.inst 7).pool = 0 ∧ ((abort77 true).inst 7).pool ≠ 0 ∧ srising (abort77 true).kiln.recs = true ∧
    (∀ l ∈ [[⟨5, 1⟩], inst77.charges], ∃ ch ∈ l, ∃ i < 10, (abort77 false).recd i = (abort77 true).recd i ∧
      (((abort77 false).recd i).inst = 7 ∧ ((abort77 false).recd i).state = .inflight ∧ ((abort77 false).recd i).infchg = ch.num) ∧
      ((abort77 false).recd i).world = true) ∧ (abort77 false).me.ctxWorld = false ∧ (abort77 true).me.ctxWorld = true := by
  unfold sysCall sysLevel xReady; decide

theorem witness_KilnCommands_names : namesCharge (abort77 true) 7 5 ⟨5, 1⟩ ∧ ∀ ch, ¬ namesCharge (abort77 true) 7 0xFFFF ch := by
  have h : ((abort77 true).inst 7).charges = [⟨5, 1⟩, ⟨0x10005, 1⟩] := by decide
  refine ⟨⟨[], [⟨0x10005, 1⟩], h, by decide, by simp⟩, ?_⟩
  rintro ch ⟨pre, post, hc, hn, -⟩
  have hm : ch ∈ ((abort77 true).inst 7).charges := by rw [hc]; simp
  rw [h] at hm
  revert hn
  fin_cases hm <;> decide

theorem witness_KilnCommands_core :
    xReady cmp0 0 ∧ cmp0.hub = false ∧ cmp0.me.namesInst 7 = none ∧ (cmp0.me.rqOf 2).length < 16 ∧
    (kstage 5 inst7).me.namesInst 7 = some ((kstage 5 inst7).me.stage 0) ∧ ((kstage 5 inst7).me.stage 0).instPkg ≠ (kstage 5 inst7).pkgNo ∧
    ((kstage 5 inst7).me.rqOf 2).length < 16 ∧
    (let s := kstage 0 inst7
     s.me.namesInst 7 = some (s.me.stage 0) ∧ (s.me.stage 0).instPkg = s.pkgNo ∧ (s.inst 7).placed = true ∧ (s.inst 7).kcore = s.focus ∧
     (s.inst 7).kiq ≠ (4 : BitVec 4).toNat ∧ (s.inst 7).kiq = (3 : BitVec 4).toNat ∧ (s.me.rqOf 2).length < 16) ∧
    ((kstage 0 Inst.reset).inst 7).placed = false ∧
    16 ≤ (((kstage 0 inst7).modMe fun k => { k with rq := [(2, List.replicate 16 { id := 0, stage := 0, val := none })] }).me.rqOf 2).length := by
  unfold xReady; decide

/-- The longest list and the shortest, for this package's Kiln and another's; counts out of range. -/
theorem witness_KilnRet :
    (let s := with3 (core58.modMe fun k => { k with cf := [(63, { Flag.reset with owner := some 0 })] }) 0x5000001000 256 0
     xReady s 0 ∧ flagMine s 63 ∧ (s.g 2).toNat = 256 ∧ s.tr .engRd (s.g 1) 8 (8 * 256) = .ok 0xE8001000 ∧ s.kilnPkg 7 = s.pkgNo) ∧
    (let s := with3 core58 0x5000001000 1 0
     s.tr .engRd (s.g 1) 8 (8 * 1) = .ok 0xE8001000) ∧
    ((with3 core58 0 0 257).g 2).toNat = 0 ∧ 256 < ((with3 core58 0 0 257).g 3).toNat := by
  unfold xReady flagMine; decide

/-- Each command at the head of the Kiln's queue; an entry that matches no record and one that matches; deliveries; aborts. -/
theorem witness_KilnEvents :
    (hub0.inst 6).pool = 0 ∧ ((withInst hub0 7 inst7).inst 7).pool ≠ 0 ∧
    (let s := withInst hub0 7 { inst7 with charges := [⟨5, 1⟩] }
     (s.inst 7).d ≤ (s.inst 7).charges.length) ∧
    ((withInst hub0 7 inst7).inst 7).charges.length < ((withInst hub0 7 inst7).inst 7).d ∧ srising hub0.kiln.recs = true ∧
    (let s := withInst hub0 7 { inst7 with out := [ce7, tile1], credits := 1 }
     (s.inst (7 : BitVec 3).toNat).out = ce7 :: [tile1] ∧ (s.inst (7 : BitVec 3).toNat).credits ≠ 0) := by
  decide

/-- A token that is due at a Kiln port: no charge open; a charge open that an entry closes, and one that an entry does not. -/
def dueAt (coming : List Entry) : State :=
  (withInst hub0 7 { inst7 with out := [ce7], credits := 2 }).modIq 0 3 fun p => { p with bind := .kiln 7, tokenDue := true, coming := coming }
theorem witness_KilnEvents_token :
    (∀ l ∈ [[], [tile1]], ((dueAt l).iq 0 3).bind = .kiln (7 : BitVec 3).toNat ∧ ((dueAt l).iq 0 3).tokenDue = true ∧
      (dueAt l).openTail ((dueAt l).iq 0 3) = false ∧ 2 ≤ ((dueAt l).inst 7).credits) ∧
    (let s := dueAt [mkMarker 9 7 0]
     s.openTail (s.iq 0 3) = true ∧ s.closes (s.iq 0 3).bind ce7 = true ∧ s.closes (s.iq 0 3).bind tile1 = false) := by
  decide +kernel

/-- A queue with the one kind behind the other, and each form of return at the head of what a return waits for. -/
theorem witness_KilnEvents_queue (rq : RqRef) : (∀ x ∈ [KilnCmd.ret 7 5 (0, 0)], ¬ aStep x) ∧ (∀ x ∈ [KilnCmd.step 7 rq], aStep x) ∧
    srising ([(3, rcd .done false)] : Store Rec) = true ∧
    ∀ j, ((withRecs hub0 [(3, rcd .done false)]).recd j).state ≠ .pending ∧ ((withRecs hub0 [(3, rcd .done false)]).recd j).state ≠ .active := by
  refine ⟨?_, ?_, by decide, fun j => ?_⟩
  · rintro x h ⟨i, q, rfl⟩
    revert h; simp
  · intro x h
    exact ⟨7, rq, by simpa using h⟩
  · by_cases h : 3 = j <;> simp [State.recd, withRecs, sget, h, rcd, Rec.reset]

/-- A prompt that fits an empty machine; a decode row of a record with a page and a slot. -/
def fresh : Rec := { rcd .pending false with inst := 7, plen := 100 }
def going : Rec := { rcd .active false with inst := 7, plen := 63, gen := 1, position := 63, pfdone := true, slot := some 4095, pages := [0] }
def inst9 : Inst := { inst7 with chunk := 64, rmax := 128, slots := 4096, maxpos := 4096 }

theorem witness_KilnEvents_forms :
    (fresh.inst = 7 ∧ fresh.state = .pending ∧ fresh.pages = [] ∧ fresh.slot = none ∧ fresh.position = 0 ∧ fresh.pcons = 0 ∧
      fresh.pfdone = false ∧ 1 ≤ inst9.slots ∧ fresh.plen + fresh.gen ≤ inst9.maxpos ∧
      1 ≤ min (min (min inst9.chunk (fresh.plen + fresh.gen)) inst9.rmax) (64 * inst9.pool)) ∧
    (going.inst = 7 ∧ going.state = .active ∧ going.pfdone = true ∧ going.slot = some 4095 ∧ going.position < 64 * going.pages.length ∧
      1 ≤ inst9.rmax) := by decide

def prefill : Rec :=
  { rcd .active false with inst := 7, plen := 100, pcons := 64, position := 64, pages := [1], slot := some 0, seq := 4 }
/-- Two continuing records, one waiting, one too long; an instance with three pages, and with as many free. -/
def many : State := withInst (withRecs hub0 [(1, { going with seq := 5 }), (2, prefill), (3, fresh), (4, { fresh with plen := 5000, seq := 9 })])
  7 { inst9 with pool := 3 }

theorem witness_KilnSelection : srising many.kiln.recs = true ∧ (0 ≤ (many.inst 7).rmax) ∧
    (wantRows (many.inst 7) (many.recd 2) ≠ 0 ∧ 0 + 1 < (many.inst 7).rmax) ∧ many.continuing 7 = [1, 2] ∧
    (isOf many 7 .pending 4 ∧ (many.inst 7).maxpos < (many.recd 4).plen + (many.recd 4).gen) ∧
    (let r := many.recd 3
     r.inst = 7 ∧ many.freeSlot 7 = some 1 ∧ many.freePages 7 = [2] ∧ 64 ≤ min (min (many.inst 7).chunk (r.plen + r.gen - r.pcons)) ((many.inst 7).rmax - 37) ∧
     needs r 64 ≤ 1 ∧ 64 = min (min (many.inst 7).chunk (r.plen + r.gen - r.pcons)) ((many.inst 7).rmax - 37) ∧ 1 < needs r 65) ∧
    ((many.inst 7).pool ≠ 0 ∧ (many.inst 7).charges.length < (many.inst 7).d) := by
  unfold isOf; decide

/-- Page 0 alone in the pool: the later of the two records is evicted for it; no page is left to give. -/
theorem witness_KilnSelection_evicts :
    (let s := withInst many 7 { inst9 with pool := 2, chunk := 4096, rmax := 4096 }
     (s.makeRoom 7 [⟨2, 36, false⟩] [] 3).2.2 = 1 :: [] ∧ (s.freePages 7).length < needs (s.recd 3) 1) := by
  decide

theorem witness_KilnEvents_emit (u v : KUnit) (h : u.rcd ≠ v.rcd) : [u, v].Pairwise fun x y => x.rcd ≠ y.rcd := by simpa using h

/-- Record 3 in flight with k rows of charge 0xFFFF in slot 4,095 of instance 7, and the return that names it. -/
def returning (k : Nat) (cn ev : Bool) (gen : Nat) : State :=
  withInst (withRecs hub0 [(3, { rcd .inflight false with
    slot := some 4095, infchg := 0xFFFF, inrows := k, inst := 7, cnmark := cn, evmark := ev, plen := 4, gen := gen, position := 4
    maxnew := 1, stopt := 0 })]) 7 { inst9 with charges := [⟨0xFFFF, k⟩], stop := [[9, 0xFFFFFFFF]] }
def ret9 : Word := 0xFFFF0FFF00000009
def ret8 : Word := 0xFFFF0FFF00000008
def retBad : Word := 0xFFFF1FFF00000009

theorem witness_KilnEvents_return :
    (let s := returning 2 false true 0
     srising s.kiln.recs = true ∧ (s.recd 3).inst = 7 ∧ (s.recd 3).state = .inflight ∧
     (s.recd 3).slot = some (ret9.toNat / 2 ^ 32 % 2 ^ 12) ∧ (s.recd 3).infchg.toNat % 2 ^ 16 = ret9.toNat / 2 ^ 48 ∧
     (s.recd 3).slot = some (retBad.toNat / 2 ^ 32 % 2 ^ 12) ∧ (s.recd 3).infchg.toNat % 2 ^ 16 = retBad.toNat / 2 ^ 48 ∧
     (∀ x < 3, (s.recd x).state ≠ .inflight) ∧ 2 ≤ (s.recd 3).inrows) ∧ ((returning 1 false true 0).recd 3).inrows = 1 ∧
    ret9.getLsbD 44 = false ∧ retBad.getLsbD 44 = true ∧ ((returning 1 true false 0).recd 3).cnmark = true := by
  decide

theorem witness_KilnEvents_ends :
    (((returning 1 false false 0).recd 3).position = ((returning 1 false false 0).recd 3).plen + ((returning 1 false false 0).recd 3).gen ∧
      ((returning 1 false false 1).recd 3).position ≠ ((returning 1 false false 1).recd 3).plen + ((returning 1 false false 1).recd 3).gen) ∧
    (((returning 1 false false 0).inst 7).stop.getD 0 []) = [9, 0xFFFFFFFF] ∧
    ((9 : BitVec 32) ≠ 0xFFFFFFFF ∧ (9 : BitVec 32).toNat = ret9.toNat % 2 ^ 32 ∧ (9 : BitVec 32).toNat ≠ ret8.toNat % 2 ^ 32) ∧
    ((returning 1 false false 0).inst 7).charges = [] ++ ⟨0xFFFF, 1⟩ :: [] := by
  decide

theorem witness_KilnEvents_none : ∀ j, ¬ ((hub0.recd j).state = .inflight) := fun _ h => by cases h

theorem witness_KilnEvents_aborts : namesCharge (abort77 true) 7 (5 : BitVec 16).toNat ⟨5, 1⟩ ∧
    ∀ ch, ¬ namesCharge (abort77 true) 7 (0xFFFF : BitVec 16).toNat ch := witness_KilnCommands_names

/-- A core section of one bundle for stage 0, without ports, data or descriptors; its CRC-32C stands in bytes 60 to 63. -/
def sect : List Byte :=
  let h : List Byte := [0x4A, 0x51, 0x53, 0x53, 0, 0, 1, 0] ++ List.replicate 12 0 ++ [255, 0] ++ List.replicate 8 0 ++ [0xFF, 0xFF] ++
    List.replicate 28 0
  h ++ bytesOf 4 (crc32c (h ++ List.replicate 100 0)) ++ List.replicate 96 0
def shadow0 : Shadow := { shadowReset with stage := { Stage.reset with state := .resident } }
/-- Compute cores with a shadow of stage 0. -/
def withShadow (s : State) (l : List Nat) : State := l.foldl (fun t c => t.modCore c fun k => { k with shadow := [(0, shadow0)] }) s
def withShadow2 (s : State) : State := s.modCore 0 fun k => { k with shadow := [(0, { shadow0 with world := true })] }
def region1 : Region := { x := 0, y := 0, w := 1, h := 1 }
/-- A window. -/
def win (st : WinState) (world : Bool) (probes : List Nat) : Window :=
  { Window.reset with state := st, world := world, owner := 3, base := 0x100, size := 1, rd := true, wr := true, at_ := true, probes := probes }
/-- A secure circuit to iq 3 of core 0 on link 1, index 1, protected by key slot 0; the link is UP and the key fresh. -/
def bindBytes : List Byte := bytesOf 8 (0x110000A001 : Word) ++ bytesOf 8 (0x01000001 : Word) ++ bytesOf 8 (0x30000 : Word) ++ List.replicate 8 0
def canBind (l : Priv) (bs : List Byte) : State :=
  let s := (sys l true 0x5000001000 0 0).store 0xE8001000 bs
  { s with links := [(1, { Link.reset with state := .up })], boot := { s.boot with keyLoaded := [(0, true)] } }
def linked1 : State := { hub0 with links := [(1, { Link.reset with state := .up })] }
def tok0 (l : List Nat) : Token :=
  { region := { x := 0, y := 0, w := 2, h := 1 }, rq := ⟨512, 2, 0⟩, stages := [(0, 0), (1, 0)], todo := l, started := [], routes := [] }

/-- Loads accepted and refused; selectors and regions at their edges; a busy core; cores with a shadow and without. -/
theorem witness_ConfigCommands :
    (let s := with3 (sys .s true 0 0x5000001000 160) 0 0x5000001000 160
     sysCall s 0 ∧ s.tokens = [] ∧ s.cfgWait = [] ∧ selects (s.g 1) 0 0 ∧ (s.g 3).toNat ≠ 0 ∧
     s.tr .engRd (s.g 2) 1 (s.g 3).toNat = .ok 0xE8001000 ∧ s.loadRefusal 0 0 sect true = none ∧ sect.length = 160 ∧
     s.loadRefusal 0 1 sect true = some 3 ∧ s.loadRefusal 0 0 (sect.drop 1) true = some 8 ∧ s.loadRefusal 519 7 sect true = some 3) ∧
    selects ((sys .s true (287 + 2 ^ 10 * 7) 0 0).g 1) 287 7 ∧ selects ((sys .s true (0x207 + 2 ^ 10 * 7) 0 0).g 1) 519 7 ∧
    names ((sys .s true 0x12100000 0 0).g 1) { x := 0, y := 0, w := 16, h := 18 } ∧
    names ((sys .s true 0x0101110F 0 0).g 1) { x := 15, y := 17, w := 1, h := 1 } := by
  unfold sysCall sysLevel xReady selects names; decide +kernel

/-- A region with a secure core, without one, with a busy core, with shadows and without; who may act. -/
theorem witness_ConfigCommands_regions :
    secureRegion (cmp0.modMe fun k => { k with ctxWorld := true }) region1 ∧ ¬ secureRegion (withShadow hub0 [0]) region1 ∧
    secureRegion (withShadow2 hub0) region1 ∧ ¬ mayAct (sys .s false 0 0 0) ∧ mayAct (sys .m false 0 0 0) ∧
    (∃ c ∈ region1.cores, (cmp0.core c).cfgBusy = true) ∧ (∀ c ∈ region1.cores, ((withShadow hub0 [0]).core c).cfgBusy = false) ∧
    (region1.cores.filter fun c => !(hub0.core c).shadow.isEmpty) = [] ∧
    (region1.cores.filter fun c => !((withShadow hub0 [0]).core c).shadow.isEmpty) ≠ [] := by
  unfold secureRegion secureCore mayAct; decide +kernel

/-- Routes: bound already, not bound; places of the store and bytes of data within and outside what a shadow installs. -/
theorem witness_ConfigCommands_install : routeExt 0 = false ∧
    ¬ ((hub0.oq 0 (routeOq 0)).bind = .route (routeTo 0 0) (routeIq 0) ∧ (hub0.iq (routeTo 0 0) (routeIq 0)).bind = .route 0 (routeOq 0)) ∧
    (let s := hub0.connect 0 0
     (s.oq 0 (routeOq 0)).bind = .route (routeTo 0 0) (routeIq 0) ∧ (s.iq (routeTo 0 0) (routeIq 0)).bind = .route 0 (routeOq 0)) ∧
    (let x := { shadow0 with bundles := [5], data := [1, 2], bssLen := 0, stage := { shadow0.stage with cbase := 4095, inRate := [(15, 2)] } }
     0 < x.bundles.length ∧ 4094 < x.stage.cbase ∧ 15 ∈ x.stage.ins ∧ 1 < x.data.length) := by
  decide +kernel

/-- Segments and windows at their edges; revokes refused and begun. -/
theorem witness_SegmentsAndWindows :
    (segOk 0x00040000E8000033 = true ∧ segWorld 0x00040000E8000033 = false) ∧ (segOk 0x00040000E800003B = true ∧ segWorld 0x00040000E800003B = true) ∧
    segOk 0x00040000E8000133 = false ∧ sysLevel (sys .s true 0 0 0) 0 ∧ selects ((sys .s true 287 0 0).g 1) 287 0 ∧
    (secureCore hub0 512 ∧ ¬ secureCore hub0 0 ∧ ¬ mayAct (sys .s false 0 0 0)) ∧
    (let s := sys .s true 0x80 0 0
     ({ s with wins := [(255, win .isOpen false [])] }).win 255 ≠ Window.reset ∧ (s.win 0).state = .free) ∧
    (let s := sys .s true (0x47FFF * 65536) 65536 0xFF
     (s.g 1).toNat = 0x47FFF * 65536 ∧ (s.g 2).toNat = 1 * 65536 ∧ (s.g 3).toNat = 0xFF ∧ (0xFF < 256) ∧ mayAct s ∧
     (0x47FFF + 1) * 65536 ≤ 0x480000000) ∧
    (0x800000000 ≤ 0x86FFF * 65536 ∧ (0x86FFF + 1) * 65536 ≤ 0x870000000) ∧ (0x87FFF + 1) * 65536 ≤ 0x880000000 ∧
    (let s := fun st world c => { (sys .s c 0 0 0) with wins := [(255, win st world [])] }
     sysCall (s .revoking true false) 0 ∧ ((s .isOpen true false).win 255).state ≠ .free ∧ ((s .isOpen true false).win 255).world = true ∧
     (s .isOpen true false).me.ctxWorld = false ∧ ((s .revoking false false).win 255).state = .revoking ∧
     ((s .isOpen true true).win 255).state = .isOpen ∧ (s .isOpen true true).me.ctxWorld = true) := by
  unfold sysCall sysLevel xReady selects secureCore mayAct; decide +kernel

/-- Binds accepted and refused; a revoke that ends; a token at its stages. -/
theorem witness_Binds :
    (let s := fun l => canBind l bindBytes
     let x := circOf bindBytes
     sysCall (s .m) 0 ∧ (s .m).tr .engRd ((s .m).g 1) 1 32 = .ok 0xE8001000 ∧ (s .m).bytes 0xE8001000 32 = bindBytes ∧
     (s .m).bindRefusal x 0 false = none ∧ (s .s).bindRefusal x 0 true = some 4 ∧ (s .s).bindRefusal x 1 true = some 3 ∧
     ((s .m).circ x.id).state = .free ∧ (((s .m).installCirc x).circ x.id).state ≠ .free ∧
     (((s .m).installCirc x).circ x.id).tag = x.tag ∧ (((s .m).installCirc x).circ x.id).world = true) := by
  unfold sysCall sysLevel xReady; decide +kernel

/-- Circuit 17 of link 1 as bindBytes gives it, with its port as given, and kind and ends as given. -/
def boundAs (ends port : Nat) : Circ :=
  { Circ.reset with state := .isOpen, w0 := BitVec.ofNat 64 (1 + 2 ^ 7 * ends + 2 ^ 13), w1 := 0x01000001, w2 := BitVec.ofNat 64 (port * 2 ^ 16 + 2 ^ 28) }

theorem witness_Installs : (∀ e ∈ [0, 1, 2, 3], (boundAs e 3).ends ≠ 4) ∧
    ((boundAs 0 15).ends = 0 ∧ (boundAs 0 15).port < 16 ∧ (hub0.iq (boundAs 0 15).core 15).bind = .unbound) ∧
    (16 ≤ (boundAs 0 16).port ∧ (hub0.oq (boundAs 0 16).core 0).bind = .unbound) ∧ ((boundAs 1 0).ends = 1 ∧ (boundAs 1 0).rv = true) ∧
    ((hub0.iq (boundAs 1 0).core (boundAs 1 0).riq).bind = .unbound ∧
      ((hub0.modIq (boundAs 1 0).core (boundAs 1 0).riq fun p => { p with bind := .reply 0 }).iq (boundAs 1 0).core (boundAs 1 0).riq).bind ≠
        .unbound) ∧
    (∀ port ∈ [15, 16], let s := (linked1.installCirc (boundAs 0 port))
      (s.circ 17).id = 17 ∧ (s.circ 17).ends ≠ 4 ∧ (s.circ 17).mode ≠ 0 ∧ (s.circ 17).bondn ≤ 1 ∧ (s.link' (s.circ 17).link).state ≠ .down ∧
      (s.circ 17).port = port) ∧ ((linked1.installCirc (boundAs 0 15)).iq 0 15).bind = .circ 17 ∧
    ((linked1.installCirc (boundAs 0 16)).oq 0 0).bind = .circ 17 := by
  decide +kernel

theorem witness_Tokens :
    (let s := { hub0 with wins := [(255, win .revoking true [])] }
     (s.win 255).state = .revoking ∧ (s.win 255).queued = 0 ∧ (s.win 255).probes = [] ∧ (s.win 255).rq = none) ∧
    (let s := { (withShadow hub0 [0, 1]) with tokens := [tok0 [0, 1]] }
     (s.tokens.find? fun x => x.todo.contains 1) = some (tok0 [0, 1]) ∧ s.replaced (tok0 [0, 1]).region 1 0 = true ∧
     s.clocked 1 = true ∧ { s with power := { s.power with idle := 15 } }.clocked 1 = false ∧
     ((s.core 1).stage 0).passed = false ∧ ((s.core 1).stage 0).state ≠ .firing ∧ ((s.core 1).stage 0).state ≠ .halted ∧
     (∀ n ∈ ((s.core 1).stage 0).ins, s.placeToken 1 n = none ∧ (s.iq 1 n).headToken = true) ∧
     (∀ n ∈ s.innerOuts (tok0 [0, 1]).region 1 0, 0 < (s.oq 1 n).credits)) ∧
    (let s := { (withShadow hub0 [0, 1]).modCore 1 fun k => k.modStage 0 fun t => { t with passed := true } with tokens := [tok0 [1]] }
     (∀ e ∈ (s.core 1).shadow, ((s.core 1).stage e.1).passed = true) ∧ (s.core 1).quiet = true ∧ (tok0 [1]).todo.erase 1 = [] ∧
     (tok0 [0, 1]).todo.erase 1 ≠ [] ∧ s.cfgWait = []) := by
  decide +kernel

/-- A notice of a record's end for owner 3 of the non-secure world, one for the secure world. -/
def note3 : Notice := { w0 := 0x0302, w1 := 4095, w2 := 0, w3 := 0 }
def noteM : Notice := { w0 := 0x1301, w1 := 0, w2 := 0, w3 := 0 }
/-- A non-secure caller at S that names core 58 with stage 7. -/
def dbg (f : Core → Core) : State := (sys .s false (58 + 2 ^ 10 * 7) 0 0).modCore 58 fun k => f { k with ctxWorld := false }
def haltedBy (cause : BitVec 8) (k : Core) : Core := k.setStage 7 { Stage.reset with state := .halted, haltCause := cause }

theorem witness_SystemCommands :
    hub0.me.haltq = [] ∧ (∀ x ∈ hub0.me.rqOf 2, x.id ≠ hub0.me.nextId) ∧
    (let s := { (sys .s false 0x5000001000 1023 0) with notices := [noteM, note3] }
     sysCall s 0 ∧ s.tr .engWr (s.g 1) 1 32 = .ok 0xE8001000 ∧ s.notices = [noteM] ++ note3 :: [] ∧
     (∀ m ∈ [noteM], s.me.mayTake m = false) ∧ s.me.mayTake note3 = true ∧ note3.w0.toNat % 256 = 2 ∧
     (∀ n ∈ (sys .s false 0 0 0).notices, (sys .s false 0 0 0).me.mayTake n = false) ∧
     value (s.store (0x870000000 + 32 * 1023) [0, 0, 1]) (0x870000000 + 32 * ((s.g 2).toNat % 1024)) 8 / 2 ^ 16 % 2 = 1 ∧
     value s (0x870000000 + 32 * ((s.g 2).toNat % 1024)) 8 / 2 ^ 16 % 2 = 0 ∧ s.me.ctxWorld = false) ∧
    sysCall (dbg id) 0 ∧ selects ((dbg id).g 1) 58 7 ∧ mayDebug (dbg id) 58 ∧ ((dbg id).core 58).halted = false ∧
    ((dbg id).core 58).hub.stopped = false ∧ ((dbg fun k => { k with halted := true }).core 58).halted = true ∧
    (((dbg id).core 58).stage 7).state ≠ .halted ∧ (((dbg (haltedBy 0x10)).core 58).stage 7).haltCause = 0x10 ∧
    (((dbg (haltedBy 5)).core 58).stage 7).state = .halted ∧ (((dbg (haltedBy 5)).core 58).stage 7).haltCause ≠ 0x10 ∧
    ((dbg (haltedBy 5)).core 58).firing = none ∧ ((dbg (haltedBy 5)).core 58).resuming = [] ∧
    ((dbg fun k => { haltedBy 5 k with firing := some 0 }).core 58).firing ≠ none ∧
    ¬ mayDebug (sys .s false 57 0 0) 57 ∧ selects ((sys .s false 57 0 0).g 1) 57 0 ∧ ((haltedBy 5 Core.reset).ctx 7).split = none ∧
    (let s := dbg fun k => { haltedBy 5 k with resuming := [(7, true, ⟨512, 2, 0⟩)] }
     (s.core 58).resuming = (7, true, ⟨512, 2, 0⟩) :: [] ∧ ((s.core 58).stage 7).state = .halted ∧ (s.core 58).firing = none) := by
  unfold sysCall sysLevel xReady selects mayDebug; decide +kernel

/-- A core with a .step pending, and one without; a stage that has halted in split mode, at its own bundle and elsewhere. -/
def haltedSplit (pc : Addr) : Core :=
  ((haltedBy 5 Core.reset).modCtx 7 fun x =>
    ({ x with split := some (x.splitBanks (splitStarts 32 0) 0) } : Ctx).modBank 2 fun b => { b with pc := pc }).modStage 7 fun t =>
    { t with haltStream := 2, haltPc := 32 }
theorem witness_SystemCommands_steps :
    ((dbg id).core 58).stepOne = none ∧ ((dbg fun k => { k with stepOne := some ⟨512, 2, 0⟩ }).core 58).stepOne = some ⟨512, 2, 0⟩ ∧
    ((haltedSplit 32).ctx 7).split ≠ none ∧ ((haltedSplit 32).stage 7).haltPc = 32 ∧
    (((haltedSplit 32).ctx 7).bank ((haltedSplit 32).stage 7).haltStream).pc = 32 ∧
    (((haltedSplit 0).ctx 7).bank ((haltedSplit 0).stage 7).haltStream).pc = 0 ∧
    ((haltedBy 5 Core.reset).stage 7).haltCause ≠ 0x0E ∧ ((haltedBy 0x0E Core.reset).stage 7).haltCause = 0x0E := by
  decide

/-- Core 0 between firings: stage 0 ELIGIBLE with iq 3 and oq 5 at rate 2. -/
def elig (l : List Entry) (credits : Nat) : State := (withPorts (iqWith l 0 0 0) (oqWith credits 0)).modMe fun k =>
  { (k.modStage 0 fun t => { t with state := .eligible }) with firing := none }
/-- Its ports bound to an OPEN circuit on an UP link. -/
def circPorts (i : IqPort) (o : OqPort) : State :=
  { (cmp0.modMe fun k => { k with iq := [(3, { i with bind := .circ 17 })], oq := [(5, { o with bind := .circ 17 })] }) with
    circs := [(17, { Circ.reset with state := .isOpen, w0 := 1, w1 := 0x01000001 })], links := [(1, { Link.reset with state := .up })] }
/-- Inputs 3 and 4, a CE at one, a tile at the other. -/
def clash0 : State := (elig [ce7] 2).modMe fun k =>
  { (k.modStage 0 fun t => { t with inRate := [(3, 2), (4, 1)] }) with iq := k.iq ++ [(4, iqWith [tile1] 0 0 0)] }
/-- An abort CE of charge 7. -/
def abort7 : Entry := mkMarker 10 7 0x80000000

theorem witness_Arrivals :
    (let s := State.modIq cmp0 0 3 fun p => { p with coming := [tile1] }
     (s.iq 0 3).tokenDue = false ∧ (s.iq 0 3).behind = false ∧ (s.iq 0 3).coming = tile1 :: []) ∧
    (let s := circPorts { IqPort.reset with cap := 1 } OqPort.reset
     (s.iq 0 3).bind = .circ 17 ∧ s.live 17 (s.nextFlits 17 1 ce7.beats.length) = true ∧ comes s 17 (s.nextFlits 17 5 1) none ∧ entryWhole tile1 = true ∧ entryWhole ce7 = true ∧
     s.runFits 17 (s.nextFlits 17 1 ce7.beats.length) (entryFlits ce7) = true ∧
     (∀ r, ((s.nextFlits 17 1 ce7.beats.length).take 1).getLast? = some r → r.2 = none) ∧
     s.runFits 17 (s.nextFlits 17 5 1) [(BitVec.ofNat 512 1, 0)] = true ∧
     (s.iq 0 3).q.length < (s.iq 0 3).cap ∧ (s.iq 0 3).tokenDue = false ∧ (s.oq 0 5).bind = .circ 17) ∧
    ({ (circPorts IqPort.reset OqPort.reset) with circs := [(17, { Circ.reset with state := .isOpen, w0 := 0x2001, w1 := 0x01000001 })] }).authFails
      17 (some 2) = true ∧
    ((State.modIq cmp0 0 3 fun p => { p with coming := [tile1], behind := true }).iq 0 3).behind = true ∧
    (16 ≤ ((State.modOq cmp0 0 5 fun p => { p with notices := 16 }).oq 0 5).notices) := by
  unfold comes; decide

/-- A slot at a port of the package, at one of a circuit, and none there, with nothing and an entry before it. -/
theorem witness_Arrivals_slots :
    slotAt (State.modIq cmp0 0 3 fun p => { p with coming := [tile1] }) 0 3 ∧
    slotAt (circPorts { IqPort.reset with cap := 1 } OqPort.reset) 0 3 ∧
    (let s := circPorts { IqPort.reset with cap := 1, q := [tile1], coming := [ce7] } OqPort.reset
     ¬ slotAt s 0 3 ∧ (s.iq 0 3).coming = ce7 :: [] ∧ (s.iq 0 3).tokenDue = false ∧ (s.iq 0 3).behind = false) ∧
    (let s := circPorts { IqPort.reset with cap := 2, coming := [ce7] } OqPort.reset
     slotAt s 0 3 ∧ (s.iq 0 3).coming ≠ [] ∧ s.live 17 (s.nextFlits 17 1 ce7.beats.length) = true ∧
     s.runFits 17 (s.nextFlits 17 1 ce7.beats.length) (entryFlits ce7) = true ∧ s.authFails 17 none = false) ∧
    slotAt (circPorts { IqPort.reset with cap := 2, coming := [ce7], behind := true } OqPort.reset) 0 3 := by
  refine ⟨fun id h => ?_, fun id _ => by decide, ⟨fun h => absurd (h 17 rfl) (by decide), by decide, by decide, by decide⟩,
    ⟨fun id _ => by decide, by decide, by decide, by decide, by decide⟩, fun id _ => by decide⟩
  have : ((State.modIq cmp0 0 3 fun p => { p with coming := [tile1] }).iq 0 3).bind = .unbound := by decide
  rw [this] at h; cases h

/-- A marker of another KIND and a tile of one beat whose head says more; the flits fit a circuit that keeps none. -/
theorem witness_Arrivals_malformed :
    entryWhole (mkMarker 5 7 0) = false ∧ entryWhole { tile1 with beats := tile1.beats.take 1 } = false ∧
    (let s := circPorts { IqPort.reset with cap := 1 } OqPort.reset
     s.live 17 (s.nextFlits 17 1 (mkMarker 5 7 0).beats.length) = true ∧
     s.runFits 17 (s.nextFlits 17 1 (mkMarker 5 7 0).beats.length) (entryFlits (mkMarker 5 7 0)) = true) := by
  decide

/-- A token due at the far end of a route: nothing on its way, and an entry that leaves no charge open. -/
theorem witness_Arrivals_token : ∀ l ∈ [[], [tile1]],
    let s := ((circPorts IqPort.reset OqPort.reset).modOq 0 5 fun p => { p with notices := 1, bind := .route 0 3 }).modIq 0 3 fun p =>
      { p with bind := .route 0 5, tokenDue := true, coming := l }
    1 ≤ (s.oq 0 5).notices ∧ (s.oq 0 5).bind = .route 0 3 ∧ (s.iq 0 3).bind = .route 0 5 ∧ (s.iq 0 3).tokenDue = true ∧
    s.openTail (s.iq 0 3) = false ∧ (s.oq 0 5).outq = [] := by
  decide

/-- A port without a credit may take one notice: the far port has a slot, whatever its capacity is. -/
theorem witness_Arrivals_notice : ((circPorts IqPort.reset OqPort.reset).oq 0 5).credits + 1 ≤
    (circPorts IqPort.reset OqPort.reset).farCap ((circPorts IqPort.reset OqPort.reset).circ 17) := by
  show 0 + 1 ≤ 2 + _
  omega

theorem witness_Grants :
    ((elig [tile1, tile1] 2).arbiter 0 = some 0 ∧ granted (elig [tile1, tile1] 2) 0 0 ∧ (elig [tile1, tile1] 2).passes 0 0 = false ∧
     (elig [tile1, tile1] 2).boundaryOk 0 0 = true ∧ (((elig [tile1, tile1] 2).core 0).stage 0).prevCharge ≠ some ((elig [tile1, tile1] 2).nextCharge 0 0)) ∧
    (let s := (elig [tile1, tile1] 2).modMe fun k => k.modStage 0 fun t => { t with prevCharge := some 7 }
     s.arbiter 0 = some 0 ∧ granted s 0 0 ∧ s.passes 0 0 = false ∧ ((s.core 0).stage 0).prevCharge = some (s.nextCharge 0 0)) ∧
    (let s := elig [ce7] 1
     granted s 0 0 ∧ s.passes 0 0 = true ∧ s.markSeqStage 0 = none ∧ s.userPass 0 0 = none ∧ ((s.core 0).stage 0).ins = 3 :: [] ∧
     s.markerAt 0 3 = some ce7) ∧
    (let s := elig [mkMarker 11 7 0] 1
     granted s 0 0 ∧ s.passes 0 0 = true ∧ s.userPass 0 0 = some 3 ∧ s.markerAt 0 3 = some (mkMarker 11 7 0)) ∧
    (clash0.evaluates 0 = true ∧ clash0.mustDiscard 0 = false ∧ clash0.markSeqStage 0 = some (0, 3, 4)) := by
  unfold granted; decide +kernel

/-- A stage at its FIRE.LIMIT and below it; in split mode with two streams joined. -/
theorem witness_Watchdog :
    (let s := fun w => cmp0.modMe fun k => (k.modCtx 0 fun x => { x with fireLimit := 9 }).modStage 0 fun t => { t with watch := w }
     ((s 9).core 0).firing = some 0 ∧ ((s 9).core 0).halted = false ∧ (((s 9).core 0).ctx 0).fireLimit ≠ 0 ∧
     (((s 9).core 0).ctx 0).fireLimit.toNat ≤ (((s 9).core 0).stage 0).watch ∧ (((s 9).core 0).ctx 0).split = none ∧
     (((s 8).core 0).stage 0).watch < (((s 8).core 0).ctx 0).fireLimit.toNat) ∧
    (let s := (joined3 false).modMe fun k => (k.modCtx 0 fun x => ({ x with fireLimit := 9 }).modBank 0 fun b => { b with joined := true }).modStage 0
       fun t => { t with watch := 9 }
     (s.core 0).firing = some 0 ∧ ((s.core 0).ctx 0).split ≠ none ∧ (∃ j < 4, (((s.core 0).ctx 0).bank j).joined = false) ∧
     (((s.core 0).ctx 0).bank 0).joined = true) := by
  decide +kernel

/-- An abort CE seen; an entry of the charge in discard at a head; the CE of every input removed. -/
theorem witness_Discard :
    (let s := elig [abort7] 2
     s.evaluates 0 = true ∧ ((s.core 0).stage 0).state = .eligible ∧ s.heldNew 0 0 = false ∧ ((s.core 0).stage 0).discard = [] ∧
     s.abortSeen 0 0 = some 7) ∧
    (let s := (elig [ce7] 2).modMe fun k => k.modStage 0 fun t => { t with discard := [9, 7] }
     s.abortSeen 0 0 = none ∧ s.discardPort 0 0 = some 3 ∧ (s.iq 0 3).q = [ce7] ∧ ce7.kind = .marker ∧ hKind ce7.head = 10) ∧
    (let s := ((elig [] 2).modMe fun k => k.modStage 0 fun t => { t with discard := [9, 7] }).modIq 0 3 fun p => { p with ceSeen := [8, 7] }
     ((s.core 0).stage 0).discard = [9] ++ 7 :: [] ∧ (∀ n ∈ ((s.core 0).stage 0).ins, 7 ∈ (s.iq 0 n).ceSeen) ∧
     (9 : BitVec 16) ≠ 7 ∧ 3 ∈ ((s.core 0).stage 0).ins ∧ 9 ∉ (s.iq 0 3).ceSeen ∧ s.outsOpen 0 0 = true ∧
     s.evaluates 0 = true) := by
  decide +kernel

/-- A hub core whose stage has an entry of the charge in discard at a head, and one with the abort CE of a charge. -/
def hubElig (e : Entry) (d : List (BitVec 16)) : State := hub0.modMe fun k =>
  { (k.setStage 0 { Stage.probe with state := .eligible, inRate := [(3, 2)], discard := d }) with
    firing := none, iq := [(3, { iqWith [e] 0 0 0 with owner := some 0, bind := .route 0 0, cap := 2, ceSeen := [9] })] }
theorem witness_Discard_hub :
    (if 512 ≤ 512 then (hubElig ce7 [7]).hubLive 512 else (hubElig ce7 [7]).evaluates 512) = true ∧
    (((hubElig ce7 [7]).core 512).stage 0).state = .eligible ∧ (hubElig ce7 [7]).heldNew 512 0 = false ∧
    (hubElig ce7 [7]).abortSeen 512 0 = none ∧ (hubElig ce7 [7]).discardPort 512 0 = some 3 ∧
    (hubElig abort7 []).abortSeen 512 0 = some 7 ∧ 3 ∈ (((hubElig ce7 [7]).core 512).stage 0).ins := by
  decide +kernel

theorem witness_HubEvents :
    ({ hub0 with cmpHit := false }.cmpHit = false ∧ hub0.cycCmp.toNat ≤ hub0.cycles.toNat ∧
      hub0.cycles.toNat < ({ hub0 with cycCmp := 1 }).cycCmp.toNat) ∧
    (hub0.core (512 + 7)).hub.priv ≠ .u ∧ (287 < 288 ∧ 0xFFFF8 < 0x100000 ∧ 0xFFFF8 % 8 = 0) ∧ (hub0.core (512 + 7)).ctxWorld = true ∧
    (let s := fun l => (mxWith l).modMe fun k => { k with halted := true }
     haltedOnly 0 = true ∧ ((s [passOp []]).core 58).halted = true ∧ ((s [passOp []]).core 58).arr ≠ [] ∧ ((s []).core 58).arr = [] ∧
     haltedOnly 0xF2000 = false ∧ (0xF2008 : Nat) ≠ 0xF2000) ∧
    hub0.ready 287 7 = false ∧
    (hub0.core 287).halted = false ∧ haltedOnly 0xF2000 = false ∧
    (rangeOf (8 * 7)).isMem = true ∧ ({ hub0 with eccBad := [56] }).badIn (8 * 7) 8 = true ∧ 7 ∉ hub0.eccSeen ∧
    7 ∈ ({ hub0 with eccSeen := [7] }).eccSeen ∧ hub0.badIn (8 * 7) 8 = false := by decide
/-- Circuit 17 of link 1: kind MEMORY (w0 bit 10), its window-table end (ENDS 2) or its remote-engine end (ENDS 1, core 58). -/
def memAt (ends : Nat) (wins : Store Window) : State :=
  { core58 with
    circs := [(17, { Circ.reset with state := .isOpen, w0 := BitVec.ofNat 64 (1 + 2 ^ 7 * ends + 2 ^ 10 + 3 * 2 ^ 16), w1 := 0x01000001, w2 := 58 })]
    links := [(1, { Link.reset with state := .up })], wins := wins }
/-- One window of 64 KiB at 0x00_E800_0000 with the rights given, and packets to it. -/
def open1 (rd wr at_ : Bool) : Store Window :=
  [(255, { Window.reset with state := .isOpen, base := 0xE800, size := 1, owner := 3, rd := rd, wr := wr, at_ := at_ })]
def pkt (op : Byte) (len sub : Nat) (off : Nat) (data : List Byte) : Packet :=
  { badTag := none, op := op, code := 0, len := BitVec.ofNat 8 len, sub := BitVec.ofNat 8 sub, rtag := 9,
    da := BitVec.ofNat 64 (if op = 6 then off else 255 * 2 ^ 40 + off), opnd := if op = 1 ∨ op = 2 ∨ op = 6 then 0 else 1, cmp := 0,
    rest := 0, data := data }

/-- A remote load of core 58 that awaits 64 bytes under tag 9; a remote store. -/
def awaits (k : RemKind) : State := (memAt 1 []).modMe fun x =>
  { x with eng := [{ engCmd 4 none (.remote { remoteOf k 5 0 64 0xE8000000 with sent := 64, out := [⟨9, 0, 64⟩] }) with eng := 1 }] }

/-- One byte at the last place of a line and 64 bytes of a line; each check that fails; each kind of answer. -/
theorem witness_Packets_arrive :
    arrives (memAt 2 []) 17 2 2 (pkt 1 1 0 0 []) ∧ arrives (memAt 1 []) 17 1 3 (pkt 9 0 0 0 []) ∧ arrives (memAt 1 []) 17 1 2 (pkt 7 0 0 0 []) ∧
    unusedZero (pkt 1 1 0 0 []) ∧ unusedZero (pkt 2 64 0 0xFFC0 []) ∧
    unusedZero (pkt 3 8 20 0xFFF8 []) ∧ unusedZero (pkt 4 0 63 0 []) ∧ unusedZero (pkt 5 0 32 0 []) ∧ unusedZero (pkt 6 64 7 0 []) ∧
    ¬ unusedZero { (pkt 1 1 0 0 []) with sub := 1 } := by
  unfold arrives comes unusedZero
  and_intros <;> decide

theorem witness_Packets_open :
    opens (memAt 2 (open1 true true true)) 17 (pkt 1 1 0 0xFFFF []).da 1 .wr 0xE800FFFF ∧
    (0xFFFF % 64 + 1 ≤ 64 ∧ (pkt 1 1 0 0xFFFF []).da.toNat % 2 ^ 40 = 0xFFFF ∧ (pkt 1 1 0 0 []).len.toNat = 1) ∧
    opens (memAt 2 (open1 true true true)) 17 (pkt 2 64 0 0xFFC0 []).da 64 .rd 0xE800FFC0 ∧ (0xFFC0 % 64 + 64 ≤ 64) ∧
    opens (memAt 2 (open1 true true true)) 17 (pkt 3 8 20 0xFFF8 []).da 8 .at_ 0xE800FFF8 ∧ 0xFFF8 % 8 = 0 ∧
    ((pkt 3 8 20 0xFFF8 []).len.toNat = 8 ∧ (pkt 3 8 20 0xFFF8 []).sub.toNat = RamoOp.cas.code.toNat + (if true then 16 else 0)) := by
  unfold opens offLogbook; decide

theorem witness_Packets_closed :
    closedBy (memAt 2 []) 17 (pkt 1 1 0 0 []).da 1 .wr 1 ∧
    closedBy (memAt 2 [(255, win .revoking false [])]) 17 (pkt 1 1 0 0 []).da 1 .wr 2 ∧
    closedBy (memAt 2 [(255, win .isOpen true [])]) 17 (pkt 1 1 0 0 []).da 1 .wr 3 ∧
    closedBy (memAt 2 (open1 true false true)) 17 (pkt 1 1 0 0 []).da 1 .wr 4 ∧
    closedBy (memAt 2 (open1 false true true)) 17 (pkt 2 1 0 0 []).da 1 .rd 4 ∧
    closedBy (memAt 2 (open1 true true true)) 17 (pkt 2 1 0 0x10000 []).da 1 .rd 5 ∧
    closedBy (memAt 2 (open1 true true false)) 17 (pkt 3 8 20 0xFFF8 []).da 8 .at_ 4 ∧ ¬ ((1 : Nat) ≤ 0 ∧ (0 : Nat) ≤ 64) := by
  unfold closedBy
  and_intros <;> decide

theorem witness_Packets :
    (memAt 2 []).badIn 0xE800FFC0 64 = false ∧ { (memAt 2 []) with eccBad := [0xE800FFC0] }.badIn 0xE800FFC0 64 = true ∧
    (32 ≤ (pkt 4 0 63 0 []).sub.toNat ∧ (pkt 4 0 63 0 []).sub.toNat < 64 ∧
      opens (memAt 2 (open1 true true true)) 17 (pkt 4 0 63 0 []).da 1 .at_ 0xE8000000 ∧ 0xE8000000 < 0x480000000 ∧
      flagOver ((((memAt 2 []).core 58).flag 63).value.toInt + ((pkt 4 0 63 0 []).opnd.setWidth 32).toInt) = false) ∧
    ((pkt 6 64 7 0 (List.replicate 64 0)).len.toNat % 8 = 0 ∧ (pkt 6 64 7 0 []).sub.toNat < 8 ∧
      (pkt 6 64 7 0 (List.replicate 64 0)).data.length = 64) ∧
    (17 ∈ (({ (memAt 2 []) with wins := [(9, win .revoking false [17])] }).win (9 : BitVec 32).toNat).probes ∧
      17 ∉ ((memAt 2 []).win (9 : BitVec 32).toNat).probes) ∧
    ((memAt 1 []).core ((memAt 1 []).circ 17).core).findTag 9 = none ∧
    (({ (memAt 2 []) with circs := [(17, { (memAt 2 []).circ 17 with w0 := 0x2501 })] }).authFails 17 (some 0) = true ∧
      (({ (memAt 2 []) with circs := [(17, { (memAt 2 []).circ 17 with w0 := 0x2501 })] }).circ 17).ends = 2 ∧
      (({ (memAt 2 []) with circs := [(17, { (memAt 2 []).circ 17 with w0 := 0x2501 })] }).circ 17).kind = 1) := by
  unfold opens offLogbook; decide

theorem witness_Packets_answer :
    (∃ cmd r out, ((awaits .rld).core ((awaits .rld).circ 17).core).findTag 9 = some (cmd, r, out) ∧ r.kind.wantsData = true ∧ out.len = 64) ∧
    (∃ cmd r out, ((awaits .rst).core ((awaits .rst).circ 17).core).findTag 9 = some (cmd, r, out) ∧ r.kind.wantsData = false) :=
  ⟨⟨_, _, _, rfl, by decide, by decide⟩, ⟨_, _, _, rfl, by decide⟩⟩

/-- A sound response, one with a reserved field set and one of a reserved OP; a sound probe and its answer; an idle circuit. -/
theorem witness_Packets_fields : blank { (pkt 9 0 0 0 []) with da := 0, opnd := 0 } ∧
    ¬ blank { (pkt 9 0 0 0 []) with sub := 1 } ∧ (pkt 12 0 0 0 []).op ≠ 10 ∧ blank { (pkt 7 0 0 0 []) with da := 0, opnd := 0 } ∧
    ((memAt 2 []).circ 17).bondn ≤ 1 ∧ ((memAt 2 []).circ 17).rxBuf = [] := by
  unfold blank; decide

/-- Link 1 in a state; circuit 17 a relay from link 1 to index 2 of link 2. -/
def linkIn (f : Link → Link) : State := { hub0 with links := [(1, f Link.reset)] }
def upLink (x : Link) : Link := { x with state := .up }
def flit0 : Flit := linkFlit 0 0
def relay : State :=
  { hub0 with
    links := [(1, upLink Link.reset), (2, upLink Link.reset)]
    circs := [(17, { Circ.reset with state := .isOpen, w0 := 0x201, w1 := 0x01000001, w2 := 0x20200000000 }), (34, { Circ.reset with state := .isOpen })] }

theorem witness_LinkLayer :
    spoken (linkIn upLink) 1 ∧
    (let s := linkIn fun x => { upLink x with txSeq := 1, replay := [flit0, flit0] }
     (BitVec.ofNat 16 0 + 1 - ((s.link' 1).txSeq - BitVec.ofNat 16 (s.link' 1).replay.length)).toNat = 2 ∧ 2 ≤ (s.link' 1).replay.length ∧
     (BitVec.ofNat 16 1 + 1 - ((s.link' 1).txSeq - BitVec.ofNat 16 (s.link' 1).replay.length)).toNat = 3 ∧ (s.link' 1).replay.length < 3 ∧
     (BitVec.ofNat 16 0xFFFF - ((s.link' 1).txSeq - BitVec.ofNat 16 (s.link' 1).replay.length)).toNat = 0 ∧
     (BitVec.ofNat 16 1 - ((s.link' 1).txSeq - BitVec.ofNat 16 (s.link' 1).replay.length)).toNat = 2) ∧
    ((linkIn upLink).link' 1).nakOut = false ∧
    (((linkIn fun x => { x with nakOut := true }).link' 1).nakOut = true ∧
      ((linkIn fun x => { x with nakOut := true }).link' 1).nakSeq = ((linkIn fun x => { x with nakOut := true }).link' 1).rxSeq) ∧
    (95 < 96 ∧ ((linkIn fun x => { upLink x with nakDue := true }).link' 1).nakDue = true) ∧
    ((linkIn fun x => { upLink x with ackDue := true }).link' 1).ackDue = true ∧
    (linkIn fun x => { upLink x with ackDue := true }).slotOwner 1 0 = none ∧
    (((linkIn upLink).link' 1).nakDue = false ∧ ((linkIn upLink).link' 1).ackDue = false ∧ ((linkIn upLink).link' 1).resend = 0 ∧
      ((linkIn upLink).link' 1).ctlq = [] ∧ (linkIn upLink).circsOn 1 = []) := by
  unfold spoken; decide

/-- The states of a training, and a package that is not OFF; a relay between two links that are UP; a circuit that is FAILED. -/
theorem witness_LinkLayer_states :
    ((linkIn fun x => { x with state := .retrain }).link' 1).state = .retrain ∧ ((linkIn id).link' 1).state = .down ∧
    (linkIn id).power.off = false ∧ (linkIn id).power.bootfail = false ∧ hub0.boot.rollback.toNat < (0xFFFFFFFF : BitVec 32).toNat ∧
    (∃ h < 8, (hub0.core (512 + h)).hub.priv = .m ∧ (hub0.core (512 + h)).hub.inReset = false) ∧
    ({ hub0 with power := { hub0.power with bootfail := true } }).power.bootfail = true ∧
    (((linkIn fun x => { x with state := .training }).link' 1).state = .training ∧
      ((linkIn fun x => { x with state := .training }).link' 1).peerNonce = none ∧
      ((linkIn fun x => { x with state := .training, peerNonce := some 5 }).link' 1).peerNonce = some 5) ∧
    ((linkIn upLink).circ 17).state = .free ∧
    (({ (linkIn upLink) with circs := [(17, { Circ.reset with state := .failed })] }).circ 17).state = .failed ∧
    (let x := relay.circ 17
     x.ends = 4 ∧ x.state = .isOpen ∧ spoken relay (17 / 16) ∧ spoken relay x.outlink ∧ circId x.outlink x.outidx = 34 ∧
     (relay.circ 34).relay.length < 64) := by
  unfold spoken; decide

/-- A slot that no circuit owns, and one whose owner has an entry to send; flits with a reserved TYPE, a reserved bit and an LSEQ out
of turn, and one in turn whose CRC is right. -/
theorem witness_LinkLayer_slots : slotFree (linkIn upLink) 1 ∧
    (let s := { (linkIn upLink) with circs := [(17, { Circ.reset with state := .isOpen, w0 := 1, w1 := 0x10001000001, w2 := 16 * 2 ^ 16, txq := [ce7] })] }
     s.slotOwner 1 (s.link' 1).slot = some 17 ∧ (s.streamSend 17).isSome = true) := by
  refine ⟨fun id h => ?_, by decide⟩
  have : (linkIn upLink).slotOwner 1 ((linkIn upLink).link' 1).slot = none := by decide
  simp [this] at h

/-- A flit of an entry on circuit 17, an input's, that is FREE, FAILED or OPEN; its tag holds, or does not; it is not the entry's last;
one of a type that the input does not take; a flit of index 0 that is no CONTROL flit, its tag right and wrong. -/
def entry17 (w0 : Word) (st : CircState) : State :=
  { (linkIn upLink).modIq 0 0 fun p => { p with bind := .circ 17 } with
    circs := [(17, { Circ.reset with state := st, w0 := w0, w1 := 0x01000001 })] }
def flit17 : Flit := mkFlit 5 0 0x00001100

theorem good (p : Beat) (a : BitVec 64) (c : BitVec 32) (h : c.toNat / 2 ^ 8 % 16 ≤ 8) (k : c.toNat / 2 ^ 3 % 32 = 0) : ¬ unsound (mkFlit p a c) := by
  rintro (h' | h' | h')
  · exact h' rfl
  · exact absurd h (by simpa [mkFlit] using h')
  · exact h' k

theorem witness_LinkLayer_kept :
    inTurn (entry17 1 .isOpen) 1 1 flit17 ∧ (∀ st, ((entry17 1 st).circ 17).state = st) ∧ ((entry17 1 .isOpen).circ 17).ends ≠ 4 ∧
    (entry17 1 .isOpen).tagHolds 17 flit17 = true ∧ (entry17 1 .isOpen).takes 17 1 = true ∧ (entry17 1 .isOpen).takes 17 5 = false ∧
    (((entry17 1 .isOpen).tookOn 17 1).modCirc 17 fun y => { y with rxBuf := y.rxBuf ++ [(0, (entry17 1 .isOpen).opened 17 flit17)] }).whole 17 1
      = false ∧
    (∃ f, inTurn (entry17 0x2001 .isOpen) 1 1 f ∧ (entry17 0x2001 .isOpen).tagHolds 17 f = false) ∧
    (∀ a, inTurn (linkIn upLink) 1 0 (mkFlit 5 a 0x00000100)) := by
  refine ⟨⟨good _ _ _ (by decide) (by decide), ?_⟩, fun st => by cases st <;> rfl, by decide, by decide, by decide, by decide, by decide +kernel,
    ⟨mkFlit 5 ((entry17 0x2001 .isOpen).tagOf ((entry17 0x2001 .isOpen).circ 17) (1 - (entry17 0x2001 .isOpen).dir ((entry17 0x2001 .isOpen).circ 17))
      ((entry17 0x2001 .isOpen).circ 17).recvNo 1 0 5 + 1) 0x00001100, ⟨good _ _ _ (by decide) (by decide), ?_⟩, ?_⟩,
    fun a => ⟨good _ _ _ (by decide) (by decide), ?_⟩⟩
  · simp only [flit17, mkFlit]; decide
  · simp only [mkFlit]; decide
  · have h : ∀ x : BitVec 64, ¬ (x + 1 = x) := fun x h => absurd (congrArg BitVec.toNat h) (by simp; omega)
    simp only [State.tagHolds, Bool.or_eq_false_iff]
    refine ⟨by decide, ?_⟩
    simp only [beq_eq_false_iff_ne]
    exact h _
  · simp only [mkFlit]; decide

/-- The one flit of a marker, which an arrival takes, and a flit with LAST and no FIRST, which none does. -/
theorem witness_LinkLayer_whole :
    (let f := mkFlit ((ce7.beats.getD 0 0)) 0 0x00001107
     let s := entry17 1 .isOpen
     let kept := (s.tookOn 17 1).modCirc 17 fun y => { y with rxBuf := y.rxBuf ++ [(0, s.opened 17 f)] }
     s.tagHolds 17 f = true ∧ kept.whole 17 1 = true ∧ kept.claimed 17 1 = true) ∧
    (let f := mkFlit 5 0 0x00001102
     let s := entry17 1 .isOpen
     let kept := (s.tookOn 17 1).modCirc 17 fun y => { y with rxBuf := y.rxBuf ++ [(0, s.opened 17 f)] }
     s.tagHolds 17 f = true ∧ kept.whole 17 1 = true ∧ kept.claimed 17 1 = false) := by
  decide +kernel

theorem witness_LinkLayer_whole_turn (p : Beat) : inTurn (entry17 1 .isOpen) 1 1 (mkFlit p 0 0x00001107) ∧
    inTurn (entry17 1 .isOpen) 1 1 (mkFlit p 0 0x00001102) := by
  refine ⟨⟨good _ _ _ (by decide) (by decide), ?_⟩, ⟨good _ _ _ (by decide) (by decide), ?_⟩⟩ <;> simp only [mkFlit] <;> decide

/-- A circuit of a bond of two whose lane 0 is not bound yet: its flit 1 would come before flit 0. -/
theorem witness_Packets_bond :
    (let s := { (linkIn upLink) with circs := [(17, { Circ.reset with state := .isOpen, w0 := 1, w1 := 0x02010001 })] }
     0 < (s.circ 17).lanes ∧ (∀ m ∈ s.bond 17, (s.circ m).lane ≠ 0 ∧ (s.circ m).lanes = (s.circ 17).lanes) ∧
     ∃ r ∈ s.nextFlits 17 1 2, 0 < r.1) := by
  decide

/-- A member of a bond to whose count the first beat falls. -/
theorem witness_LinkLayer_bond :
    (let s := { (linkIn upLink) with circs := [(17, { Circ.reset with state := .isOpen, w0 := 1, w1 := 0x02000001, w2 := 16 * 2 ^ 16, txq := [ce7] })] }
     17 / 16 = 1 ∧ (s.circ 17).ends = 0 ∧ 16 ≤ (s.circ 17).port ∧ (s.circ (s.lead 17)).txq = ce7 :: [] ∧
     (s.circ 17).sendNo - (s.circ (s.lead 17)).txBase < ce7.beats.length) := by
  decide

theorem witness_LinkLayer_flits (f : Flit) :
    unsound { f with ctrl := 0x00000F00 } ∧ unsound { f with ctrl := 0x00000108 } ∧
    (1 ≤ (0x00011100 : BitVec 32).toNat / 2 ^ 8 % 16 ∧ (0x00011100 : BitVec 32).toNat / 2 ^ 8 % 16 ≤ 5 ∧
      (0x00011100 : BitVec 32).extractLsb' 16 16 ≠ ((linkIn upLink).link' 1).rxSeq) ∧
    inTurn (linkIn upLink) 1 1 (mkFlit f.payload f.auth 0x00001100) := by
  have good : ¬ unsound (mkFlit f.payload f.auth 0x00001100) := by
    rintro (h | h | h)
    · exact h rfl
    all_goals exact absurd h (by simp [mkFlit])
  refine ⟨.inr (.inl (by simp)), .inr (.inr (by simp)), by decide, good, ?_⟩
  simp only [mkFlit]
  decide

/-- A message for this package, and the tree: package 0 its root, or a child of package 0 on link 1. -/
def msg (bad : Option Nat) (dst : Byte) (arg : Word) (data : List Byte) : CtlMsg := { badTag := bad, src := 5, dst := dst, arg := arg, data := data }
def withEpoch (s : State) : State := { s with boot := { s.boot with epoch := some 1 } }
def root0 : State := withEpoch (linkIn upLink)
def child : State := { (withEpoch (linkIn fun x => { upLink x with peerPkg := some 0 })) with pkgNo := 3 }

theorem witness_ControlMessages :
    spoken (linkIn upLink) 1 ∧ (msg (some 0) 0 0 []).badTag ≠ none ∧ (msg none 0 0 []).badTag = none ∧
    (msg none 0 0 []).dst = (linkIn upLink).pkgNo ∧ (msg none 1 0 []).dst ≠ (linkIn upLink).pkgNo ∧
    (linkIn upLink).boot.applying = false ∧ (linkIn upLink).boot.awaits = [] ∧ root0.isRoot = true ∧ child.isRoot = false ∧
    (hub0.power.off = false ∧ hub0.power.bootfail = false) ∧
    spoken root0 1 ∧ spoken child 1 ∧ (heard child 1 (msg none 0 0 [])).linkTo child.boot.parent = some 1 ∧
    ((msg none 0 0 (List.replicate 255 0)).arg = 0 ∧ (msg none 0 0 (List.replicate 255 0)).data.length < 256) ∧
    (256 ≤ (msg none 0 0 (List.replicate 256 0)).data.length ∧
      (msg none 0 0 (List.replicate 256 0)).data.length = 256 + imgBodyLen (msg none 0 0 (List.replicate 256 0)).data) ∧
    ((msg none 0 1 []).arg ≠ 0 ∧ (msg none 0 1 []).arg.toNat ≠ (sget [] hub0.boot.rx 1).length ∧ (sget [] hub0.boot.rx 1).length < 256) ∧
    (let old := sget [] ({ hub0 with boot := { hub0.boot with rx := [(1, [5])] } }).boot.rx 1
     (msg none 0 1 [6]).arg.toNat = old.length ∧ (old ++ (msg none 0 1 [6]).data).length < 256) ∧
    (root0.boot.epoch = some 1 ∧ (msg none 0 1 []).arg.toNat = (1 : BitVec 32).toNat ∧
      (msg none 0 2 []).arg.toNat ≠ (1 : BitVec 32).toNat) ∧
    hub0.headerOk [] = false := by
  unfold spoken; decide +kernel

/-- An image of two packages, the root and package 9 below it. -/
def img09 : List Byte := List.replicate 24 0 ++ [2, 0] ++ List.replicate 246 0 ++ List.replicate 48 0 ++ [9] ++ List.replicate 15 0
def root9 : State := { root0 with boot := { root0.boot with image := img09 } }

/-- A root that has heard of reports. -/
def told (s : State) (down : List (Nat × Nat)) : State :=
  { (heard s 1 (msg none 0 9 [])) with boot := { s.boot with down := down } }
/-- A package with no neighbour, one with a neighbour that has not reported, and one whose only neighbour has: the root itself. -/
theorem witness_ControlMessages_down : notYet (told root0 [(9, 5)]) [(9, 5)] 9 ∧
    notYet (told root9 [(9, 5)]) [(9, 5)] 9 ∧ ¬ notYet (told root9 [(9, 0)]) [(9, 0)] 9 ∧
    (told root9 [(9, 0)]).watchers 9 = [0] ∧ root9.isRoot = true ∧ (∀ r ∈ root9.boot.down, r.1 ≠ 9) := by
  unfold notYet; decide +kernel

/-- Nothing of a message has come, or its header; its last flit fails, or its header does; a child on a link in RETRAIN. -/
theorem witness_ControlMessages_flits :
    cameFirst (linkIn upLink) 1 7 (msg none 0 9 []) ∧
    (let m := msg (some 1) 0 9 [1]
     let s := linkIn fun x => { upLink x with ctlBuf := [ctlBeat 7 m 0] }
     cameFirst s 1 7 m ∧ (s.link' 1).ctlBuf.length ≤ 1) ∧ ((linkIn upLink).link' 1).ctlBuf.length ≤ 0 ∧
    (linkIn fun x => { x with state := .retrain, peerPkg := some 9 }).linkTo 9 = some 1 := by
  unfold cameFirst; decide +kernel

/-- A package whose quarters have temperatures, power and quiet counts. -/
def pwr (f : Power → Power) : State := { hub0 with power := f hub0.power }

theorem witness_PackageEvents :
    ((scopeRegion (.quarter 3)).ok = true ∧ (scopeRegion (.region 15 17 1 1)).ok = true ∧ hub0.power.off = false ∧ hub0.tokens = [] ∧
      hub0.cfgWait = [] ∧ 287 ∈ (scopeRegion (.region 15 17 1 1)).cores ∧ (cmp0.modMe fun k => { k with failed := true }).me.failed = true) ∧
    (State.firmwareFields hub0 hub0.boot.flashA = false ∧ State.firmwareFields hub0 hub0.boot.flashB = false) ∧
    (hub0.boot.debugOpen = false ∧ ({ hub0 with boot := { hub0.boot with debugOpen := true } }).boot.debugOpen = true ∧
      selects (287 + 2 ^ 10 * 7) 287 7) ∧
    (hub0.power.bootfail = false ∧ [(1 : Byte)].length ≤ 65536 ∧ hub0.mgmtRx.length < 64 ∧
      64 ≤ ({ hub0 with mgmtRx := List.replicate 64 [] }).mgmtRx.length ∧ ({ hub0 with mgmtRx := [[1], [2]] }).mgmtRx = [1] :: [[2]]) ∧
    ((0 : Byte).toNat ∉ [0x01, 0x02, 0x03, 0x10, 0x11, 0x20, 0x21] ∧ (0x22 : Byte).toNat ∉ [0x01, 0x02, 0x03, 0x10, 0x11, 0x20, 0x21]) ∧
    ((0 : BitVec 16) = 0 ∧ 300 ≤ (1800 : BitVec 16).toNat ∧ (299 : BitVec 16).toNat < 300 ∧ (299 : BitVec 16) ≠ 0 ∧ 1800 < (1801 : BitVec 16).toNat) ∧
    ((4 : BitVec 3).toNat < 5 ∧ 960 ≤ (960 : BitVec 12).toNat ∧ (959 : BitVec 12).toNat < 960) := by
  unfold selects; decide +kernel

/-- Ports of core 0 bound by a route to core 287, which a forced reset takes; a copy, with an error in its first beat, behind a dx.drain
of its stage and of another. -/
theorem witness_PackageEvents_resets :
    (let s := cmp0.modMe fun k => { k with
       iq := [(3, { iqWith [tile1] 0 0 0 with bind := .route 287 0 })], oq := [(5, { oqWith 2 0 with bind := .route 287 0 })] }
     0 ∉ (scopeRegion (.region 15 17 1 1)).cores ∧ (s.iq 0 3).bind = .route 287 0 ∧ (s.oq 0 5).bind = .route 287 0) ∧
    ((0, 64) ∈ pieces 64 0xE8001000 128 ∧ { core58 with eccBad := [0xE8001000] }.badIn (0xE8001000 + 0) 64 = true) ∧
    (let copy := engCmd 1 none (.copy 0xE8002000 0xE8001000 128)
     let drain := engCmd 0 none (.drain { core := 58, eng := 0, id := 9 })
     ((enWith [{ drain with stage := 1 }, copy]).core 58).eng[1]? = some copy ∧ copy.eng < 2 ∧ drain.op.isDrain = true ∧
     copy ∈ ((enWith [{ drain with stage := 1 }, copy]).core 58).running ∧ copy ∉ ((enWith [drain, copy]).core 58).running) := by
  decide +kernel

/-- A frame to a group address. -/
theorem witness_PackageEvents_frame : frameForUs [1] = true := by
  simp [frameForUs]

theorem witness_PackageEvents_quarters :
    (let s := pwr fun p => { p with idleen := 8, quiet := [(3, 4096)] }
     s.power.idleen.getLsbD 3 = true ∧ s.power.idle.getLsbD 3 = false ∧ 4096 ≤ sget 0 s.power.quiet 3 ∧ s.quietQuarter 3 = true) ∧
    (let s := State.modIq (pwr fun p => { p with idle := 1 }) 0 3 fun p => { p with coming := [tile1] }
     s.power.idle.getLsbD 0 = true ∧ s.beatIn 0 = true) ∧
    (let s := pwr fun p => { p with temps := [(3, 840)] }
     s.power.throt.getLsbD 3 = false ∧ 840 ≤ (sget 0 s.power.temps 3).toNat) ∧
    (let s := pwr fun p => { p with pcap := 300, watts := 3001 }
     s.power.pcap ≠ 0 ∧ 10 * s.power.pcap.toNat < s.power.watts.toNat) ∧
    (let s := pwr fun p => { p with throt := 8, temps := [(3, 839)], pcap := 300, watts := 3000 }
     s.power.throt.getLsbD 3 = true ∧ (sget 0 s.power.temps 3).toNat < 840 ∧ s.power.watts.toNat ≤ 10 * s.power.pcap.toNat) ∧
    BitVec.ofNat 32 (({ hub0 with cycles := 0x100000 }).cycles.toNat / 2 ^ 20) ≠ hub0.power.telSeq ∧ hub0.power.throttled = false ∧
    hub0.power.telLeft = [] ∧ (pwr fun p => { p with telLeft := [(24, 5)] }).power.telLeft ≠ [] := by
  decide +kernel

/-- A hub core and a compute core about to run a word; an interrupt to take; an event; a bundle of two slots; words that do not decode;
a fetch that faults; a halted core; nothing on the agenda; a package that is OFF. -/
def runs (s : State) : State := { s with agenda := [.run s.focus s.stream] }
def addWord : Code := .s 0x04611000
def two : BitVec 256 := BitVec.ofNat 256 (0x04611000 + 2 ^ 32 * 0x04611000)
def cmpWith (b : BitVec 256) : State := runs (cmp0.modMe fun k => { k with istore := [(0, b)] })
def hubPc (pc : Addr) : State := runs (hub0.setPc pc)

theorem witness_StepRuns :
    (let s := cmpWith addWord.bundle
     s.agenda = .run 0 0 :: [] ∧ s.power.off = false ∧ s.canRun 0 0 = true ∧ s.hub = false ∧ Instr.wf (.add 3 1 2) = true ∧
     encode (.add 3 1 2) = some addWord ∧ s.fetch 0 s.pc = .ok addWord.bundle ∧ firingWatchdog 0 s = none) ∧
    (let s := (cmpWith addWord.bundle).modMe fun k => (k.modCtx 0 fun x => { x with fireLimit := 9 }).modStage 0 fun t => { t with watch := 9 }
     s.canRun 0 0 = true ∧ (firingWatchdog 0 s).isSome = true) ∧
    (let s := runs (irqState .s true 8 false)
     s.agenda = .run 512 0 :: [] ∧ s.hub = true ∧ s.canRun 512 0 = true ∧ firingWatchdog 512 s = none ∧ (s.irqToTake 512).isSome = true) ∧
    (hub0.hub = true ∧ (runs hub0).canRun 512 0 = true ∧ firingWatchdog 512 (runs hub0) = none ∧ (runs hub0).irqToTake 512 = none) ∧
    (runs (cmp0.modMe fun k => { k with halted := true })).canRun 0 0 = false ∧
    (isEvent .cyclesCompare = true ∧ ({ hub0 with agenda := [.event .cyclesCompare] }).agenda = .event .cyclesCompare :: []) := by
  decide +kernel

theorem witness_StepRuns_words :
    (∃ l, (cmpWith two).fetch 0 (cmpWith two).pc = .ok two ∧ decodeBundle two = .ok l ∧ l.length = 2) ∧
    (∃ e, (cmpWith (BitVec.allOnes 256)).fetch 0 0 = .ok (BitVec.allOnes 256) ∧ decodeBundle (BitVec.allOnes 256) = .error e) ∧
    (∃ t, (hubPc 0x20).fetch 512 (hubPc 0x20).pc = .error t ∧ (hubPc 0x20).canRun 512 0 = true) :=
  ⟨⟨_, by decide +kernel, rfl, by decide +kernel⟩, ⟨_, by decide +kernel, rfl⟩, ⟨_, rfl, by decide +kernel⟩⟩

theorem witness_StepRuns_idle : (hub0.agenda = [] ∧ hub0.ticks % 4 ≠ 3 ∧ hub0.runFocus.isSome = true) ∧
    (pwr fun p => { p with off := true }).power.off = true ∧ isHub 0 = false ∧ isHub 512 = true ∧
    hub0.xlat 512 .fetch ((0xF870100000 : Addr).setWidth 64) 32 32 = .ok 0x870100000 ∧ hub0.badIn 0x870100000 32 = false := by
  decide +kernel

/-- A step from reset answers a next state, from a memory in canonical form; the compare has been reached. -/
theorem witness_StepsKept :
    (match Machine.step State.reset with
      | .next t => Memory.wf State.reset.mem && decide (t.cycCmp.toNat ≤ t.cycles.toNat)
      | _ => false) = true := by
  decide +kernel
end Sys2Proof.Tests
end

section
/-! PROOFS. Reading the registers, predicates and the place in the code of the running core after a write (R13, R44), and what such a write leaves
alone. -/

open Sys2Proof Sys2Proof.Machine Sys2Proof.Claims

namespace Sys2Proof.Machine

/-! ## The running core and its context -/

@[simp] theorem State.me_modMe (s : State) (f : Core → Core) : (s.modMe f).me = f s.me := by
  simp [State.me, State.modMe, State.core_modCore]

theorem State.core_modMe (s : State) (f : Core → Core) (c : Nat) :
    (s.modMe f).core c = if c = s.focus then f s.me else s.core c := State.core_modCore s _ c f

@[simp] theorem State.hub_modMe (s : State) (f : Core → Core) : (s.modMe f).hub = s.hub := rfl

/-- The stage whose context instructions see stays while the firing stage does. -/
theorem State.stg_modMe {s : State} {f : Core → Core} (h : (f s.me).firing = s.me.firing) : (s.modMe f).stg = s.stg := by
  simp [State.stg, h]

theorem Core.ctx_modCtx (k : Core) (t u : Nat) (f : Ctx → Ctx) : (k.modCtx t f).ctx u = if u = t then f (k.ctx t) else k.ctx u :=
  Core.ctx_setCtx k t u _

@[simp] theorem State.stg_modCtx (s : State) (f : Ctx → Ctx) : (s.modCtx f).stg = s.stg := State.stg_modMe rfl

@[simp] theorem State.ctx_modCtx (s : State) (f : Ctx → Ctx) : (s.modCtx f).ctx = f s.ctx := by
  simp only [State.ctx, State.stg_modCtx]
  simp [State.modCtx, Core.ctx_modCtx]

theorem Ctx.bank_modBank {x : Ctx} (h : x.split.isSome = true) (i j : Nat) (f : Stream → Stream) :
    (x.modBank i f).bank j = if j = i then f (x.bank i) else x.bank j := by
  obtain ⟨b, hb⟩ := Option.isSome_iff_exists.mp h
  simp [Ctx.bank, Ctx.modBank, hb, smod, sget_sset]

@[simp] theorem Ctx.g_modBank (x : Ctx) (i : Nat) (f : Stream → Stream) : (x.modBank i f).g = x.g := rfl
@[simp] theorem Ctx.p_modBank (x : Ctx) (i : Nat) (f : Stream → Stream) : (x.modBank i f).p = x.p := rfl
@[simp] theorem Ctx.loops_modBank (x : Ctx) (i : Nat) (f : Stream → Stream) : (x.modBank i f).loops = x.loops := rfl

@[simp] theorem Ctx.isSome_modBank (x : Ctx) (i : Nat) (f : Stream → Stream) : (x.modBank i f).split.isSome = x.split.isSome := by
  simp [Ctx.modBank]

/-! ## Registers and predicates -/

/-- A register number is 0 only for register 0. -/
theorem GReg.toNat_ne_zero {r : GReg} (h : r ≠ 0) : r.toNat ≠ 0 := fun e => h (BitVec.eq_of_toNat_eq e)
theorem PReg.toNat_ne_zero {r : PReg} (h : r ≠ 0) : r.toNat ≠ 0 := fun e => h (BitVec.eq_of_toNat_eq e)

@[simp] theorem State.setG_zero (s : State) (v : Word) : s.setG 0 v = s := by simp [State.setG]
@[simp] theorem State.setP_zero (s : State) (b : Bool) : s.setP 0 b = s := by simp [State.setP]

/-- A write of a g-register other than g0 is an update of the running context: of the stream's bank where the register is banked. -/
def Ctx.putG (x : Ctx) (stream r : Nat) (v : Word) : Ctx :=
  if x.split.isSome && banked r then x.modBank stream fun b => { b with g := sset 0 b.g r v } else { x with g := sset 0 x.g r v }

/-- The same for a predicate other than p0. -/
def Ctx.putP (x : Ctx) (stream i : Nat) (v : Bool) : Ctx :=
  if x.split.isSome then x.modBank stream fun b => { b with p := sset false b.p i v } else { x with p := sset false x.p i v }

/-- An update of the running context depends on that context alone. -/
theorem State.modCtx_congr {s : State} {f g : Ctx → Ctx} (h : f s.ctx = g s.ctx) : s.modCtx f = s.modCtx g := by
  simp only [State.modCtx, State.modMe, State.modCore, Core.modCtx]
  exact congrArg (fun x => s.setCore s.focus (s.me.setCtx s.stg x)) h

theorem State.setG_eq {r : GReg} (s : State) (v : Word) (h : r ≠ 0) : s.setG r v = s.modCtx fun x => x.putG s.stream r.toNat v := by
  unfold State.setG
  rw [if_neg h]
  split <;> rename_i hb <;> exact State.modCtx_congr (by simp_all [Ctx.putG, State.inSplit])

theorem State.setP_eq {i : PReg} (s : State) (b : Bool) (h : i ≠ 0) : s.setP i b = s.modCtx fun x => x.putP s.stream i.toNat b := by
  unfold State.setP
  rw [if_neg h]
  split <;> rename_i hb <;> exact State.modCtx_congr (by simp_all [Ctx.putP, State.inSplit])

@[simp] theorem Ctx.isSome_putG (x : Ctx) (i r : Nat) (v : Word) : (x.putG i r v).split.isSome = x.split.isSome := by
  unfold Ctx.putG; split <;> simp
@[simp] theorem Ctx.isSome_putP (x : Ctx) (i r : Nat) (v : Bool) : (x.putP i r v).split.isSome = x.split.isSome := by
  unfold Ctx.putP; split <;> simp

@[simp] theorem State.inSplit_setG (s : State) (r : GReg) (v : Word) : (s.setG r v).inSplit = s.inSplit := by
  by_cases h : r = 0
  · rw [h, State.setG_zero]
  · simp [State.setG_eq s v h, State.inSplit]
@[simp] theorem State.inSplit_setP (s : State) (i : PReg) (b : Bool) : (s.setP i b).inSplit = s.inSplit := by
  by_cases h : i = 0
  · rw [h, State.setP_zero]
  · simp [State.setP_eq s b h, State.inSplit]

/-- What a context shows under register r, other than g0, to a stream. -/
def Ctx.getG (x : Ctx) (stream r : Nat) : Word := if x.split.isSome && banked r then sget 0 (x.bank stream).g r else sget 0 x.g r
def Ctx.getP (x : Ctx) (stream i : Nat) : Bool := if x.split.isSome then sget false (x.bank stream).p i else sget false x.p i

theorem State.g_eq (s : State) (r : GReg) : s.g r = if r = 0 then 0 else s.ctx.getG s.stream r.toNat := rfl
theorem State.p_eq (s : State) (i : PReg) : s.p i = if i = 0 then true else s.ctx.getP s.stream i.toNat := rfl

theorem Ctx.getG_putG (x : Ctx) (i d r : Nat) (v : Word) : (x.putG i d v).getG i r = if r = d then v else x.getG i r := by
  unfold Ctx.getG Ctx.putG
  by_cases hs : x.split.isSome = true
  · by_cases hd : banked d = true <;> by_cases hr : r = d
    · subst hr; simp [hs, hd, Ctx.bank_modBank hs, sget_sset]
    · by_cases hb : banked r = true <;> simp [hs, hd, hr, hb, Ctx.bank_modBank hs, sget_sset]
    · subst hr; simp [hs, hd, sget_sset]
    · by_cases hb : banked r = true <;> simp [hs, hd, hr, hb, sget_sset, Ctx.bank]
  · simp [hs, sget_sset]

theorem Ctx.getP_putP (x : Ctx) (i d r : Nat) (v : Bool) : (x.putP i d v).getP i r = if r = d then v else x.getP i r := by
  unfold Ctx.getP Ctx.putP
  by_cases hs : x.split.isSome = true
  · simp [hs, Ctx.bank_modBank hs, sget_sset]
  · simp [hs, sget_sset]

theorem GReg.toNat_inj {r d : GReg} : r.toNat = d.toNat ↔ r = d := BitVec.toNat_inj
theorem PReg.toNat_inj {r d : PReg} : r.toNat = d.toNat ↔ r = d := BitVec.toNat_inj

@[simp] theorem State.stream_modCtx (s : State) (f : Ctx → Ctx) : (s.modCtx f).stream = s.stream := rfl

theorem State.g_setG (s : State) (d r : GReg) (v : Word) : (s.setG d v).g r = if r = 0 then 0 else if r = d then v else s.g r := by
  by_cases hr : r = 0
  · simp [State.g_eq, hr]
  · by_cases hd : d = 0
    · rw [hd, State.setG_zero, if_neg hr, if_neg hr]
    · simp only [State.setG_eq s v hd, State.g_eq, hr, if_false, State.ctx_modCtx, State.stream_modCtx, Ctx.getG_putG, GReg.toNat_inj]

theorem State.p_setP (s : State) (d r : PReg) (b : Bool) : (s.setP d b).p r = if r = 0 then true else if r = d then b else s.p r := by
  by_cases hr : r = 0
  · simp [State.p_eq, hr]
  · by_cases hd : d = 0
    · rw [hd, State.setP_zero, if_neg hr, if_neg hr]
    · simp only [State.setP_eq s b hd, State.p_eq, hr, if_false, State.ctx_modCtx, State.stream_modCtx, Ctx.getP_putP, PReg.toNat_inj]

/-- Settles O6: the registers by the reading lemmas of the context, memory by the laws of the store. -/
theorem readAfterWrite : Obligations.ReadAfterWrite := fun s =>
  ⟨s.g_setG, s.p_setP, s.setG_zero, s.setP_zero, fun a bs b => ⟨s.byte_store a bs b, memory_wf_store a bs, rfl⟩⟩

end Sys2Proof.Machine
end

section
/-! PROOFS. The passing of clk, the parts of a step, and IRQ.PEND (R36, R37). -/

open Sys2Proof Sys2Proof.Machine Sys2Proof.Claims
namespace Sys2Proof.Machine

/-! ## The passing of clk -/

/-- Counting the quiet clk changes the power state alone. -/
theorem State.countQuiet_eq (s : State) (n : Nat) : ∃ p, s.countQuiet n = { s with power := p } := by
  unfold State.countQuiet
  split
  · split
    · exact ⟨s.power, rfl⟩
    · exact ⟨_, rfl⟩
  · exact ⟨_, rfl⟩

/-- What the passing of clk changes: the counts of the cores, CYCLES, the compare, the model's own step count and the power state. -/
theorem State.tick_eq (u : State) : ∃ p, u.tick = { u with
    cycles := u.cycles + BitVec.ofNat 64 u.clk
    cmpHit := u.cmpHit || decide (u.cycCmp.toNat ≤ (u.cycles + BitVec.ofNat 64 u.clk).toNat)
    cores := u.cores.map fun e => (e.1, (e.2.watched u.clk).lapse (u.ready e.1))
    ticks := u.ticks + 1, power := p } := by
  obtain ⟨p, h⟩ := State.countQuiet_eq _ u.clk
  exact ⟨p, h⟩

@[simp] theorem State.tick_cycles (u : State) : u.tick.cycles = u.cycles + BitVec.ofNat 64 (1 + Config.freeClk u.ticks) := by
  obtain ⟨p, h⟩ := u.tick_eq
  rw [h]; rfl
@[simp] theorem State.tick_cycCmp (u : State) : u.tick.cycCmp = u.cycCmp := by obtain ⟨p, h⟩ := u.tick_eq; rw [h]
@[simp] theorem State.tick_mem (u : State) : u.tick.mem = u.mem := by obtain ⟨p, h⟩ := u.tick_eq; rw [h]
@[simp] theorem State.tick_notices (u : State) : u.tick.notices = u.notices := by obtain ⟨p, h⟩ := u.tick_eq; rw [h]

/-- The clk leave the compare pending where CYCLES has reached it. -/
theorem State.tick_cmpHit (u : State) (h : u.tick.cycCmp.toNat ≤ u.tick.cycles.toNat) : u.tick.cmpHit = true := by
  obtain ⟨p, e⟩ := u.tick_eq
  rw [e] at h ⊢
  simp only [Bool.or_eq_true, decide_eq_true_eq]
  exact .inr h

theorem Outcome.ticked_eq_next {o : Host.Outcome State Fault Refusal} {t : State} (h : Outcome.ticked o = .next t) :
    ∃ u, o = .next u ∧ t = u.tick := by
  cases o with
  | next u => exact ⟨u, rfl, (Host.Outcome.next.inj h).symm⟩
  | fault f => cases h
  | refused r => cases h

/-- What a step does before the clk pass: an event, a bundle or nothing. -/
theorem step_eq_next {s t : State} (h : Machine.step s = .next t) :
    (∃ u, t = u.tick ∧
      ((∃ i rest, s.agenda = .event i :: rest ∧ isEvent i = true ∧ Machine.exec i { s with agenda := rest } = .next u) ∨
       (∃ i rest, s.agenda = .event i :: rest ∧ isEvent i = false ∧ u = { s with agenda := rest }) ∨
       (∃ c i rest, s.agenda = .run c i :: rest ∧
          u = (State.runFocus { s with agenda := rest, focus := c, stream := i }).getD { s with agenda := rest, focus := c, stream := i }) ∨
       (s.agenda = [] ∧ u = s.autoMove))) := by
  unfold Machine.step at h
  split at h
  next i rest ha =>
    cases he : isEvent i with
    | true =>
      obtain ⟨u, hu, ht⟩ := Outcome.ticked_eq_next (by simpa [he] using h)
      exact ⟨u, ht, .inl ⟨i, rest, ha, he, hu⟩⟩
    | false => exact ⟨_, by simpa [he] using h.symm, .inr (.inl ⟨i, rest, ha, he, rfl⟩)⟩
  next c i rest ha =>
    cases ho : s.power.off with
    | true => simp [ho] at h
    | false => exact ⟨_, by simpa [ho] using h.symm, .inr (.inr (.inl ⟨c, i, rest, ha, rfl⟩))⟩
  next ha =>
    cases ho : s.power.off with
    | true => simp [ho] at h
    | false => exact ⟨_, by simpa [ho] using h.symm, .inr (.inr (.inr ⟨ha, rfl⟩))⟩

/-! ## IRQ.PEND (R36) -/

theorem State.irqPend_notices (s : State) : s.irqPend.getLsbD 0 = !s.notices.isEmpty := by
  unfold State.irqPend; split <;> split <;> split <;> split <;> simp_all
theorem State.irqPend_management (s : State) : s.irqPend.getLsbD 1 = !s.mgmtRx.isEmpty := by
  unfold State.irqPend; split <;> split <;> split <;> split <;> simp_all
theorem State.irqPend_security (s : State) : s.irqPend.getLsbD 2 = s.boot.secPend := by
  unfold State.irqPend; split <;> split <;> split <;> split <;> simp_all
theorem State.irqPend_compare (s : State) : s.irqPend.getLsbD 3 = s.cmpHit := by
  unfold State.irqPend; split <;> split <;> split <;> split <;> simp_all

/-- Settles O59: every step ends in the passing of clk. -/
theorem compareKept : Obligations.CompareKept := by
  intro s t h
  obtain ⟨u, rfl, -⟩ := step_eq_next h
  refine ⟨fun hc => ?_, u, rfl, u.tick_cycles, u.tick_mem, u.tick_notices⟩
  have hit := u.tick_cmpHit hc
  exact ⟨hit, by rw [State.irqPend_compare, hit]⟩

end Sys2Proof.Machine
end

section
/-! PROOFS. The state after reset (R45, Table 1.13). -/

open Sys2Proof Sys2Proof.Machine Sys2Proof.Claims
namespace Sys2Proof.Machine

theorem State.core_reset_hub {c : Nat} (h : 512 ≤ c) (h' : c < 520) : State.reset.core c = Core.hubReset := by
  interval_cases c <;> rfl

theorem State.core_reset_other {c : Nat} (h : c < 512 ∨ 520 ≤ c) : State.reset.core c = Core.reset := by
  simp only [State.core, State.reset, sget]
  repeat rw [if_neg (by omega)]

theorem Core.ctx_hubReset (t : Nat) : Core.hubReset.ctx t = Ctx.reset := rfl
theorem Core.stage_hubReset (t : Nat) :
    Core.hubReset.stage t = if t = 0 then { Stage.reset with state := .eligible } else Stage.reset := by
  simp only [Core.stage, Core.hubReset, sget, eq_comm]

/-- A core after reset is a hub core's or a compute core's. -/
theorem State.core_reset (c : Nat) :
    (512 ≤ c ∧ c < 520 ∧ State.reset.core c = Core.hubReset) ∨ (¬ (512 ≤ c ∧ c < 520) ∧ State.reset.core c = Core.reset) := by
  by_cases h : 512 ≤ c ∧ c < 520
  · exact .inl ⟨h.1, h.2, State.core_reset_hub h.1 h.2⟩
  · exact .inr ⟨h, State.core_reset_other (by omega)⟩

/-- The fields of a core in which a hub core after reset is as a compute core. -/
theorem State.core_reset_eq (c : Nat) : ∃ l, State.reset.core c = { Core.reset with stages := l } := by
  rcases State.core_reset c with ⟨-, -, h⟩ | ⟨-, h⟩
  · exact ⟨_, h⟩
  · exact ⟨[], h⟩

/-- Settles O60: every core after reset is Core.reset but for the stage of a hub core. -/
theorem resetState : Obligations.ResetState := by
  refine ⟨rfl, fun _ => rfl, fun c t => ?_, fun c n => ?_, fun c => ?_, fun c m => ?_, fun r => ?_, fun r => ?_, fun j => ⟨rfl, rfl⟩,
    ?_, rfl, rfl, ?_, fun h hh => ?_, fun c hc => ?_, rfl, fun _ => rfl, rfl, rfl⟩
  · rcases State.core_reset c with ⟨h1, h2, h⟩ | ⟨h1, h⟩
    · simp [h, h1, h2, Core.stage_hubReset, Core.ctx_hubReset]
    · rw [h, if_neg (by tauto)]; exact ⟨rfl, rfl⟩
  · obtain ⟨l, h⟩ := State.core_reset_eq c
    rw [h]; exact ⟨rfl, rfl, rfl, rfl, rfl, rfl, rfl, rfl, rfl⟩
  · obtain ⟨l, h⟩ := State.core_reset_eq c
    rw [h]; exact ⟨rfl, rfl, rfl⟩
  · rfl
  · by_cases h : r = 0
    · simp [State.g, h]
    · rw [State.g, if_neg h]; rfl
  · by_cases h : r = 0
    · simp [State.p, h]
    · rw [State.p, if_neg h, decide_eq_false h]; rfl
  · decide
  · decide
  · have hk := State.core_reset_hub (c := 512 + h) (by omega) (by omega)
    rw [hk]
    refine ⟨rfl, rfl, rfl, rfl, rfl, ?_⟩
    interval_cases h <;> rfl
  · have hk := State.core_reset_other (c := c) (by omega)
    have hb : isHub c = false := decide_eq_false (by omega)
    refine ⟨fun t _ => by rw [hk]; rfl, fun i => ?_, fun n => by rw [hk]; rfl⟩
    simp [State.canRun, hb, hk, Core.reset]

end Sys2Proof.Machine
end

section
/-! PROOFS. Traps of a hub core and the entry of an interrupt (R35, R36, R402, R403). -/

open Sys2Proof Sys2Proof.Machine Sys2Proof.Claims
namespace Sys2Proof.Machine

/-! ## Fields of the state that an update of a core leaves alone -/

theorem State.cores_setCore (s : State) (c : Nat) (k : Core) : { s.setCore c k with cores := s.cores } = s := rfl
theorem State.cores_modMe (s : State) (f : Core → Core) : { s.modMe f with cores := s.cores } = s := rfl

/-! ## Traps of a hub core (R35) -/

theorem causeWord_eq (cause slot detail : Nat) : causeWord cause slot detail = causeBits cause slot detail := by
  simp [causeWord, causeBits, fld, Nat.shiftLeft_eq]

theorem State.takeException_hub {s : State} (h : s.hub = true) (i : TrapInfo) (slot : Nat) (pc : Addr) :
    s.takeException i slot pc = s.modMe fun k => k.takeTrap (trapLevel k.hub.priv) i.cause slot i.detail pc := by
  simp [State.takeException, h]

theorem State.takeException_compute {s : State} (h : s.hub = false) (i : TrapInfo) (slot : Nat) (pc : Addr) :
    s.takeException i slot pc = s.haltStage s.focus s.stg s.stream i slot pc := by
  simp [State.takeException, h]

/-- A trap to level M. -/
theorem Core.takeTrap_m (k : Core) (v slot detail : Nat) (pc : Addr) : k.takeTrap .m v slot detail pc =
    { k with pc := k.hub.bankM.vec + BitVec.ofNat 40 (32 * v), hub := { k.hub with priv := .m, ie := false, bankM :=
      { k.hub.bankM with cause := causeBits v slot detail, pc := pc, pie := k.hub.ie, ppriv := k.hub.priv } } } := by
  rw [← causeWord_eq]; rfl

/-- A trap to level S. -/
theorem Core.takeTrap_s (k : Core) (v slot detail : Nat) (pc : Addr) : k.takeTrap .s v slot detail pc =
    { k with pc := k.hub.bankS.vec + BitVec.ofNat 40 (32 * v), hub := { k.hub with priv := .s, ie := false, bankS :=
      { k.hub.bankS with cause := causeBits v slot detail, pc := pc, pie := k.hub.ie, ppriv := k.hub.priv } } } := by
  rw [← causeWord_eq]; rfl

/-- Settles O20: the trap goes to the bank of its level. -/
theorem hubTrap : Obligations.HubTrap := by
  intro s i slot pc hub h t
  have ht : t.me = s.me.takeTrap (trapLevel s.me.hub.priv) i.cause slot i.detail pc := by
    simp only [t, State.takeException_hub hub, State.me_modMe]
  refine ⟨fun hp => ?_, fun hp => ?_, ?_, fun c hc => ?_, ?_⟩
  · have hl : trapLevel s.me.hub.priv = .s := if_neg hp
    rw [ht, hl, Core.takeTrap_s]; exact ⟨rfl, rfl⟩
  · have hp' : s.me.hub.priv = .m := hp
    have hl : trapLevel s.me.hub.priv = .m := if_pos hp'
    rw [ht, hl, Core.takeTrap_m, hp']; exact ⟨rfl, rfl⟩
  · rw [ht]; rfl
  · simp only [t, State.takeException_hub hub, State.core_modMe, if_neg hc]
  · simp only [t, State.takeException_hub hub, State.cores_modMe]

/-! ## Interrupts (R36, R403) -/

/-- The interrupt that a hub core takes to level M is that of the security block. -/
theorem State.takeIrq_security (s : State) (c : Nat) : s.takeIrq c 2 = s.modCore c fun k =>
    { k with pc := k.hub.bankM.vec + BitVec.ofNat 40 (32 * 0x22), hub := { k.hub with priv := .m, ie := false, idle := false, bankM :=
      { k.hub.bankM with cause := causeBits 0x22 7 0, pc := k.pc, pie := k.hub.ie, ppriv := k.hub.priv } } } := by
  simp only [State.takeIrq, irqLevel, if_true, Core.takeTrap_m]

/-- Every other one goes to level S. -/
theorem State.takeIrq_other (s : State) (c : Nat) {n : Nat} (h : n ≠ 2) : s.takeIrq c n = s.modCore c fun k =>
    { k with pc := k.hub.bankS.vec + BitVec.ofNat 40 (32 * (0x20 + n)), hub := { k.hub with priv := .s, ie := false, idle := false, bankS :=
      { k.hub.bankS with cause := causeBits (0x20 + n) 7 0, pc := k.pc, pie := k.hub.ie, ppriv := k.hub.priv } } } := by
  simp only [State.takeIrq, irqLevel, if_neg h, Core.takeTrap_s]

end Sys2Proof.Machine
end

section
/-! PROOFS. Which interrupt a hub core takes, and the loop branch with the loop registers (R36, R100, R150, Table 1.9). -/

open Sys2Proof Sys2Proof.Machine Sys2Proof.Claims
namespace Sys2Proof.Machine

/-- Source n is pending and enabled on core c. -/
def State.pendsAt (s : State) (c n : Nat) : Prop := s.irqPend.getLsbD n = true ∧ (s.core c).hub.irqEn.getLsbD n = true

theorem State.pendsAt_iff (s : State) (c n : Nat) : (s.irqPend &&& (s.core c).hub.irqEn).getLsbD n = true ↔ s.pendsAt c n := by
  simp [State.pendsAt]

/-- Which interrupt is taken: the security block's first, else the lowest where the level allows it. -/
theorem State.irqToTake_eq_some {s : State} {c n : Nat} (hie : (s.core c).hub.ie = true) (hn : n < 4) (hp : s.pendsAt c n)
    (h : n ≠ 2 → ¬ s.pendsAt c 2 ∧ (s.core c).hub.priv ≠ .m ∧ ∀ m < n, ¬ s.pendsAt c m) : s.irqToTake c = some n := by
  simp only [← State.pendsAt_iff] at hp h
  simp only [State.irqToTake, hie]
  generalize s.irqPend &&& (s.core c).hub.irqEn = x at hp h
  by_cases h2 : n = 2
  · subst h2; simp only [hp]; rfl
  · obtain ⟨h2, hm, hlow⟩ := h h2
    simp only [h2, hm, Bool.not_true, Bool.false_eq_true, if_false]
    interval_cases n
    · simp only [hp, if_true]
    · simp only [hp, hlow 0 (by omega), if_true, Bool.false_eq_true, if_false]
    · contradiction
    · simp only [hp, hlow 0 (by omega), hlow 1 (by omega), if_true, Bool.false_eq_true, if_false]

/-- None is taken where IE is clear, where nothing enabled is pending, and at M where the security block is quiet. -/
theorem State.irqToTake_eq_none {s : State} {c : Nat}
    (h : (s.core c).hub.ie = false ∨ (∀ i < 4, ¬ s.pendsAt c i) ∨ ((s.core c).hub.priv = .m ∧ ¬ s.pendsAt c 2)) : s.irqToTake c = none := by
  simp only [← State.pendsAt_iff] at h
  simp only [State.irqToTake]
  generalize s.irqPend &&& (s.core c).hub.irqEn = x at h
  rcases h with h | h | ⟨h, h2⟩
  · simp only [h, Bool.not_false, if_true]
  · simp only [h 0 (by omega), h 1 (by omega), h 2 (by omega), h 3 (by omega), Bool.false_eq_true, if_false, ite_self]
  · simp only [h, h2, Bool.false_eq_true, if_true, if_false, ite_self]

theorem exec_interrupt (h : Nat) (s : State) : Machine.exec (.interrupt h) s = .next ((interrupt h s).getD s) := rfl

/-- Settles O24: by the interrupt that is taken, to level M or to level S. -/
theorem interrupts : Obligations.Interrupts := by
  intro s h n c k pend lvl bank
  refine ⟨s.irqPend_notices, s.irqPend_management, s.irqPend_security, s.irqPend_compare, fun live ie hn hp hfirst => ?_, fun hnone => ?_⟩
  · have htake : s.irqToTake c = some n := State.irqToTake_eq_some ie hn hp hfirst
    have live' : s.hubLive (512 + h) = true := live
    have htake' : s.irqToTake (512 + h) = some n := htake
    have hexec : Machine.exec (.interrupt h) s = .next (s.takeIrq c n) := by
      simp [exec_interrupt, interrupt, live', htake', c]
    refine ⟨_, hexec, rfl, fun d hd => ?_, ?_⟩
    · rw [State.takeIrq, State.core_modCore, if_neg hd]
    · by_cases h2 : n = 2
      · subst h2
        rw [State.takeIrq_security, State.core_modCore, if_pos rfl]
        exact ⟨rfl, rfl, rfl, rfl, rfl, rfl⟩
      · have hl : lvl = .s := if_neg h2
        have hb : bank = k.hub.bankS := if_neg h2
        rw [State.takeIrq_other s c h2, State.core_modCore, if_pos rfl, hl, hb]
        exact ⟨rfl, rfl, rfl, rfl, rfl, rfl⟩
  · have hnone' : s.irqToTake (512 + h) = none := State.irqToTake_eq_none hnone
    simp [exec_interrupt, interrupt, hnone']

/-! ## The loop branch (R150) -/

/-- Level i ends at a bundle. -/
theorem endsAt_iff (s : State) (j : Nat) (pc : Addr) :
    endsAt s j pc ↔ ((s.loop j).len != 0 && pc == (s.loop j).start + 32 * ((s.loop j).len.setWidth 40 - 1)) = true := by
  simp [endsAt]

theorem State.loopBranch_skip {s : State} {pc : Addr} {j : Nat} (h : ¬ endsAt s j pc) : s.loopBranch pc (j + 1) = s.loopBranch pc j := by
  rw [endsAt_iff] at h
  simp only [State.loopBranch, if_neg h]

theorem State.loopBranch_back {s : State} {pc : Addr} {j : Nat} (h : endsAt s j pc) (hc : (s.loop j).count ≠ 1) :
    s.loopBranch pc (j + 1) = (s.setLoop j { s.loop j with count := (s.loop j).count - 1 }, some (s.loop j).start) := by
  rw [endsAt_iff] at h
  have hn : ((s.loop j).count - 1 != 0) = true := by
    rw [bne_iff_ne]; exact fun e => hc (sub_eq_zero.mp e)
  simp only [State.loopBranch, if_pos h, if_pos hn]

theorem State.loopBranch_last {s : State} {pc : Addr} {j : Nat} (h : endsAt s j pc) (hc : (s.loop j).count = 1) :
    s.loopBranch pc (j + 1) = (s.setLoop j { s.loop j with count := 0, len := 0 }).loopBranch pc j := by
  rw [endsAt_iff] at h
  have hn : (s.loop j).count - 1 = 0 := by rw [hc]; rfl
  simp only [State.loopBranch, if_pos h, hn]
  rfl

/-- No level from j to i - 1 ends at the bundle: those are passed over. -/
theorem State.loopBranch_none {s : State} {pc : Addr} {j i : Nat} (hj : j ≤ i) (h : ∀ k, j ≤ k → k < i → ¬ endsAt s k pc) :
    s.loopBranch pc i = s.loopBranch pc j := by
  induction i with
  | zero => rw [Nat.le_zero.mp hj]
  | succ i ih =>
    rcases Nat.eq_or_lt_of_le hj with rfl | hlt
    · rfl
    · rw [State.loopBranch_skip (h i (by omega) (by omega)), ih (by omega) fun k h1 h2 => h k h1 (by omega)]

/-- A write of a loop level is an update of the running context, of the stream's bank in split mode. -/
def Ctx.putLoop (x : Ctx) (stream j : Nat) (l : Loop) : Ctx :=
  if x.split.isSome then x.modBank stream fun b => { b with loops := sset Loop.reset b.loops j l }
  else { x with loops := sset Loop.reset x.loops j l }
def Ctx.getLoop (x : Ctx) (stream j : Nat) : Loop :=
  if x.split.isSome then sget Loop.reset (x.bank stream).loops j else sget Loop.reset x.loops j

theorem State.loop_eq (s : State) (j : Nat) : s.loop j = s.ctx.getLoop s.stream j := rfl

theorem State.setLoop_eq (s : State) (j : Nat) (l : Loop) : s.setLoop j l = s.modCtx fun x => x.putLoop s.stream j l := by
  unfold State.setLoop
  split <;> rename_i hb <;> exact State.modCtx_congr (by simp_all [Ctx.putLoop, State.inSplit])

@[simp] theorem Ctx.isSome_putLoop (x : Ctx) (i j : Nat) (l : Loop) : (x.putLoop i j l).split.isSome = x.split.isSome := by
  unfold Ctx.putLoop; split <;> simp

theorem Ctx.getLoop_putLoop (x : Ctx) (i j k : Nat) (l : Loop) :
    (x.putLoop i j l).getLoop i k = if k = j then l else x.getLoop i k := by
  unfold Ctx.getLoop Ctx.putLoop
  by_cases hs : x.split.isSome = true
  · simp [hs, Ctx.bank_modBank hs, sget_sset]
  · simp [hs, sget_sset]

theorem State.loop_setLoop (s : State) (j k : Nat) (l : Loop) : (s.setLoop j l).loop k = if k = j then l else s.loop k := by
  simp only [State.setLoop_eq, State.loop_eq, State.ctx_modCtx, State.stream_modCtx, Ctx.getLoop_putLoop]

@[simp] theorem State.hub_modCtx (s : State) (f : Ctx → Ctx) : (s.modCtx f).hub = s.hub := rfl
@[simp] theorem State.hub_setLoop (s : State) (j : Nat) (l : Loop) : (s.setLoop j l).hub = s.hub := by
  rw [State.setLoop_eq, State.hub_modCtx]

/-- A level made inactive ends nowhere; the others end where they did. -/
theorem endsAt_setLoop_inactive {s : State} {j k : Nat} {l : Loop} {pc : Addr} (hl : l.len = 0) (h : endsAt (s.setLoop j l) k pc) :
    k ≠ j ∧ endsAt s k pc := by
  unfold endsAt at *
  rw [State.loop_setLoop] at h
  by_cases hk : k = j
  · rw [if_pos hk] at h; exact absurd hl h.1
  · rw [if_neg hk] at h; exact ⟨hk, h⟩

theorem State.retire_seq (s : State) (pc : Addr) : s.retire pc .seq = s.fallThrough pc id := rfl

/-- A level that goes back to its start takes control there. -/
theorem State.retire_back {s t : State} {pc a : Addr} (h : s.loopBranch pc 4 = (t, some a)) : s.retire pc .seq = t.setPc a := by
  simp [State.retire_seq, State.fallThrough, h]

/-- With no level left the bundle goes on, or past the end of a compute core's code. -/
theorem State.retire_on {s t : State} {pc : Addr} (h : s.loopBranch pc 4 = (t, none)) :
    s.retire pc .seq = if s.hub = false ∧ pc.toNat = 4095 * 32 then t.takeException (illopT 0x0C) 7 pc else t.setPc (pc + 32) := by
  simp only [State.retire_seq, State.fallThrough, h, id_eq, Bool.and_eq_true, Bool.not_eq_true', beq_iff_eq]
  rfl

/-- What a bundle goes on to depends on its loop branch alone. -/
theorem State.retire_congr {s t : State} {pc : Addr} (hb : s.loopBranch pc 4 = t.loopBranch pc 4) (hh : s.hub = t.hub) :
    s.retire pc .seq = t.retire pc .seq := by
  simp only [State.retire_seq, State.fallThrough, hb, hh]

/-! ## The loop registers (Table 1.9) -/

theorem Loop.writeCnt_count (l : Loop) (v : Word) : (l.writeCnt v).count.toNat = v.toNat % 2 ^ 32 := by
  simp [Loop.writeCnt, BitVec.extractLsb'_toNat]

theorem Loop.writeCnt_count_eq_zero (l : Loop) (v : Word) : (l.writeCnt v).count = 0 ↔ v.toNat % 2 ^ 32 = 0 := by
  rw [← Loop.writeCnt_count l v]
  exact ⟨fun h => by rw [h]; rfl, fun h => BitVec.eq_of_toNat_eq h⟩

theorem Loop.writeCnt_len (l : Loop) (v : Word) :
    (l.writeCnt v).len.toNat = if v.toNat % 2 ^ 32 = 0 then 0 else v.toNat / 2 ^ 52 := by
  have hlt : v.toNat / 2 ^ 52 < 2 ^ 12 := by have := v.isLt; omega
  have hlen : (l.writeCnt v).len = if (l.writeCnt v).count = 0 then 0 else v.extractLsb' 52 12 := rfl
  rw [hlen]
  by_cases h : v.toNat % 2 ^ 32 = 0
  · rw [if_pos h, if_pos ((Loop.writeCnt_count_eq_zero l v).mpr h)]; rfl
  · rw [if_neg h, if_neg (mt (Loop.writeCnt_count_eq_zero l v).mp h), BitVec.extractLsb'_toNat, Nat.shiftRight_eq_div_pow,
      Nat.mod_eq_of_lt hlt]

theorem Loop.writeStart_start (l : Loop) (v : Word) (hub : Bool) :
    (l.writeStart hub v).start.toNat = v.toNat % (if hub then 2 ^ 40 else 2 ^ 17) / 32 * 32 := by
  have hv := v.isLt
  cases hub <;> simp only [Loop.writeStart, fld, Nat.shiftRight_eq_div_pow, BitVec.toNat_ofNat, if_true, Bool.false_eq_true, if_false] <;>
    omega

/-- Settles O16: the levels above j do not end here, so the loop branch is that of level j - 1. -/
theorem loopBranch : Obligations.LoopBranch := by
  refine ⟨fun s pc j hj hnone => ?_, fun l v hub => ⟨l.writeCnt_count v, l.writeCnt_len v, rfl, l.writeStart_start v hub, rfl, rfl, fun hc => ?_⟩⟩
  · have hb : s.loopBranch pc 4 = s.loopBranch pc j := State.loopBranch_none hj fun k h1 h2 => hnone k h1 h2
    refine ⟨fun i hi he hc => ?_, fun i hi he hc => ?_, fun h0 hgo => ?_, fun h0 hh hpc => ?_⟩
    · subst hi
      exact State.retire_back (hb.trans (State.loopBranch_back he hc))
    · subst hi
      rw [State.loopBranch_last he hc] at hb
      refine State.retire_congr (hb.trans (State.loopBranch_none (by omega) fun k h1 h2 hk => ?_).symm) (by simp)
      obtain ⟨hne, hk⟩ := endsAt_setLoop_inactive rfl hk
      exact hnone k (by omega) h2 hk
    · subst h0
      rw [State.retire_on hb, if_neg]
      rintro ⟨h1, h2⟩
      rcases hgo with h | h
      · rw [h] at h1; cases h1
      · exact h h2
    · subst h0
      rw [State.retire_on hb, if_pos ⟨hh, hpc⟩]
  · have h0 : v.toNat % 2 ^ 32 ≠ 0 := mt (Loop.writeCnt_count_eq_zero l v).mpr hc
    rw [loopCntWord, Loop.writeCnt_len, Loop.writeCnt_count, if_neg h0, Nat.shiftLeft_eq]

end Sys2Proof.Machine
end

section
/-! PROOFS. Numbers in memory, and the logbook entry of a stage fault (R394, R395). -/

open Sys2Proof Sys2Proof.Machine Sys2Proof.Claims
namespace Sys2Proof.Machine

/-! ## Numbers in memory -/

/-- The lowest n bytes of a value, as a number. -/
theorem value_of_bytes {s : State} {pa n : Nat} {x : Word} (h : ∀ i < n, s.byte (pa + i) = elem 8 i x) : value s pa n = x.toNat % 2 ^ (8 * n) := by
  induction n with
  | zero => simp [value, Nat.mod_one]
  | succ n ih =>
    rw [value, ih fun i hi => h i (by omega), h n (by omega), elem, BitVec.extractLsb'_toNat, Nat.shiftRight_eq_div_pow,
      show (256 : Nat) ^ n = 2 ^ (8 * n) by rw [Nat.pow_mul], show 8 * (n + 1) = 8 * n + 8 by omega, Nat.pow_add, Nat.mod_mul]

theorem length_bytesOf {w : Nat} (n : Nat) (x : BitVec w) : (bytesOf n x).length = n := by simp [bytesOf]

theorem getD_bytesOf {w n i : Nat} (x : BitVec w) (h : i < n) : (bytesOf n x).getD i 0 = elem 8 i x := by
  simp [bytesOf, h]

/-- One of the four words of a record of 32 bytes. -/
theorem getD_fourWords (a b c d : Word) (j i : Nat) (hj : j < 4) (hi : i < 8) :
    (bytesOf 8 a ++ bytesOf 8 b ++ bytesOf 8 c ++ bytesOf 8 d).getD (8 * j + i) 0 = elem 8 i ([a, b, c, d].getD j 0) := by
  interval_cases j <;> interval_cases i <;> rfl

/-! ## The logbook entry of a stage fault (R394, R395) -/

/-- Where the next logbook entry goes. -/
def State.logBase (s : State) : Nat := 0x870000000 + 32 * (s.logSeq.toNat % 1024)

/-- The words of a logbook entry (Table 18.3). -/
def State.logWords (s : State) (cause slot stage : Nat) (world : Bool) (owner : BitVec 4) (coreNo : Nat) (charge : BitVec 16)
    (pc detail addr : Nat) : List Word :=
  [BitVec.ofNat 64 (s.logSeq.toNat * 2 ^ 32 + cause * 2 ^ 24 + slot * 2 ^ 21 + stage * 2 ^ 18 + (if world then 2 ^ 16 else 0) +
     owner.toNat * 2 ^ 12 + coreNo), BitVec.ofNat 64 (charge.toNat * 2 ^ 48 + pc), BitVec.ofNat 64 detail, BitVec.ofNat 64 addr]

theorem State.byte_congr {s t : State} (h : t.mem = s.mem) (a : Nat) : t.byte a = s.byte a := by rw [State.byte, h]; rfl

theorem State.log_mem (s : State) (cause slot stage : Nat) (world : Bool) (owner : BitVec 4) (coreNo : Nat) (charge : BitVec 16)
    (pc detail addr : Nat) :
    let w := (s.logWords cause slot stage world owner coreNo charge pc detail addr).getD
    (s.log cause slot stage world owner coreNo charge pc detail addr).mem =
      (s.store s.logBase (bytesOf 8 (w 0 0) ++ bytesOf 8 (w 1 0) ++ bytesOf 8 (w 2 0) ++ bytesOf 8 (w 3 0))).mem := by
  simp only [State.log, State.logWords, State.logBase, Nat.shiftLeft_eq, Nat.one_mul, List.getD_cons_zero, List.getD_cons_succ]

variable (s : State) (cause slot stage : Nat) (world : Bool) (owner : BitVec 4) (coreNo : Nat) (charge : BitVec 16)
  (pc detail addr : Nat)

/-- A log entry writes no byte outside its place. -/
theorem State.byte_log_other {a : Nat} (h : a < s.logBase ∨ s.logBase + 32 ≤ a) :
    (s.log cause slot stage world owner coreNo charge pc detail addr).byte a = s.byte a := by
  rw [State.byte_congr (s.log_mem ..), State.byte_store, if_neg]
  simp only [List.length_append, length_bytesOf]; omega

/-- Word j of a log entry reads back. -/
theorem State.value_log {t : State} (ht : t.mem = (s.log cause slot stage world owner coreNo charge pc detail addr).mem) {j : Nat}
    (hj : j < 4) : value t (s.logBase + 8 * j) 8 =
      ((s.logWords cause slot stage world owner coreNo charge pc detail addr).getD j 0).toNat := by
  rw [value_of_bytes (x := (s.logWords cause slot stage world owner coreNo charge pc detail addr).getD j 0), Nat.mod_eq_of_lt (BitVec.isLt _)]
  intro i hi
  rw [State.byte_congr (ht.trans (s.log_mem ..)), State.byte_store, if_pos, show s.logBase + 8 * j + i - s.logBase = 8 * j + i by omega,
    getD_fourWords _ _ _ _ j i hj hi]
  · rfl
  · simp only [List.length_append, length_bytesOf]; omega

end Sys2Proof.Machine
end

section
/-! PROOFS. A stage fault on a compute core (R33, R392, R396). -/

open Sys2Proof Sys2Proof.Machine Sys2Proof.Claims
namespace Sys2Proof.Machine

@[simp] theorem State.log_cores (s : State) (cause slot stage : Nat) (world : Bool) (owner : BitVec 4) (coreNo : Nat) (charge : BitVec 16)
    (pc detail addr : Nat) : (s.log cause slot stage world owner coreNo charge pc detail addr).cores = s.cores := by simp [State.log]
@[simp] theorem State.log_core (s : State) (cause slot stage : Nat) (world : Bool) (owner : BitVec 4) (coreNo : Nat) (charge : BitVec 16)
    (pc detail addr c : Nat) : (s.log cause slot stage world owner coreNo charge pc detail addr).core c = s.core c := by
  simp [State.core]
theorem State.log_notices (s : State) (cause slot stage : Nat) (world : Bool) (owner : BitVec 4) (coreNo : Nat) (charge : BitVec 16)
    (pc detail addr : Nat) : (s.log cause slot stage world owner coreNo charge pc detail addr).notices = s.notices := by simp [State.log]
theorem State.log_logSeq (s : State) (cause slot stage : Nat) (world : Bool) (owner : BitVec 4) (coreNo : Nat) (charge : BitVec 16)
    (pc detail addr : Nat) : (s.log cause slot stage world owner coreNo charge pc detail addr).logSeq = s.logSeq + 1 := rfl

/-- The core whose stage t halts. -/
def Core.halt (k : Core) (t stream : Nat) (i : TrapInfo) (slot : Nat) (pc : Addr) : Core :=
  { (k.modStage t fun x => { x with state := .halted, haltCause := BitVec.ofNat 8 i.cause, haltPc := pc,
                                    haltStream := stream, aging := 0 }) with
    trapCause := causeWord i.cause slot i.detail, trapPc := pc
    firing := if k.firing = some t then none else k.firing }

theorem Core.stage_halt (k : Core) (t stream : Nat) (i : TrapInfo) (slot : Nat) (pc : Addr) (x : Nat) :
    (k.halt t stream i slot pc).stage x = if x = t then { (k.stage t) with
      state := .halted, haltCause := BitVec.ofNat 8 i.cause, haltPc := pc, haltStream := stream, aging := 0 } else k.stage x := by
  simp only [Core.halt, Core.stage, Core.modStage, Core.setStage, sget_sset]

/-- A stage fault: the core, then the logbook entry, then the notice (R392). -/
theorem State.haltStage_eq (s : State) (c t stream : Nat) (i : TrapInfo) (slot : Nat) (pc : Addr) : ∃ n,
    s.haltStage c t stream i slot pc = ((s.setCore c ((s.core c).halt t stream i slot pc)).log i.cause slot t (s.core c).ctxWorld
      (s.core c).ctxOwner (logNum c) ((s.core c).ctx t).charge pc.toNat (fld i.detail 0 32) i.addr).notify n := ⟨_, rfl⟩

@[simp] theorem State.notify_cores (s : State) (n : Notice) : (s.notify n).cores = s.cores := rfl
@[simp] theorem State.notify_core (s : State) (n : Notice) (c : Nat) : (s.notify n).core c = s.core c := rfl
@[simp] theorem State.notify_mem (s : State) (n : Notice) : (s.notify n).mem = s.mem := rfl

theorem State.core_haltStage (s : State) (c t stream : Nat) (i : TrapInfo) (slot : Nat) (pc : Addr) (d : Nat) :
    (s.haltStage c t stream i slot pc).core d = if d = c then (s.core c).halt t stream i slot pc else s.core d := by
  obtain ⟨n, h⟩ := s.haltStage_eq c t stream i slot pc
  rw [h, State.notify_core, State.log_core, State.core_setCore]

/-- The notice of a stage fault (Table 18.4). -/
theorem State.notices_haltStage (s : State) (c t stream : Nat) (i : TrapInfo) (slot : Nat) (pc : Addr) :
    (s.haltStage c t stream i slot pc).notices = s.notices ++ [{
      w0 := BitVec.ofNat 64 (s.logSeq.toNat * 2 ^ 32 + (if (s.core c).ctxWorld then 2 ^ 12 else 0) + (s.core c).ctxOwner.toNat * 2 ^ 8 + 1),
      w1 := BitVec.ofNat 64 (i.cause * 2 ^ 24 + t * 2 ^ 16 + logNum c), w2 := pc.setWidth 64, w3 := BitVec.ofNat 64 (i.detail % 2 ^ 32) }] := by
  simp only [State.haltStage, State.notify, State.log_notices, State.setCore_notices, noticeW0, Nat.shiftLeft_eq, Nat.one_mul, fld,
    Nat.shiftRight_zero]

theorem State.logSeq_haltStage (s : State) (c t stream : Nat) (i : TrapInfo) (slot : Nat) (pc : Addr) :
    (s.haltStage c t stream i slot pc).logSeq = s.logSeq + 1 := rfl

/-- Memory after a stage fault: that of the logbook entry. -/
theorem State.mem_haltStage (s : State) (c t stream : Nat) (i : TrapInfo) (slot : Nat) (pc : Addr) :
    (s.haltStage c t stream i slot pc).mem = ((s.setCore c ((s.core c).halt t stream i slot pc)).log i.cause slot t (s.core c).ctxWorld
      (s.core c).ctxOwner (logNum c) ((s.core c).ctx t).charge pc.toNat (fld i.detail 0 32) i.addr).mem := by
  obtain ⟨n, h⟩ := s.haltStage_eq c t stream i slot pc
  rw [h, State.notify_mem]

/-- Settles O21: the entry's words are below 2^64, so each reads back as it was written. -/
theorem stageFault : Obligations.StageFault := by
  intro s i slot pc n hub hf hcause hslot hn hfocus t base
  have hstg : s.stg = n := by simp [State.stg, hub, hf]
  have ht : t = s.haltStage s.focus n s.stream i slot pc := by rw [← hstg]; exact State.takeException_compute hub i slot pc
  have hlog : logNum s.focus = s.focus := by simp [logNum, isHub]; omega
  have hcore := s.core_haltStage s.focus n s.stream i slot pc
  have hmem := (congrArg State.mem ht).trans (s.mem_haltStage s.focus n s.stream i slot pc)
  have hme : t.me = s.me.halt n s.stream i slot pc := by
    rw [ht]; exact (hcore s.focus).trans (if_pos rfl)
  have hval (j : Nat) (hj : j < 4) := State.value_log _ _ _ _ _ _ _ _ _ _ _ hmem hj
  have hseq := s.logSeq.isLt
  have howner := s.me.ctxOwner.isLt
  refine ⟨?_, ?_, ?_, ?_, fun x hx => ?_, fun c hc => ?_, ?_, ?_, ?_, ?_, ?_, fun a ha => ?_, ?_⟩
  · rw [hme, ← causeWord_eq]; rfl
  · rw [hme]; rfl
  · rw [hme]; exact if_pos hf
  · rw [hme, Core.stage_halt, if_pos rfl]
  · rw [hme, Core.stage_halt, if_neg hx]
  · rw [ht, hcore, if_neg hc]
  · rw [ht, State.logSeq_haltStage]
  · rw [show base = (s.setCore s.focus _).logBase + 8 * 0 from rfl, hval _ (by omega), hlog]
    simp only [State.logWords, List.getD_cons_zero, BitVec.toNat_ofNat]
    apply Nat.mod_eq_of_lt
    split <;> omega
  · rw [show base + 8 = (s.setCore s.focus _).logBase + 8 * 1 from rfl, hval _ (by omega)]
    have hch := (s.me.ctx n).charge.isLt
    have hpc := pc.isLt
    simp only [State.logWords, List.getD_cons_zero, List.getD_cons_succ, BitVec.toNat_ofNat]
    apply Nat.mod_eq_of_lt
    omega
  · rw [show base + 16 = (s.setCore s.focus _).logBase + 8 * 2 from rfl, hval _ (by omega)]
    simp only [State.logWords, List.getD_cons_zero, List.getD_cons_succ, BitVec.toNat_ofNat, fld, Nat.shiftRight_zero]
    omega
  · rw [show base + 24 = (s.setCore s.focus _).logBase + 8 * 3 from rfl, hval _ (by omega)]
    simp only [State.logWords, List.getD_cons_zero, List.getD_cons_succ, BitVec.toNat_ofNat]
  · rw [State.byte_congr hmem]
    exact State.byte_log_other _ _ _ _ _ _ _ _ _ _ _ ha
  · rw [ht, State.notices_haltStage, hlog, State.me]

end Sys2Proof.Machine
end

section
/-! PROOFS. Split streams: the banks of a split, and joins (R44, R162, R163). -/

open Sys2Proof Sys2Proof.Machine Sys2Proof.Claims
namespace Sys2Proof.Machine

/-! ## Stores written key by key -/

/-- Reading after the keys b, b + 1, ... have been written. -/
theorem sget_foldl_sset {α : Type} [DecidableEq α] (d : α) (m : Store α) (b n x : Nat) (f : Nat → α) :
    sget d ((List.range n).foldl (fun m i => sset d m (b + i) (f i)) m) x = if b ≤ x ∧ x < b + n then f (x - b) else sget d m x := by
  induction n with
  | zero => simp
  | succ n ih =>
    rw [List.range_succ, List.foldl_append, List.foldl_cons, List.foldl_nil, sget_sset, ih]
    by_cases hx : x = b + n
    · rw [if_pos hx, if_pos (by omega), hx, Nat.add_sub_cancel_left]
    · rw [if_neg hx]
      by_cases hr : b ≤ x ∧ x < b + n
      · rw [if_pos hr, if_pos (by omega)]
      · rw [if_neg hr, if_neg (by omega)]

theorem sget_filter {α : Type} (d : α) (m : Store α) (f : Nat → Bool) (x : Nat) :
    sget d (m.filter fun e => f e.1) x = if f x then sget d m x else d := by
  induction m with
  | nil => simp [sget]
  | cons e t ih =>
    by_cases hx : e.1 = x
    · by_cases h : f x = true
      · simp [sget, hx, h]
      · simp only [sget, hx, List.filter_cons, h, if_false, Bool.false_eq_true, if_true] at ih ⊢
        exact ih
    · by_cases h : f e.1 = true
      · simp [h, sget, hx, ih]
      · simp [h, sget, hx, ih]

/-! ## Split streams (R44, R162, R163) -/

/-- The banks of a split: each stream has the stage's registers, predicates and loop levels. -/
theorem Ctx.splitBanks_bank (x : Ctx) (starts : List Addr) (now i : Nat) (h : i < 4) :
    sget Stream.reset (x.splitBanks starts now) i =
      { g := x.g.filter fun e => banked e.1, p := x.p, loops := x.loops, pc := starts.getD i 0, since := now, joined := false } := by
  have key := sget_foldl_sset Stream.reset [] 0 4 i fun j => 
    { g := x.g.filter fun e => banked e.1, p := x.p, loops := x.loops, pc := starts.getD j 0, since := now, joined := false }
  simp only [Nat.zero_add, Nat.zero_le, true_and, h, if_true, Nat.sub_zero] at key
  exact key

/-- A stream starts at an index of g(S). -/
theorem indexAddr (x : Word) (lo : Nat) : (x.extractLsb' lo 12).setWidth 40 <<< 5 = BitVec.ofNat 40 (32 * (x.toNat / 2 ^ lo % 4096)) := by
  apply BitVec.eq_of_toNat_eq
  simp only [BitVec.toNat_shiftLeft, BitVec.toNat_setWidth, BitVec.extractLsb'_toNat, BitVec.toNat_ofNat, Nat.shiftRight_eq_div_pow, Nat.shiftLeft_eq]
  omega

theorem splitStarts_eq (next : Addr) (x : Word) : splitStarts next x = [next, BitVec.ofNat 40 (32 * (x.toNat % 4096)),
    BitVec.ofNat 40 (32 * (x.toNat / 4096 % 4096)), BitVec.ofNat 40 (32 * (x.toNat / 2 ^ 24 % 4096))] := by
  simp only [splitStarts, indexAddr, Nat.pow_zero, Nat.div_one]
  rfl

/-- What a split leaves of a context. -/
theorem State.retire_stop (s : State) (pc : Addr) : s.retire pc .stop = s := rfl
theorem State.retire_join (s : State) (pc : Addr) : s.retire pc .join = s.retireJoin pc := rfl

/-- The streams of a context that goes back to VLIW mode. -/
theorem Ctx.unsplit_g (x : Ctx) (r : Nat) :
    sget 0 x.unsplit.g r = if 16 ≤ r ∧ r < 32 then sget 0 (x.bank 0).g r else sget 0 x.g r := by
  have key := sget_foldl_sset (0 : Word) x.g 16 16 r fun i => sget 0 (x.bank 0).g (16 + i)
  refine key.trans ?_
  by_cases h : 16 ≤ r ∧ r < 32
  · rw [if_pos h, if_pos h, Nat.add_sub_cancel' h.1]
  · rw [if_neg h, if_neg h]

theorem exec_split (g : Guard) (r : GReg) (s : State) : Machine.exec (.split g r) s = issue (opSplit g r) s := rfl
theorem exec_join (g : Guard) (s : State) : Machine.exec (.join g) s = issue (opJoin g) s := rfl

theorem opSplit_decodes {s : State} {g : Guard} {r : GReg} (hub : s.hub = false) (h : s.inSplit = false) :
    (opSplit g r).decodeFault s = none := by
  simp [SlotOp.decodeFault, SlotOp.forbidden, opSplit, cOp, hub, h, inSplitFault, Uses.none]

theorem opJoin_decodes {s : State} {g : Guard} (hub : s.hub = false) (h : s.inSplit = true) : (opJoin g).decodeFault s = none := by
  simp [SlotOp.decodeFault, SlotOp.forbidden, opJoin, cOp, hub, h, Uses.none]

/-- A state in which the running stage has been split. -/
def State.splitAt (s : State) (x : Word) : State :=
  { (s.modCtx fun c => { c with split := some (c.splitBanks (splitStarts (nextPc s.pc) x) s.ticks) }) with stream := 0 }

theorem exec_split_eq {s : State} {g : Guard} (hub : s.hub = false) (hg : s.guard g = true) (r : GReg) (h : s.inSplit = false) :
    Machine.exec (.split g r) s = ends s (s.splitAt (s.g r)) :=
  issue_commit (t := s.splitAt (s.g r)) (f := .stop) (opSplit_decodes hub h) hg (fun hh => by rw [hub] at hh; cases hh) rfl (by decide)

theorem State.ctx_withStream (s : State) (i : Nat) : ({ s with stream := i } : State).ctx = s.ctx := rfl

theorem State.ctx_splitAt (s : State) (x : Word) :
    (s.splitAt x).ctx = { s.ctx with split := some (s.ctx.splitBanks (splitStarts (nextPc s.pc) x) s.ticks) } := by
  rw [State.splitAt, State.ctx_withStream, State.ctx_modCtx]

/-- The state in which the running stream has joined. -/
def State.joinedAt (s : State) : State := s.modCtx fun x => x.modBank s.stream fun b => { b with joined := true }

theorem exec_join_eq {s : State} {g : Guard} (hub : s.hub = false) (hg : s.guard g = true) (h : s.inSplit = true) :
    Machine.exec (.join g) s = ends s (s.joinedAt.retireJoin s.pc) :=
  issue_commit (t := s.joinedAt) (f := .join) (opJoin_decodes hub h) hg (fun hh => by rw [hub] at hh; cases hh) rfl (by decide)

/-- Joining stream i changes no bank but its joined flag. -/
theorem State.bank_joinedAt {s : State} (h : s.inSplit = true) (j : Nat) :
    s.joinedAt.ctx.bank j = if j = s.stream then { s.ctx.bank s.stream with joined := true } else s.ctx.bank j := by
  rw [State.joinedAt, State.ctx_modCtx, Ctx.bank_modBank h]

/-- So a bank shows what it did. -/
theorem State.bank_joinedAt_eq {s : State} (h : s.inSplit = true) (j : Nat) :
    (s.joinedAt.ctx.bank j).pc = (s.ctx.bank j).pc ∧ (s.joinedAt.ctx.bank j).g = (s.ctx.bank j).g ∧
    (s.joinedAt.ctx.bank j).p = (s.ctx.bank j).p ∧ (s.joinedAt.ctx.bank j).loops = (s.ctx.bank j).loops := by
  rw [State.bank_joinedAt h]
  split
  · next e => rw [e]; exact ⟨rfl, rfl, rfl, rfl⟩
  · exact ⟨rfl, rfl, rfl, rfl⟩

theorem State.g_joinedAt (s : State) : s.joinedAt.ctx.g = s.ctx.g := by rw [State.joinedAt, State.ctx_modCtx, Ctx.g_modBank]

theorem State.loop_joinedAt {s : State} (h : s.inSplit = true) (j : Nat) : s.joinedAt.loop j = s.loop j := by
  have h' : s.joinedAt.ctx.split.isSome = true := by rw [State.joinedAt, State.ctx_modCtx, Ctx.isSome_modBank]; exact h
  rw [State.loop_eq, State.loop_eq, Ctx.getLoop, Ctx.getLoop, if_pos h', if_pos (show s.ctx.split.isSome = true from h)]
  rw [show s.joinedAt.stream = s.stream from rfl, State.bank_joinedAt h, if_pos rfl]

/-- A join where no level ends has no loop branch. -/
theorem State.loopBranch_joinedAt {s : State} (h : s.inSplit = true) {pc : Addr} (hl : ∀ j < 4, ¬ endsAt s j pc) :
    s.joinedAt.loopBranch pc 4 = (s.joinedAt, none) :=
  State.loopBranch_none (j := 0) (by omega) fun k _ hk he =>
    hl k hk (by unfold endsAt at *; rwa [State.loop_joinedAt h] at he)

/-- A stream that joins while another runs only leaves. -/
theorem State.endSplit_waits {s : State} {i : Nat} (hi : i < 4) (h : (s.ctx.bank i).joined = false) : s.endSplit = s := by
  unfold State.endSplit
  rw [if_neg]
  simp only [List.all_eq_true, List.mem_range, not_forall]
  exact ⟨i, hi, by simp [h]⟩

/-- The state at stream 0's join, back in VLIW mode. -/
def State.unsplitAt (s : State) : State := State.setPc { (s.modCtx Ctx.unsplit) with stream := 0 } (s.ctx.bank 0).pc

/-- The fourth join returns to VLIW mode. -/
theorem State.endSplit_all {s : State} (h : ∀ i < 4, (s.ctx.bank i).joined = true) : s.endSplit =
    if (s.ctx.bank 0).pc.toNat = 4095 * 32 then s.unsplitAt.takeException (illopT 0x0C) 7 (s.ctx.bank 0).pc
    else State.setPc { (s.modCtx Ctx.unsplit) with stream := 0 } ((s.ctx.bank 0).pc + 32) := by
  unfold State.endSplit
  rw [if_pos (by simpa using h)]
  simp only [beq_iff_eq]
  rfl

theorem State.setPc_vliw {s : State} (h : s.inSplit = false) (a : Addr) : s.setPc a = s.modMe fun k => { k with pc := a } := by
  simp [State.setPc, h]

/-- The running context of a state back in VLIW mode, and its place in the code. -/
theorem State.unsplit_setPc (s : State) (a : Addr) :
    let t := State.setPc { (s.modCtx Ctx.unsplit) with stream := 0 } a
    t.ctx = s.ctx.unsplit ∧ t.pc = a ∧ t.stream = 0 := by
  have hc : ({ (s.modCtx Ctx.unsplit) with stream := 0 } : State).ctx = s.ctx.unsplit := by
    rw [State.ctx_withStream, State.ctx_modCtx]
  have hstream : ({ (s.modCtx Ctx.unsplit) with stream := 0 } : State).stream = 0 := rfl
  have hs : ({ (s.modCtx Ctx.unsplit) with stream := 0 } : State).inSplit = false := by rw [State.inSplit, hc]; rfl
  rw [State.setPc_vliw hs]
  generalize ({ (s.modCtx Ctx.unsplit) with stream := 0 } : State) = u at hc hs hstream
  have hk : (u.modMe fun k => { k with pc := a }).ctx = s.ctx.unsplit := by
    rw [← hc, State.ctx, State.stg_modMe rfl, State.me_modMe]; rfl
  refine ⟨hk, ?_, ?_⟩
  · rw [State.pc, State.inSplit, hk, show s.ctx.unsplit.split.isSome = false from rfl, if_neg Bool.false_ne_true, State.me_modMe]
  · exact hstream

/-- What a state back in VLIW mode shows: stream 0's predicates, loop levels and g16 to g31, the stage's g0 to g15. -/
theorem State.unsplit_shows {s t : State} (h : t.ctx = s.ctx.unsplit) :
    t.inSplit = false ∧ t.ctx.p = (s.ctx.bank 0).p ∧ t.ctx.loops = (s.ctx.bank 0).loops ∧
    (∀ x < 16, sget 0 t.ctx.g x = sget 0 s.ctx.g x) ∧ ∀ x, 16 ≤ x → x < 32 → sget 0 t.ctx.g x = sget 0 (s.ctx.bank 0).g x := by
  refine ⟨by rw [State.inSplit, h]; rfl, by rw [h]; rfl, by rw [h]; rfl, fun x hx => ?_, fun x h1 h2 => ?_⟩
  · rw [h, Ctx.unsplit_g, if_neg (by omega)]
  · rw [h, Ctx.unsplit_g, if_pos ⟨h1, h2⟩]

/-- Settles O27: a split through its banks, a join through the streams that have joined. -/
theorem splitAndJoin : Obligations.SplitAndJoin := by
  intro s g hub hg
  refine ⟨fun r hs => ⟨s.splitAt (s.g r), exec_split_eq hub hg r hs, rfl, fun i hi => ?_, ?_, rfl⟩, fun hs hstream hl => ?_⟩
  · have hb : (s.splitAt (s.g r)).ctx.bank i = 
        sget Stream.reset (s.ctx.splitBanks (splitStarts (nextPc s.pc) (s.g r)) s.ticks) i := by
      rw [State.ctx_splitAt, Ctx.bank, Option.getD_some]
    rw [hb, Ctx.splitBanks_bank _ _ _ _ hi, splitStarts_eq]
    refine ⟨rfl, rfl, rfl, rfl, fun x hx => ?_⟩
    rw [sget_filter, if_pos (by simpa [banked] using hx)]
  · rw [State.ctx_splitAt]
  · rw [exec_join_eq hub hg hs, State.retireJoin, State.loopBranch_joinedAt hs hl]
    have hothers (h : ∀ i < 4, i ≠ s.stream → (s.ctx.bank i).joined = true) : ∀ i < 4, (s.joinedAt.ctx.bank i).joined = true := by
      intro i hi
      rw [State.bank_joinedAt hs]
      split
      · rfl
      · next hne => exact h i hi hne
    obtain ⟨h0, hg0, hp0, hl0⟩ := State.bank_joinedAt_eq hs 0
    refine ⟨fun i hi hne hj => ?_, fun hall hpc => ?_, fun hall hpc => ?_⟩
    · rw [State.endSplit_waits hi (by rw [State.bank_joinedAt hs, if_neg hne]; exact hj)]; rfl
    · rw [State.endSplit_all (hothers hall), h0, if_pos hpc]
      obtain ⟨hctx, hat, hst⟩ := State.unsplit_setPc s.joinedAt (s.ctx.bank 0).pc
      obtain ⟨hvliw, hp, hloops, -⟩ := State.unsplit_shows hctx
      exact ⟨_, by rw [State.unsplitAt, h0], hvliw, hst, hat, hp.trans hp0, hloops.trans hl0⟩
    · rw [State.endSplit_all (hothers hall), h0, if_neg hpc]
      obtain ⟨hctx, hat, hst⟩ := State.unsplit_setPc s.joinedAt ((s.ctx.bank 0).pc + 32)
      obtain ⟨hvliw, hp, hloops, hlow, hhigh⟩ := State.unsplit_shows hctx
      rw [hg0, State.g_joinedAt] at *
      exact ⟨_, rfl, hvliw, hst, hat, hp.trans hp0, hloops.trans hl0, hlow, hhigh⟩

end Sys2Proof.Machine
end

section
/-! PROOFS. sysr, and the numbers of the system registers (R27, R28, Table 1.4). -/

open Sys2Proof Sys2Proof.Machine Sys2Proof.Claims
namespace Sys2Proof.Machine

/-! ## Decode faults of an operation that every core may run -/

/-- An operation that is legal everywhere and writes one g-register of the stream's own bank has no decode fault but its own. -/
theorem SlotOp.decodeFault_bankOk {o : SlotOp} {s : State} {d : GReg} (hf : o.forbidden s = false) (hu : (o.uses s).g = [d.toNat])
    (hb : bankOk s d) : o.decodeFault s = o.static s := by
  unfold SlotOp.decodeFault
  rw [if_neg (by simp [hf]), if_neg]
  rintro h
  simp only [hu, List.any_cons, List.any_nil, Bool.or_false, Bool.and_eq_true, decide_eq_true_eq] at h
  obtain ⟨hs, h0, h16⟩ := h
  rcases hb hs with rfl | hd
  · exact absurd h0 (by decide)
  · omega

/-- One that writes no g-register has none but its own either. -/
theorem SlotOp.decodeFault_noG {o : SlotOp} {s : State} (hf : o.forbidden s = false) (hu : (o.uses s).g = []) :
    o.decodeFault s = o.static s := by
  simp [SlotOp.decodeFault, hf, hu]

/-- In split mode a write of g1 to g15 is a decode fault of its own (R44). -/
theorem SlotOp.decodeFault_bank {o : SlotOp} {s : State} {d : GReg} (hf : o.forbidden s = false) (hu : (o.uses s).g = [d.toNat])
    (hs : s.inSplit = true) (h0 : d ≠ 0) (h16 : d.toNat < 16) : o.decodeFault s = some 0x0A := by
  have := GReg.toNat_ne_zero h0
  unfold SlotOp.decodeFault
  rw [if_neg (by simp [hf]), if_pos]
  simp only [hs, hu, List.any_cons, List.any_nil, Bool.or_false, Bool.and_eq_true, decide_eq_true_eq]
  exact ⟨trivial, by omega, h16⟩

theorem SlotOp.forbidden_both {o : SlotOp} {s : State} (hl : o.legal = .both) (hs : o.splitOk = true) : o.forbidden s = false := by
  simp [SlotOp.forbidden, hl, hs]

/-- An operation alone in its bundle that faults in its effect, in the words of the claims. -/
theorem issue_faults {o : SlotOp} {s : State} {i : TrapInfo} (hd : o.decodeFault s = none) (hg : s.guard o.guard = true)
    (hp : s.hub = true → o.level ≤ s.me.hub.priv.code) (hx : o.fx s s = .error (.trap i)) (hb : o.barrier = false) :
    issue o s = faults s i o.slot := by
  rw [issue_fault hd hg hp hx, State.aloneTrap_plain s i hb]
  rfl

/-- The same for a decode fault. -/
theorem issue_faults_illop {o : SlotOp} {s : State} {d : Nat} (hd : o.decodeFault s = some d)
    (hx : o.forbidden s = true ∨ s.guard o.guard = false ∨ (o.fx s s ≠ .error .wait ∧ ∀ t, o.fx s s ≠ .ok (t, .arrive)))
    (hb : o.barrier = false) : issue o s = faults s (illopT d) o.slot := by
  rw [issue_illop hd hx, State.aloneTrap_plain s _ hb]
  rfl

/-! ## The numbers of the system registers (Table 1.4) -/

theorem cmpReg_iff (n : Nat) : cmpReg n = true ↔ anyNumber n := by
  simp only [cmpReg, anyNumber, Bool.or_eq_true, Bool.and_eq_true, decide_eq_true_eq, beq_iff_eq]
  tauto

theorem hubReg_iff (n : Nat) : hubReg n = true ↔ anyNumber n ∨ hubNumber n := by
  have h2 : (0x22 ≤ n ∧ n ≤ 0x23) ↔ (n = 0x22 ∨ n = 0x23) := by omega
  simp only [hubReg, Bool.or_eq_true, Bool.and_eq_true, decide_eq_true_eq, cmpReg_iff, hubNumber, h2]
  tauto

theorem not_anyNumber_of_hubNumber {n : Nat} (h : hubNumber n) : ¬ anyNumber n := by
  unfold anyNumber hubNumber at *
  omega

/-- A number that the core has is no decode fault. -/
theorem sysNumFault_none {hub : Bool} {n : Nat} (h : anyNumber n ∨ (hub = true ∧ hubNumber n)) : sysNumFault hub n = none := by
  have h1 : hubReg n = true := (hubReg_iff n).mpr (h.imp_right And.right)
  have h2 : (!hub && !cmpReg n) = false := by
    rcases h with h | ⟨h, -⟩
    · simp [(cmpReg_iff n).mpr h]
    · simp [h]
  simp [sysNumFault, h1, h2]

theorem sysNumFault_reserved {hub : Bool} {n : Nat} (h1 : ¬ anyNumber n) (h2 : ¬ hubNumber n) : sysNumFault hub n = some 0x01 := by
  have : ¬ hubReg n = true := fun h => ((hubReg_iff n).mp h).elim h1 h2
  simp [sysNumFault, this]

theorem sysNumFault_hub {n : Nat} (h : hubNumber n) : sysNumFault false n = some 0x04 := by
  have h1 : hubReg n = true := (hubReg_iff n).mpr (.inr h)
  have h2 : ¬ cmpReg n = true := fun e => not_anyNumber_of_hubNumber h ((cmpReg_iff n).mp e)
  simp [sysNumFault, h1, h2]

/-! ## sysr -/

/-- The stage reads register n on this core: the kind of core has it, and the level reaches it. -/
theorem State.sysReadOk_ok {s : State} {n : Nat} (h : s.hub = true → readLevel n ≤ s.me.hub.priv.code) : s.sysReadOk n = .ok () := by
  unfold State.sysReadOk
  rw [if_neg]
  simp only [Bool.and_eq_true, decide_eq_true_eq, not_and, not_lt]
  exact h

theorem State.sysReadOk_priv {s : State} {n : Nat} (hh : s.hub = true) (h : s.me.hub.priv.code < readLevel n) :
    s.sysReadOk n = privFault (readLevel n) := by
  unfold State.sysReadOk
  rw [if_pos (by simp [hh, h])]

theorem exec_sysr (g : Guard) (d : GReg) (n : BitVec 12) (s : State) : Machine.exec (.sysr g d n) s = issue (opSysr g d n) s := rfl

theorem sysrOp_decodeFault {s : State} {g : Guard} {d : GReg} {n : Nat} {ok : State → Res Unit} (hb : bankOk s d) :
    (sysrOp g d n ok).decodeFault s = sysNumFault s.hub n :=
  SlotOp.decodeFault_bankOk (SlotOp.forbidden_both rfl rfl) rfl hb

/-- The effect of a sysr whose number and level are right. -/
theorem sysrOp_fx {s : State} {g : Guard} {d : GReg} {n : Nat} {ok : State → Res Unit} (hl : s.sysReadOk n = .ok ()) (hok : ok s = .ok ()) :
    (sysrOp g d n ok).fx s s = .ok (s.setG d (s.sysReg n), .seq) := by
  simp only [sysrOp, cOp, hl, hok]
  rfl

/-- Below the level it is PRIV. -/
theorem sysrOp_fx_priv {s : State} {g : Guard} {d : GReg} {n : Nat} {ok : State → Res Unit} (hh : s.hub = true)
    (hl : s.me.hub.priv.code < readLevel n) : (sysrOp g d n ok).fx s s = .error (.trap (privT (readLevel n))) := by
  simp only [sysrOp, cOp, State.sysReadOk_priv hh hl]
  rfl

section
variable {s : State} {g : Guard} {d : GReg} (hg : s.guard g = true) (hb : bankOk s d)
include hb

theorem exec_sysr_illop {n : BitVec 12} {e : Nat} (hn : sysNumFault s.hub n.toNat = some e) :
    Machine.exec (.sysr g d n) s = faults s (illopT e) .c := by
  have hx : (opSysr g d n).fx s s ≠ .error .wait ∧ ∀ t, (opSysr g d n).fx s s ≠ .ok (t, .arrive) := by
    by_cases hl : s.hub = true → readLevel n.toNat ≤ s.me.hub.priv.code
    · rw [opSysr, sysrOp_fx (State.sysReadOk_ok hl) rfl]
      exact ⟨by simp, by simp⟩
    · push Not at hl
      rw [opSysr, sysrOp_fx_priv hl.1 hl.2]
      exact ⟨by simp, by simp⟩
  exact issue_faults_illop (o := opSysr g d n) ((sysrOp_decodeFault hb).trans hn) (.inr (.inr hx)) rfl

include hg

theorem exec_sysr_reads {n : BitVec 12} (hn : sysNumFault s.hub n.toNat = none)
    (hl : s.hub = true → readLevel n.toNat ≤ s.me.hub.priv.code) :
    Machine.exec (.sysr g d n) s = completes s (s.setG d (s.sysReg n.toNat)) :=
  issue_commit (o := opSysr g d n) (t := s.setG d (s.sysReg n.toNat)) (f := .seq) ((sysrOp_decodeFault hb).trans hn) hg (fun _ => Nat.zero_le _)
    (sysrOp_fx (State.sysReadOk_ok hl) rfl) (by decide)

theorem exec_sysr_priv {n : BitVec 12} (hn : sysNumFault s.hub n.toNat = none) (hh : s.hub = true)
    (hl : s.me.hub.priv.code < readLevel n.toNat) : Machine.exec (.sysr g d n) s = faults s (privT (readLevel n.toNat)) .c := by
  exact issue_faults (o := opSysr g d n) ((sysrOp_decodeFault hb).trans hn) hg (fun _ => Nat.zero_le _) (sysrOp_fx_priv hh hl) rfl

end

/-- What a register number reads as, from its place in a table. -/
theorem mem_of_lookup {α : Type} {l : List (Nat × α)} {n : Nat} {v : α} (h : l.lookup n = some v) : (n, v) ∈ l := by
  obtain ⟨a, b, rfl, -⟩ := List.lookup_eq_some_iff.mp h
  simp

theorem sysReg_common {s : State} {n : Nat} {v : Word} (h : commonReg s n = some v) : anyNumber n ∧ readLevel n = 0 ∧ s.sysReg n = v := by
  have hm := mem_of_lookup h
  simp only [List.mem_cons, Prod.mk.injEq, List.not_mem_nil, or_false] at hm
  rcases hm with ⟨rfl, rfl⟩ | ⟨rfl, rfl⟩ | ⟨rfl, rfl⟩ | ⟨rfl, rfl⟩ | ⟨rfl, rfl⟩ | ⟨rfl, rfl⟩ | ⟨rfl, rfl⟩ | ⟨rfl, rfl⟩ | ⟨rfl, rfl⟩ |
    ⟨rfl, rfl⟩ | ⟨rfl, rfl⟩ | ⟨rfl, rfl⟩ | ⟨rfl, rfl⟩ | ⟨rfl, rfl⟩ | ⟨rfl, rfl⟩ | ⟨rfl, rfl⟩ | ⟨rfl, rfl⟩ | ⟨rfl, rfl⟩ <;>
    exact ⟨(cmpReg_iff _).mp rfl, rfl, rfl⟩

theorem sysReg_hubOnly {s : State} {n : Nat} {v : Word} (hh : s.hub = true) (h : hubOnlyReg s n = some v) :
    (anyNumber n ∨ hubNumber n) ∧ readLevel n = levelOf n ∧ s.sysReg n = v := by
  have hm := mem_of_lookup h
  have hc : isHub s.focus = true := hh
  simp only [List.mem_cons, Prod.mk.injEq, List.not_mem_nil, or_false] at hm
  rcases hm with ⟨rfl, rfl⟩ | ⟨rfl, rfl⟩ | ⟨rfl, rfl⟩ | ⟨rfl, rfl⟩ | ⟨rfl, rfl⟩ | ⟨rfl, rfl⟩ | ⟨rfl, rfl⟩ | ⟨rfl, rfl⟩ | ⟨rfl, rfl⟩ |
    ⟨rfl, rfl⟩ | ⟨rfl, rfl⟩ | ⟨rfl, rfl⟩ <;>
    exact ⟨(hubReg_iff _).mp rfl, rfl, by simp [State.sysReg, State.coreReg, hc, TrapBank.word, State.me]⟩

theorem sysReg_segment (s : State) {k : Nat} : s.sysReg (0x040 + k) = s.me.segment k := by
  simp only [State.sysReg, State.coreReg, State.me, Bool.and_eq_true, decide_eq_true_eq, Nat.add_sub_cancel_left]
  repeat rw [if_neg (by omega)]
  rw [if_pos (by omega)]

theorem readLevel_segment (k : Nat) : readLevel (0x040 + k) = 0 := by
  simp only [readLevel, Bool.and_eq_true, decide_eq_true_eq]
  rw [if_neg (by omega), if_neg (by omega)]

/-- A read of CORE.SAT with no quantising read of the stage in the array, and with one. -/
theorem exec_coreSatRead {s : State} {g : Guard} {d : GReg} (hg : s.guard g = true) (hb : bankOk s d) :
    (s.me.arr.any (satPending s.stg) = false → Machine.exec (.coreSatRead g d) s = completes s (s.setG d (s.sysReg 3))) ∧
    (s.me.arr.any (satPending s.stg) = true → Machine.exec (.coreSatRead g d) s = .next s) := by
  have hl : s.sysReadOk 3 = .ok () := State.sysReadOk_ok fun _ => Nat.zero_le _
  have hn : sysNumFault s.hub 3 = none := sysNumFault_none (.inl ((cmpReg_iff 3).mp rfl))
  refine ⟨fun h => ?_, fun h => ?_⟩
  · exact issue_commit (o := opCoreSatRead g d) (t := s.setG d (s.sysReg 3)) (f := .seq) ((sysrOp_decodeFault hb).trans hn) hg
      (fun _ => Nat.zero_le _) (sysrOp_fx hl (by simp [h, need])) (by decide)
  · refine issue_wait (o := opCoreSatRead g d) (SlotOp.forbidden_both rfl rfl) hg ?_
    simp only [opCoreSatRead, sysrOp, cOp, hl, h]
    rfl

theorem sat_word (b : Bool) : (BitVec.ofBool b).setWidth 64 = if b then (1 : Word) else 0 := by cases b <;> rfl

/-- Settles O30: the number, the level and the value of each register. -/
theorem sysRead : Obligations.SysRead := by
  intro s g d hg hb
  have hcommon (n : BitVec 12) (v : Word) (h : commonReg s n.toNat = some v) :
      Machine.exec (.sysr g d n) s = completes s (s.setG d v) := by
    obtain ⟨hn, hl, hv⟩ := sysReg_common h
    rw [exec_sysr_reads hg hb (sysNumFault_none (.inl hn)) (fun _ => by rw [hl]; exact Nat.zero_le _), hv]
  refine ⟨hcommon, fun k hk => ?_, fun hh => ?_, fun hh n v h => ?_, fun h => ?_, (exec_coreSatRead hg hb).2, fun n => ⟨fun h1 h2 => ?_, fun h1 hh => ?_⟩⟩
  · have hk' : (BitVec.ofNat 12 (0x040 + k)).toNat = 0x040 + k := by rw [BitVec.toNat_ofNat]; omega
    rw [exec_sysr_reads hg hb, hk', sysReg_segment]
    · exact sysNumFault_none (.inl (by unfold anyNumber; omega))
    · intro _
      rw [hk', readLevel_segment]; exact Nat.zero_le _
  · have hc : isHub s.focus = false := hh
    refine ⟨?_, ?_⟩ <;> rw [exec_sysr_reads hg hb (sysNumFault_none (.inl ((cmpReg_iff _).mp rfl))) (fun h => by rw [hh] at h; cases h)] <;>
      simp [State.sysReg, State.coreReg, hc, State.me]
  · obtain ⟨hn, hl, hv⟩ := sysReg_hubOnly hh h
    have hn' : sysNumFault s.hub n.toNat = none := sysNumFault_none (hn.imp_right fun h => ⟨hh, h⟩)
    refine ⟨fun hp => ?_, fun hp => ?_⟩
    · rw [exec_sysr_reads hg hb hn' fun _ => by rw [hl]; exact hp, hv]
    · rw [← hl] at hp ⊢
      exact exec_sysr_priv hg hb hn' hh hp
  · rw [(exec_coreSatRead hg hb).1 h, ← sat_word]; rfl
  · exact exec_sysr_illop hb (sysNumFault_reserved h1 h2)
  · exact exec_sysr_illop hb (by rw [hh]; exact sysNumFault_hub h1)

end Sys2Proof.Machine
end

section
/-! PROOFS. sysw: its access check, and what its effect makes of the state (R27, R28). -/

open Sys2Proof Sys2Proof.Machine Sys2Proof.Claims
namespace Sys2Proof.Machine

/-! ## sysw: the access check and the effect (R27, R98) -/

/-- A register that this kind of core writes at this level. -/
theorem State.sysWriteOk_ok {s : State} {n : Nat} (hr : readOnly s.hub n = false) (hl : s.hub = true → writeLevel n ≤ s.me.hub.priv.code) :
    s.sysWriteOk n = .ok () := by
  unfold State.sysWriteOk
  rw [if_neg (by simp [hr]), if_neg]
  simp only [Bool.and_eq_true, decide_eq_true_eq, not_and, not_lt]
  exact hl

theorem State.sysWriteOk_priv {s : State} {n : Nat} (hr : readOnly s.hub n = false) (hh : s.hub = true)
    (hl : s.me.hub.priv.code < writeLevel n) : s.sysWriteOk n = .error (.trap (privT (writeLevel n))) := by
  unfold State.sysWriteOk
  rw [if_neg (by simp [hr]), if_pos (by simp [hh, hl])]
  rfl

/-- A read-only register at stage level and at U. -/
theorem State.sysWriteOk_readOnly_priv {s : State} {n : Nat} (hr : readOnly s.hub n = true) (h : s.hub = false ∨ s.me.hub.priv = .u) :
    s.sysWriteOk n = .error (.trap (privT 0)) := by
  unfold State.sysWriteOk
  rw [if_pos hr, if_neg (by rcases h with h | h <;> simp [h])]
  rfl

/-- A read-only register at S and M. -/
theorem State.sysWriteOk_readOnly_illop {s : State} {n : Nat} (hr : readOnly s.hub n = true) (hh : s.hub = true) (hp : s.me.hub.priv ≠ .u) :
    s.sysWriteOk n = .error (.trap (illopT 0x04)) := by
  unfold State.sysWriteOk
  rw [if_pos hr, if_pos (by simp [hh, hp])]
  rfl

/-- The check answers a trap where it does not pass; it never waits. -/
theorem State.sysWriteOk_cases (s : State) (n : Nat) : s.sysWriteOk n = .ok () ∨ ∃ i, s.sysWriteOk n = .error (.trap i) := by
  unfold State.sysWriteOk
  split
  · split
    · exact .inr ⟨_, rfl⟩
    · exact .inr ⟨_, rfl⟩
  · split
    · exact .inr ⟨_, rfl⟩
    · exact .inl rfl

/-- A check that fails where the rest would not fault. -/
theorem orFault_check {α : Type} {i : TrapInfo} {x : α} : orFault (.error (.trap i)) (.ok x) = .error (.trap i) := rfl
/-- Where both fault, the one of lower rank; the check's where they are equal. -/
theorem orFault_both {α : Type} {i u : TrapInfo} :
    orFault (.error (.trap i)) (.error (.trap u) : Res α) = .error (.trap (if u.rank < i.rank then u else i)) := rfl
theorem orFault_ok {α : Type} {x : Res α} : orFault (.ok ()) x = x := rfl

section
variable {s : State} {g : Guard} {r : GReg} {n : Nat} {early : Bool} {fx : State → Word → Res (State × Flow)}

theorem syswOp_decodeFault : (syswOp g r n early fx).decodeFault s =
    match sysNumFault s.hub n with | some d => some d | none => inSplitFault 0x0A s :=
  SlotOp.decodeFault_noG (SlotOp.forbidden_both rfl rfl) rfl

theorem syswOp_decodes (hn : sysNumFault s.hub n = none) (hs : s.inSplit = false) : (syswOp g r n early fx).decodeFault s = none := by
  rw [syswOp_decodeFault, hn]
  simp [inSplitFault, hs]

theorem syswOp_fx : (syswOp g r n early fx).fx s s = orFault (s.sysWriteOk n) (fx s (s.g r)) := rfl

/-- A sysw that the core permits commits its effect. -/
theorem issue_sysw {t : State} {f : Flow} (hg : s.guard g = true) (hn : sysNumFault s.hub n = none) (hs : s.inSplit = false)
    (hok : s.sysWriteOk n = .ok ()) (hx : fx s (s.g r) = .ok (t, f)) (hf : f ≠ .arrive) :
    issue (syswOp g r n early fx) s = .next ((t.retire s.pc f).afterBundle s.focus) :=
  issue_commit (syswOp_decodes hn hs) hg (fun _ => Nat.zero_le _) (by rw [syswOp_fx, hok, orFault_ok, hx]) hf

/-- One that faults, in its check or in its value. -/
theorem issue_sysw_faults {i : TrapInfo} (hg : s.guard g = true) (hn : sysNumFault s.hub n = none) (hs : s.inSplit = false)
    (hx : orFault (s.sysWriteOk n) (fx s (s.g r)) = .error (.trap i)) : issue (syswOp g r n early fx) s = faults s i .c :=
  issue_faults (o := syswOp g r n early fx) (syswOp_decodes hn hs) hg (fun _ => Nat.zero_le _) hx rfl

/-- One with a decode fault, of its number or of the mode. -/
theorem issue_sysw_illop {d : Nat} (hd : (syswOp g r n early fx).decodeFault s = some d) (hw : fx s (s.g r) ≠ .error .wait)
    (ha : ∀ t, fx s (s.g r) ≠ .ok (t, .arrive)) : issue (syswOp g r n early fx) s = faults s (illopT d) .c := by
  refine issue_faults_illop (o := syswOp g r n early fx) hd (.inr (.inr ?_)) rfl
  rw [syswOp_fx]
  rcases s.sysWriteOk_cases n with h | ⟨i, h⟩
  · rw [h, orFault_ok]; exact ⟨hw, ha⟩
  · rw [h]
    cases hf : fx s (s.g r) with
    | ok x => exact ⟨by simp [orFault_check], by simp [orFault_check]⟩
    | error e =>
      cases e with
      | wait => exact absurd hf hw
      | trap u => exact ⟨by simp [orFault_both], by simp [orFault_both]⟩

end

/-- The plain sysw's effect: what State.sysWrite makes. -/
def plainWrite (n : BitVec 12) (cur : State) (v : Word) : Res (State × Flow) := (cur.sysWrite n.toNat v).map fun t => (t, Flow.seq)

theorem exec_sysw (g : Guard) (r : GReg) (n : BitVec 12) (s : State) :
    Machine.exec (.sysw g r n) s = issue (syswOp g r n.toNat (n == 0x003) (plainWrite n)) s := rfl

theorem plainWrite_ok {n : BitVec 12} {s t : State} {v : Word} (h : s.sysWrite n.toNat v = .ok t) : plainWrite n s v = .ok (t, .seq) := by
  rw [plainWrite, h]; rfl
theorem plainWrite_error {n : BitVec 12} {s : State} {v : Word} {e : Stop} (h : s.sysWrite n.toNat v = .error e) :
    plainWrite n s v = .error e := by
  rw [plainWrite, h]; rfl

/-- State.sysWrite answers a state, or ILLOP 0x0B for a reserved level. -/
theorem State.sysWrite_cases (s : State) (n : Nat) (v : Word) :
    (∃ t, s.sysWrite n v = .ok t) ∨ s.sysWrite n v = .error (.trap (illopT 0x0B)) := by
  unfold State.sysWrite
  repeat' split
  exacts [.inl ⟨_, rfl⟩, .inl ⟨_, rfl⟩, .inr rfl, .inl ⟨_, rfl⟩, .inr rfl, .inl ⟨_, rfl⟩, .inl ⟨_, rfl⟩, .inl ⟨_, rfl⟩]

theorem plainWrite_plain (n : BitVec 12) (s : State) (v : Word) :
    plainWrite n s v ≠ .error .wait ∧ ∀ t, plainWrite n s v ≠ .ok (t, .arrive) := by
  unfold plainWrite
  rcases s.sysWrite_cases n.toNat v with ⟨t, h⟩ | h <;> rw [h] <;> exact ⟨by simp [Except.map], by simp [Except.map]⟩

end Sys2Proof.Machine
end

section
/-! PROOFS. sysw register by register: counting flags, trap banks, the late writes of the loop registers (R22, R28, R29). -/

open Sys2Proof Sys2Proof.Machine Sys2Proof.Claims
namespace Sys2Proof.Machine

/-! ## Counting flags (R22, R23) -/

theorem Core.flag_modFlag (k : Core) (i j : Nat) (f : Flag → Flag) : (k.modFlag i f).flag j = if j = i then f (k.flag i) else k.flag j := by
  simp only [Core.flag, Core.modFlag, smod, sget_sset]

/-- Changing the flags that a mask selects, flag by flag. -/
theorem Core.flag_foldl_modFlag (k : Core) (m : Word) (f : Flag → Flag) (n j : Nat) :
    ((List.range n).foldl (fun q i => if m.getLsbD i then q.modFlag i f else q) k).flag j =
      if j < n ∧ m.getLsbD j = true then f (k.flag j) else k.flag j := by
  induction n with
  | zero => simp
  | succ n ih =>
    rw [List.range_succ, List.foldl_append, List.foldl_cons, List.foldl_nil]
    by_cases hm : m.getLsbD n = true
    · rw [if_pos hm, Core.flag_modFlag]
      by_cases hj : j = n
      · subst hj
        rw [if_pos rfl, ih, if_neg (by omega), if_pos ⟨by omega, hm⟩]
      · rw [if_neg hj, ih]
        exact if_congr (and_congr_left fun _ => by omega) rfl rfl
    · rw [if_neg hm, ih]
      by_cases hj : j = n
      · subst hj
        rw [if_neg (fun h => hm h.2), if_neg (fun h => hm h.2)]
      · exact if_congr (and_congr_left fun _ => by omega) rfl rfl

/-- It changes the flags of the core and nothing else of it. -/
theorem Core.foldl_modFlag_eq (k : Core) (m : Word) (f : Flag → Flag) (l : List Nat) :
    ∃ cf, l.foldl (fun q i => if m.getLsbD i then q.modFlag i f else q) k = { k with cf := cf } := by
  induction l generalizing k with
  | nil => exact ⟨k.cf, rfl⟩
  | cons i t ih =>
    rw [List.foldl_cons]
    split
    · obtain ⟨cf, h⟩ := ih (k.modFlag i f)
      exact ⟨cf, h⟩
    · exact ih k

theorem Core.clearErr_eq (k : Core) (v : Word) : ∃ cf, k.clearErr v = { k with cf := cf } := k.foldl_modFlag_eq v _ _

theorem Core.flag_clearErr (k : Core) (v : Word) {j : Nat} (hj : j < 64) :
    (k.clearErr v).flag j = { (k.flag j) with err := (k.flag j).err && !v.getLsbD j } := by
  rw [Core.clearErr, Core.flag_foldl_modFlag]
  cases h : v.getLsbD j
  · simp
  · simp [hj]

/-! ## The trap banks as sysw writes them (Tables 1.10, 1.12) -/

/-- TRAP.VEC keeps the bits of a multiple of 4,096. -/
theorem vec_aligned (v : Word) : v.extractLsb' 0 40 &&& ~~~0xFFF#40 = v.extractLsb' 12 28 ++ 0#12 := by
  refine BitVec.eq_of_getLsbD_eq fun i hi => ?_
  have hbit : ∀ i < 40, (~~~0xFFF#40).getLsbD i = decide (12 ≤ i) := by decide
  rw [BitVec.getLsbD_and, BitVec.getLsbD_append, BitVec.getLsbD_extractLsb', BitVec.getLsbD_extractLsb', hbit i hi]
  by_cases h : i < 12
  · simp [h]
  · simp [h, hi, show 12 ≤ i by omega, show i - 12 < 28 by omega]

theorem bankWritten_eq (b : TrapBank) (v : Word) {k : Nat} (h : k < 4) : b.write k v = bankWritten b k v := by
  interval_cases k
  · rfl
  · rfl
  · simp [TrapBank.write, bankWritten, ← vec_aligned]
  · rfl

/-! ## The late writes of the loop registers (R28) -/

theorem ordinary_endsAt {s : State} (h : ordinary s) : ∀ j < 4, ¬ endsAt s j s.pc := by
  rintro j hj ⟨h1, h2⟩
  rcases h.1 j hj with h' | h'
  · exact h1 h'
  · exact h' h2

/-- At an ordinary place in the code a bundle has no loop branch. -/
theorem loopBranch_ordinary {s : State} (h : ordinary s) : s.loopBranch s.pc 4 = (s, none) :=
  State.loopBranch_none (j := 0) (by omega) fun k _ hk => ordinary_endsAt h k hk

/-- There a late write is followed by the next bundle. -/
theorem State.retire_late {s : State} (h : ordinary s) (start : Bool) (j : Nat) (v : Word) :
    s.retire s.pc (.late start j v) =
      (s.setLoop j (if start then (s.loop j).writeStart s.hub v else (s.loop j).writeCnt v)).setPc (s.pc + 32) := by
  have hend : (!s.hub && s.pc.toNat == 4095 * 32) = false := by
    rcases h.2.1 with hh | hp
    · simp [hh]
    · simp [hp]
  simp only [State.retire, State.fallThrough, loopBranch_ordinary h, hend]
  rfl

/-! ## sysw, register by register -/

theorem anyNumber_of {n : Nat} (h : cmpReg n = true) : anyNumber n := (cmpReg_iff n).mp h
theorem sysNumFault_of_hubReg {s : State} {n : Nat} (hh : s.hub = true) (h : hubReg n = true) : sysNumFault s.hub n = none :=
  sysNumFault_none (((hubReg_iff n).mp h).imp_right fun h => ⟨hh, h⟩)
theorem sysNumFault_of_cmpReg {hub : Bool} {n : Nat} (h : cmpReg n = true) : sysNumFault hub n = none :=
  sysNumFault_none (.inl (anyNumber_of h))

section
variable {s : State} {g : Guard} {r : GReg} (hg : s.guard g = true) (hs : s.inSplit = false)
include hg hs

/-- A plain sysw that the core permits. -/
theorem exec_sysw_writes {n : BitVec 12} {t : State} (hn : sysNumFault s.hub n.toNat = none) (hok : s.sysWriteOk n.toNat = .ok ())
    (hx : s.sysWrite n.toNat (s.g r) = .ok t) : Machine.exec (.sysw g r n) s = completes s t :=
  issue_sysw (fx := plainWrite n) hg hn hs hok (plainWrite_ok hx) (by decide)

/-- One whose check fails, where the value is none that the field forbids. -/
theorem exec_sysw_checked {n : BitVec 12} {t : State} {i : TrapInfo} (hn : sysNumFault s.hub n.toNat = none)
    (hc : s.sysWriteOk n.toNat = .error (.trap i)) (hx : s.sysWrite n.toNat (s.g r) = .ok t) :
    Machine.exec (.sysw g r n) s = faults s i .c :=
  issue_sysw_faults (fx := plainWrite n) hg hn hs (by rw [hc, plainWrite_ok hx, orFault_check])

/-- A write of a hub core's register below the level is PRIV. -/
theorem exec_sysw_priv {n : BitVec 12} {t : State} (hh : s.hub = true) (hn : hubReg n.toNat = true) (hr : readOnly true n.toNat = false)
    (hl : s.me.hub.priv.code < writeLevel n.toNat) (hx : s.sysWrite n.toNat (s.g r) = .ok t) :
    Machine.exec (.sysw g r n) s = faults s (privT (writeLevel n.toNat)) .c :=
  exec_sysw_checked hg hs (sysNumFault_of_hubReg hh hn) (State.sysWriteOk_priv (by rw [hh]; exact hr) hh hl) hx

/-- A write of a hub core's register at its level. -/
theorem exec_sysw_hub {n : BitVec 12} {t : State} (hh : s.hub = true) (hn : hubReg n.toNat = true) (hr : readOnly true n.toNat = false)
    (hl : writeLevel n.toNat ≤ s.me.hub.priv.code) (hx : s.sysWrite n.toNat (s.g r) = .ok t) :
    Machine.exec (.sysw g r n) s = completes s t :=
  exec_sysw_writes hg hs (sysNumFault_of_hubReg hh hn) (State.sysWriteOk_ok (by rw [hh]; exact hr) fun _ => hl) hx

/-- TRAP.STATE with the reserved level 2 is ILLOP 0x0B, whatever the check says. -/
theorem exec_sysw_reserved {n : BitVec 12} (hh : s.hub = true) (hn : hubReg n.toNat = true) (hr : readOnly true n.toNat = false)
    (hx : s.sysWrite n.toNat (s.g r) = .error (.trap (illopT 0x0B))) : Machine.exec (.sysw g r n) s = faults s (illopT 0x0B) .c := by
  refine issue_sysw_faults (fx := plainWrite n) hg (sysNumFault_of_hubReg hh hn) hs ?_
  rw [plainWrite_error hx]
  by_cases hl : writeLevel n.toNat ≤ s.me.hub.priv.code
  · rw [State.sysWriteOk_ok (by rw [hh]; exact hr) fun _ => hl]; rfl
  · rw [State.sysWriteOk_priv (by rw [hh]; exact hr) hh (not_le.mp hl)]; rfl

end

/-- The bank of its own level that a hub core writes at 0x020 to 0x023. -/
theorem State.sysWrite_ownBank (s : State) (v : Word) {k : Nat} (hk : k < 4) (h : k = 3 → v.extractLsb' 0 2 ≠ 2) :
    s.sysWrite (0x020 + k) v =
      .ok (s.modMe fun q => { q with hub := q.hub.setBank q.hub.priv (bankWritten (q.hub.bank q.hub.priv) k v) }) := by
  simp only [← bankWritten_eq _ v hk]
  interval_cases k
  · rfl
  · rfl
  · rfl
  · have := h rfl
    simp_all [State.sysWrite]

/-- The bank of level S that a hub core at M writes at 0x028 to 0x02B. -/
theorem State.sysWrite_sBank (s : State) (v : Word) {k : Nat} (hk : k < 4) (h : k = 3 → v.extractLsb' 0 2 ≠ 2) :
    s.sysWrite (0x028 + k) v = .ok (s.modMe fun q => { q with hub := { q.hub with bankS := bankWritten q.hub.bankS k v } }) := by
  simp only [← bankWritten_eq _ v hk]
  interval_cases k
  · rfl
  · rfl
  · rfl
  · have := h rfl
    simp_all [State.sysWrite]

theorem State.sysWrite_reserved (s : State) {v : Word} (h : v.extractLsb' 0 2 = 2) :
    s.sysWrite 0x023 v = .error (.trap (illopT 0x0B)) ∧ s.sysWrite 0x02B v = .error (.trap (illopT 0x0B)) := by
  constructor <;> simp [State.sysWrite, h, illop, illopT]

end Sys2Proof.Machine
end

section
/-! PROOFS. sysw to numbers that are not written, in split mode, and the obligation on sysw (R27, R28). -/

open Sys2Proof Sys2Proof.Machine Sys2Proof.Claims
namespace Sys2Proof.Machine

/-- The numbers that this kind of core has and never writes. -/
def fixedHere (hub : Bool) (n : Nat) : Prop := fixedNumber n ∨ (hub = false ∧ (n = 1 ∨ n = 0x20 ∨ n = 0x21)) ∨ (hub = true ∧ n = 0x32)

theorem readOnly_of_fixed {hub : Bool} {n : Nat} (h : fixedHere hub n) : readOnly hub n = true := by
  unfold fixedHere fixedNumber at h
  simp only [readOnly, Bool.or_eq_true, Bool.and_eq_true, decide_eq_true_eq, beq_iff_eq, Bool.not_eq_true']
  tauto

theorem sysNumFault_of_fixed {hub : Bool} {n : Nat} (h : fixedHere hub n) : sysNumFault hub n = none := by
  refine sysNumFault_none ?_
  rcases h with h | ⟨-, h⟩ | ⟨hh, h⟩
  · exact .inl (by unfold fixedNumber anyNumber at *; omega)
  · exact .inl (by unfold anyNumber; omega)
  · exact .inr ⟨hh, by unfold hubNumber; omega⟩

/-- What a sysw to such a number would do is no fault of its value. -/
theorem State.sysWrite_fixed (s : State) {hub : Bool} {n : Nat} (v : Word) (h : fixedHere hub n) : ∃ t, s.sysWrite n v = .ok t := by
  have hne : n ≠ 0x23 ∧ n ≠ 0x2B := by
    rcases h with h | ⟨-, h⟩ | ⟨-, h⟩
    · unfold fixedNumber at h; omega
    · omega
    · omega
  rcases s.sysWrite_cases n v with ht | hf
  · exact ht
  · simp only [State.sysWrite, hne.1, hne.2, decide_false, Bool.false_and, Bool.false_eq_true, if_false] at hf
    repeat' split at hf
    all_goals cases hf

theorem fixedHere_of {hub : Bool} {n : BitVec 12}
    (h : fixedNumber n.toNat ∨ (hub = false ∧ (n = 0x001 ∨ n = 0x020 ∨ n = 0x021)) ∨ (hub = true ∧ n = 0x032)) : fixedHere hub n.toNat := by
  rcases h with h | ⟨hh, rfl | rfl | rfl⟩ | ⟨hh, rfl⟩
  · exact .inl h
  · exact .inr (.inl ⟨hh, .inl rfl⟩)
  · exact .inr (.inl ⟨hh, .inr (.inl rfl)⟩)
  · exact .inr (.inl ⟨hh, .inr (.inr rfl)⟩)
  · exact .inr (.inr ⟨hh, rfl⟩)

/-- A sysw to a read-only number (R27). -/
theorem exec_sysw_fixed {s : State} {g : Guard} {r : GReg} {n : BitVec 12} (hg : s.guard g = true) (hs : s.inSplit = false)
    (h : fixedHere s.hub n.toNat) :
    (s.hub = false ∨ s.me.hub.priv = .u → Machine.exec (.sysw g r n) s = faults s (privT 0) .c) ∧
    (s.hub = true → s.me.hub.priv ≠ .u → Machine.exec (.sysw g r n) s = faults s (illopT 0x04) .c) := by
  obtain ⟨t, ht⟩ := s.sysWrite_fixed (s.g r) h
  have hn := sysNumFault_of_fixed h
  have hr := readOnly_of_fixed h
  exact ⟨fun hl => exec_sysw_checked hg hs hn (State.sysWriteOk_readOnly_priv hr hl) ht,
    fun hh hl => exec_sysw_checked hg hs hn (State.sysWriteOk_readOnly_illop hr hh hl) ht⟩

/-- The numbers of the loop registers, which every core has and writes. -/
theorem loopReg_cmpReg (j : BitVec 2) : cmpReg (0x018 + j.toNat) = true ∧ cmpReg (0x01C + j.toNat) = true := by
  revert j; decide

theorem loopReg_written (hub : Bool) (j : BitVec 2) :
    (readOnly hub (0x018 + j.toNat) = false ∧ writeLevel (0x018 + j.toNat) = 0) ∧
    (readOnly hub (0x01C + j.toNat) = false ∧ writeLevel (0x01C + j.toNat) = 0) := by
  revert hub j; decide

/-- In split mode every sysw to a number that the core has is ILLOP 0x0A. -/
theorem syswOp_split {s : State} {g : Guard} {r : GReg} {n : Nat} {early : Bool} {fx : State → Word → Res (State × Flow)}
    (hn : sysNumFault s.hub n = none) (hs : s.inSplit = true) : (syswOp g r n early fx).decodeFault s = some 0x0A := by
  rw [syswOp_decodeFault, hn]
  simp [inSplitFault, hs]

theorem exec_sysw_illop {s : State} {g : Guard} {r : GReg} {n : BitVec 12} {d : Nat} (hn : sysNumFault s.hub n.toNat = some d) :
    Machine.exec (.sysw g r n) s = faults s (illopT d) .c :=
  issue_sysw_illop (fx := plainWrite n) (by rw [syswOp_decodeFault, hn]) (plainWrite_plain n s _).1 (plainWrite_plain n s _).2

/-- Every sysw in split mode (R28). -/
theorem sysw_split {u : State} (h : Guard) (r : GReg) (n : BitVec 12) (hs : u.inSplit = true) :
    (anyNumber n.toNat ∨ (u.hub = true ∧ hubNumber n.toNat) → Machine.exec (.sysw h r n) u = faults u (illopT 0x0A) .c) ∧
    (∀ i, i = .coreRmodeWrite h r ∨ i = .cfErrWrite h r ∨ (∃ j, i = .loopCntWrite h r j) ∨ (∃ j, i = .loopStartWrite h r j) →
      Machine.exec i u = faults u (illopT 0x0A) .c) := by
  refine ⟨fun hn => ?_, fun i hi => ?_⟩
  · exact issue_sysw_illop (fx := plainWrite n) (syswOp_split (sysNumFault_none hn) hs) (plainWrite_plain n u _).1 (plainWrite_plain n u _).2
  · rcases hi with rfl | rfl | ⟨j, rfl⟩ | ⟨j, rfl⟩
    · refine issue_sysw_illop (n := 0x002) (early := false) (syswOp_split (sysNumFault_of_cmpReg rfl) hs) ?_ fun t => ?_ <;>
        split <;> simp [illop]
    · exact issue_sysw_illop (n := 0x015) (early := true) (fx := fun cur v => .ok (cur.modMe fun k => k.clearErr v, .seq))
        (syswOp_split (sysNumFault_of_cmpReg rfl) hs) (by simp) (by simp)
    · exact issue_sysw_illop (n := 0x018 + j.toNat) (early := false) (fx := fun cur v => .ok (cur, .late false j.toNat v))
        (syswOp_split (sysNumFault_of_cmpReg (loopReg_cmpReg j).1) hs) (by simp) (by simp)
    · exact issue_sysw_illop (n := 0x01C + j.toNat) (early := false) (fx := fun cur v => .ok (cur, .late true j.toNat v))
        (syswOp_split (sysNumFault_of_cmpReg (loopReg_cmpReg j).2) hs) (by simp) (by simp)

/-- The numbers of the trap banks (Table 1.4). -/
theorem bankReg {k : Nat} (hk : k < 4) :
    (BitVec.ofNat 12 (0x020 + k)).toNat = 0x020 + k ∧ (BitVec.ofNat 12 (0x028 + k)).toNat = 0x028 + k ∧
    hubReg (0x020 + k) = true ∧ hubReg (0x028 + k) = true ∧ readOnly true (0x020 + k) = false ∧ readOnly true (0x028 + k) = false ∧
    writeLevel (0x020 + k) = 1 ∧ writeLevel (0x028 + k) = 3 := by
  interval_cases k <;> decide

theorem State.modMe_congr {s : State} {f g : Core → Core} (h : f s.me = g s.me) : s.modMe f = s.modMe g :=
  congrArg (s.setCore s.focus) h

theorem priv_code_lt_three {p : Priv} (h : p ≠ .m) : p.code < 3 := by cases p <;> simp_all [Priv.code]

/-- Settles O31: register by register, by the check of the number, the level and the value. -/
theorem sysWrite : Obligations.SysWrite := by
  intro s g r hg hs v
  refine ⟨fun hh hm => ?_, fun hv => ?_, fun hv => ?_, ?_, ?_, fun j ho => ?_, fun hh hp => ⟨fun k hk h3 => ?_, ?_, ?_, ?_⟩,
    fun n => ⟨fun hn => ⟨fun hl => ?_, fun hh hl => ?_⟩, fun h1 h2 => ?_, fun h1 hh => ?_⟩,
    fun hh => ⟨fun hm => ?_, fun hv => ?_, fun k hk h3 => ?_, fun hu i hi => ?_⟩, fun u h n hu => sysw_split h r n hu⟩
  · exact exec_sysw_hub hg hs hh rfl rfl (by rw [hm]; decide) rfl
  · exact issue_sysw (n := 0x002) (early := false) (f := .seq) hg (sysNumFault_of_cmpReg rfl) hs
      (State.sysWriteOk_ok (by cases s.hub <;> rfl) fun _ => Nat.zero_le _) (if_neg (show ¬ 6 ≤ v.toNat % 8 by omega)) (by decide)
  · refine issue_sysw_faults (n := 0x002) (early := false) hg (sysNumFault_of_cmpReg rfl) hs ?_
    rw [State.sysWriteOk_ok (by cases s.hub <;> rfl) fun _ => Nat.zero_le _, orFault_ok]
    exact if_pos hv
  · exact exec_sysw_writes hg hs (sysNumFault_of_cmpReg rfl) (State.sysWriteOk_ok (by cases s.hub <;> rfl) fun _ => Nat.zero_le _) rfl
  · refine ⟨s.modMe fun k => k.clearErr v, ?_, rfl, ?_, fun j hj => ?_⟩
    · exact issue_sysw (n := 0x015) (early := true) (fx := fun cur v => .ok (cur.modMe fun k => k.clearErr v, .seq)) (f := .seq) hg
        (sysNumFault_of_cmpReg rfl) hs (State.sysWriteOk_ok (by cases s.hub <;> rfl) fun _ => Nat.zero_le _) rfl (by decide)
    · obtain ⟨cf, h⟩ := s.me.clearErr_eq v
      rw [State.me_modMe, h]
    · rw [State.me_modMe, Core.flag_clearErr _ _ hj]
  · obtain ⟨hc, hc'⟩ := loopReg_cmpReg j
    obtain ⟨hr, hr'⟩ := loopReg_written s.hub j
    have hcnt := issue_sysw (n := 0x018 + j.toNat) (r := r) (early := false) (fx := fun cur v => .ok (cur, .late false j.toNat v)) hg
      (sysNumFault_of_cmpReg hc) hs (State.sysWriteOk_ok hr.1 fun _ => by rw [hr.2]; exact Nat.zero_le _) rfl (by simp)
    have hstart := issue_sysw (n := 0x01C + j.toNat) (r := r) (early := false) (fx := fun cur v => .ok (cur, .late true j.toNat v)) hg
      (sysNumFault_of_cmpReg hc') hs (State.sysWriteOk_ok hr'.1 fun _ => by rw [hr'.2]; exact Nat.zero_le _) rfl (by simp)
    rw [State.retire_late ho] at hcnt hstart
    exact ⟨hcnt, hstart⟩
  · obtain ⟨hn, hn', hr, hr', hw, hw', hl, hl'⟩ := bankReg hk
    refine ⟨fun hps => ?_, fun hpm => ⟨?_, ?_⟩⟩
    · refine (exec_sysw_hub hg hs hh (by rwa [hn]) (by rwa [hn]) (by rw [hn, hl]; exact hp) (by rw [hn]; exact s.sysWrite_ownBank v hk h3)).trans ?_
      rw [State.modMe_congr]
      rw [hps]; rfl
    · refine (exec_sysw_hub hg hs hh (by rwa [hn]) (by rwa [hn]) (by rw [hn, hl]; exact hp) (by rw [hn]; exact s.sysWrite_ownBank v hk h3)).trans ?_
      rw [State.modMe_congr]
      rw [hpm]; rfl
    · exact exec_sysw_hub hg hs hh (by rwa [hn']) (by rwa [hn']) (by rw [hn', hl', hpm]; decide) (by rw [hn']; exact s.sysWrite_sBank v hk h3)
  · exact issue_sysw (n := 0x030) (early := false) (f := .seq) hg (sysNumFault_of_hubReg hh rfl) hs
      (State.sysWriteOk_ok (by rw [hh]; rfl) fun _ => hp) rfl (by decide)
  · exact exec_sysw_hub hg hs hh rfl rfl hp rfl
  · exact issue_sysw (n := 0x033) (early := false) (f := .seq) hg (sysNumFault_of_hubReg hh rfl) hs
      (State.sysWriteOk_ok (by rw [hh]; rfl) fun _ => hp) rfl (by decide)
  · exact (exec_sysw_fixed hg hs (fixedHere_of hn)).1 hl
  · exact (exec_sysw_fixed hg hs (fixedHere_of hn)).2 hh hl
  · exact exec_sysw_illop (sysNumFault_reserved h1 h2)
  · exact exec_sysw_illop (by rw [hh]; exact sysNumFault_hub h1)
  · exact exec_sysw_priv hg hs hh rfl rfl (priv_code_lt_three hm) rfl
  · exact ⟨exec_sysw_reserved hg hs hh rfl rfl (s.sysWrite_reserved hv).1, exec_sysw_reserved hg hs hh rfl rfl (s.sysWrite_reserved hv).2⟩
  · obtain ⟨hn, hn', hr, hr', hw, hw', hl, hl'⟩ := bankReg hk
    refine ⟨fun hu => ?_, fun hm => ?_⟩
    · have := exec_sysw_priv hg hs hh (n := BitVec.ofNat 12 (0x020 + k)) (by rwa [hn]) (by rwa [hn]) (by rw [hn, hl, hu]; decide)
        (by rw [hn]; exact s.sysWrite_ownBank v hk h3)
      rwa [hn, hl] at this
    · have := exec_sysw_priv hg hs hh (n := BitVec.ofNat 12 (0x028 + k)) (by rwa [hn']) (by rwa [hn'])
        (by rw [hn', hl']; exact priv_code_lt_three hm) (by rw [hn']; exact s.sysWrite_sBank v hk h3)
      rwa [hn', hl'] at this
  · have hl : s.me.hub.priv.code < 1 := by rw [hu]; decide
    rcases hi with rfl | rfl | rfl
    · exact issue_sysw_faults (n := 0x030) (early := false) hg (sysNumFault_of_hubReg hh rfl) hs
        (by rw [State.sysWriteOk_priv (n := 0x030) (by rw [hh]; rfl) hh hl]; rfl)
    · exact exec_sysw_priv hg hs hh rfl rfl hl rfl
    · exact issue_sysw_faults (n := 0x033) (early := false) hg (sysNumFault_of_hubReg hh rfl) hs
        (by rw [State.sysWriteOk_priv (n := 0x033) (by rw [hh]; rfl) hh hl]; rfl)

end Sys2Proof.Machine
end

section
/-! PROOFS. What a bundle that goes on leaves alone: writes of registers, predicates and the place in the code against one another, and the frame
of an update of the running context (R44, R94, R121). -/

open Sys2Proof Sys2Proof.Machine Sys2Proof.Claims
namespace Sys2Proof.Machine

/-! ## A write of one kind of register leaves the others -/

theorem Ctx.getP_putG (x : Ctx) (i j d r : Nat) (v : Word) : (x.putG i d v).getP j r = x.getP j r := by
  unfold Ctx.getP Ctx.putG
  by_cases hs : x.split.isSome = true
  · by_cases hd : banked d = true
    · by_cases hj : j = i <;> simp [hs, hd, hj, Ctx.bank_modBank hs]
    · simp [hs, hd, Ctx.bank]
  · simp [hs]

theorem Ctx.getG_putP (x : Ctx) (i j d r : Nat) (v : Bool) : (x.putP i d v).getG j r = x.getG j r := by
  unfold Ctx.getG Ctx.putP
  by_cases hs : x.split.isSome = true
  · by_cases hj : j = i <;> simp [hs, hj, Ctx.bank_modBank hs]
  · simp [hs]

theorem Ctx.getLoop_putG (x : Ctx) (i j d r : Nat) (v : Word) : (x.putG i d v).getLoop j r = x.getLoop j r := by
  unfold Ctx.getLoop Ctx.putG
  by_cases hs : x.split.isSome = true
  · by_cases hd : banked d = true
    · by_cases hj : j = i <;> simp [hs, hd, hj, Ctx.bank_modBank hs]
    · simp [hs, hd, Ctx.bank]
  · simp [hs]

theorem Ctx.getLoop_putP (x : Ctx) (i j d r : Nat) (v : Bool) : (x.putP i d v).getLoop j r = x.getLoop j r := by
  unfold Ctx.getLoop Ctx.putP
  by_cases hs : x.split.isSome = true
  · by_cases hj : j = i <;> simp [hs, hj, Ctx.bank_modBank hs]
  · simp [hs]

theorem State.p_setG (s : State) (d : GReg) (r : PReg) (v : Word) : (s.setG d v).p r = s.p r := by
  by_cases hd : d = 0
  · rw [hd, State.setG_zero]
  · simp only [State.setG_eq s v hd, State.p_eq, State.ctx_modCtx, State.stream_modCtx, Ctx.getP_putG]

theorem State.g_setP (s : State) (d : PReg) (r : GReg) (b : Bool) : (s.setP d b).g r = s.g r := by
  by_cases hd : d = 0
  · rw [hd, State.setP_zero]
  · simp only [State.setP_eq s b hd, State.g_eq, State.ctx_modCtx, State.stream_modCtx, Ctx.getG_putP]

theorem State.loop_setG (s : State) (d : GReg) (j : Nat) (v : Word) : (s.setG d v).loop j = s.loop j := by
  by_cases hd : d = 0
  · rw [hd, State.setG_zero]
  · simp only [State.setG_eq s v hd, State.loop_eq, State.ctx_modCtx, State.stream_modCtx, Ctx.getLoop_putG]

theorem State.loop_setP (s : State) (d : PReg) (j : Nat) (b : Bool) : (s.setP d b).loop j = s.loop j := by
  by_cases hd : d = 0
  · rw [hd, State.setP_zero]
  · simp only [State.setP_eq s b hd, State.loop_eq, State.ctx_modCtx, State.stream_modCtx, Ctx.getLoop_putP]

/-! ## The place in the code -/

/-- The place in the code of a stream, as a context shows it in split mode. -/
def Ctx.putPc (x : Ctx) (stream now : Nat) (a : Addr) : Ctx := x.modBank stream fun b => { b with pc := a, since := now }

theorem State.setPc_split {s : State} (h : s.inSplit = true) (a : Addr) : s.setPc a = s.modCtx fun x => x.putPc s.stream s.ticks a := by
  simp [State.setPc, h, Ctx.putPc]

theorem State.ctx_modMe_pc (s : State) (a : Addr) : (s.modMe fun k => { k with pc := a }).ctx = s.ctx := by
  rw [State.ctx, State.stg_modMe rfl, State.me_modMe]; rfl

@[simp] theorem State.stream_setPc (s : State) (a : Addr) : (s.setPc a).stream = s.stream := by unfold State.setPc; split <;> rfl

theorem State.ctx_setPc (s : State) (a : Addr) : (s.setPc a).ctx = if s.inSplit then s.ctx.putPc s.stream s.ticks a else s.ctx := by
  cases h : s.inSplit
  · rw [State.setPc_vliw h, State.ctx_modMe_pc]; rfl
  · rw [State.setPc_split h, State.ctx_modCtx]; rfl

@[simp] theorem State.inSplit_setPc (s : State) (a : Addr) : (s.setPc a).inSplit = s.inSplit := by
  rw [State.inSplit, State.ctx_setPc]
  split
  · exact Ctx.isSome_modBank _ _ _
  · rfl

theorem State.pc_setPc (s : State) (a : Addr) : (s.setPc a).pc = a := by
  cases h : s.inSplit
  · rw [State.pc, State.inSplit_setPc, h, State.setPc_vliw h, State.me_modMe]; rfl
  · rw [State.pc, State.inSplit_setPc, h, State.stream_setPc, State.ctx_setPc, h, if_pos rfl, if_pos rfl, Ctx.putPc, Ctx.bank_modBank h,
      if_pos rfl]

theorem Ctx.getG_putPc {x : Ctx} (h : x.split.isSome = true) (i j now r : Nat) (a : Addr) : (x.putPc i now a).getG j r = x.getG j r := by
  unfold Ctx.getG Ctx.putPc
  by_cases hj : j = i <;> simp [hj, Ctx.bank_modBank h]
theorem Ctx.getP_putPc {x : Ctx} (h : x.split.isSome = true) (i j now r : Nat) (a : Addr) : (x.putPc i now a).getP j r = x.getP j r := by
  unfold Ctx.getP Ctx.putPc
  by_cases hj : j = i <;> simp [hj, Ctx.bank_modBank h]
theorem Ctx.getLoop_putPc {x : Ctx} (h : x.split.isSome = true) (i j now r : Nat) (a : Addr) :
    (x.putPc i now a).getLoop j r = x.getLoop j r := by
  unfold Ctx.getLoop Ctx.putPc
  by_cases hj : j = i <;> simp [hj, Ctx.bank_modBank h]

theorem State.g_setPc (s : State) (a : Addr) (r : GReg) : (s.setPc a).g r = s.g r := by
  rw [State.g_eq, State.g_eq, State.stream_setPc, State.ctx_setPc]
  split
  · rfl
  · split
    · next h => rw [Ctx.getG_putPc h]
    · rfl
theorem State.p_setPc (s : State) (a : Addr) (r : PReg) : (s.setPc a).p r = s.p r := by
  rw [State.p_eq, State.p_eq, State.stream_setPc, State.ctx_setPc]
  split
  · rfl
  · split
    · next h => rw [Ctx.getP_putPc h]
    · rfl
theorem State.loop_setPc (s : State) (a : Addr) (j : Nat) : (s.setPc a).loop j = s.loop j := by
  rw [State.loop_eq, State.loop_eq, State.stream_setPc, State.ctx_setPc]
  split
  · next h => rw [Ctx.getLoop_putPc h]
  · rfl

end Sys2Proof.Machine
end

section
/-! PROOFS. The frame of a scalar update, and a bundle that goes on (R44, R94). -/

open Sys2Proof Sys2Proof.Machine Sys2Proof.Claims
namespace Sys2Proof.Machine

/-! ## The frame of a scalar update -/

/-- Of a context only scalar registers, predicates, where `sat` the bit CORE.SAT, and in split mode those of one stream's bank and its
place in the code may differ. -/
structure Ctx.Kept (sat : Bool) (stream : Nat) (x y : Ctx) : Prop where
  own : { y with g := x.g, p := x.p, split := x.split, sat := if sat then x.sat else y.sat } = x
  mode : y.split.isSome = x.split.isSome
  others : ∀ j, j ≠ stream → y.bank j = x.bank j
  bank : { y.bank stream with g := (x.bank stream).g, p := (x.bank stream).p, pc := (x.bank stream).pc, since := (x.bank stream).since } =
    x.bank stream

theorem Ctx.Kept.refl (sat : Bool) (i : Nat) (x : Ctx) : Ctx.Kept sat i x x := ⟨by simp, rfl, fun _ _ => rfl, rfl⟩

theorem Ctx.Kept.trans {sat : Bool} {i : Nat} {x y z : Ctx} (h : Ctx.Kept sat i x y) (h' : Ctx.Kept sat i y z) : Ctx.Kept sat i x z where
  own := by
    have h1 := h.own
    have h2 := h'.own
    cases sat
    · exact (congrArg (fun c : Ctx => { c with g := x.g, p := x.p, split := x.split }) h2).trans h1
    · exact (congrArg (fun c : Ctx => { c with g := x.g, p := x.p, split := x.split, sat := x.sat }) h2).trans h1
  mode := h'.mode.trans h.mode
  others j hj := (h'.others j hj).trans (h.others j hj)
  bank := (congrArg (fun b : Stream =>
    { b with g := (x.bank i).g, p := (x.bank i).p, pc := (x.bank i).pc, since := (x.bank i).since }) h'.bank).trans h.bank

/-- An update of the stream's own bank. -/
theorem Ctx.Kept.modBank {sat : Bool} {i : Nat} {x : Ctx} {f : Stream → Stream}
    (hf : ∀ b, { f b with g := b.g, p := b.p, pc := b.pc, since := b.since } = b) : Ctx.Kept sat i x (x.modBank i f) where
  own := by cases sat <;> rfl
  mode := Ctx.isSome_modBank x i f
  others j hj := by
    cases hs : x.split.isSome
    · simp [Ctx.bank, Ctx.modBank, Option.isSome_eq_false_iff.mp hs |> Option.isNone_iff_eq_none.mp]
    · rw [Ctx.bank_modBank hs, if_neg hj]
  bank := by
    cases hs : x.split.isSome
    · simp [Ctx.bank, Ctx.modBank, Option.isSome_eq_false_iff.mp hs |> Option.isNone_iff_eq_none.mp]
    · rw [Ctx.bank_modBank hs, if_pos rfl]; exact hf _

theorem Ctx.Kept.putG (sat : Bool) (i r : Nat) (x : Ctx) (v : Word) : Ctx.Kept sat i x (x.putG i r v) := by
  unfold Ctx.putG
  split
  · exact .modBank fun _ => rfl
  · exact ⟨by cases sat <;> rfl, rfl, fun _ _ => rfl, rfl⟩
theorem Ctx.Kept.putP (sat : Bool) (i r : Nat) (x : Ctx) (v : Bool) : Ctx.Kept sat i x (x.putP i r v) := by
  unfold Ctx.putP
  split
  · exact .modBank fun _ => rfl
  · exact ⟨by cases sat <;> rfl, rfl, fun _ _ => rfl, rfl⟩
theorem Ctx.Kept.putPc (sat : Bool) (i now : Nat) (x : Ctx) (a : Addr) : Ctx.Kept sat i x (x.putPc i now a) := .modBank fun _ => rfl
theorem Ctx.Kept.setSat (i : Nat) (x : Ctx) (b : Bool) : Ctx.Kept true i x { x with sat := b } := ⟨rfl, rfl, fun _ _ => rfl, rfl⟩

/-- Of the state only the running context, within the frame above, and the place in the code of the running core may differ. -/
structure ScalarMove (sat : Bool) (s t : State) : Prop where
  rest : { t with cores := s.cores } = s
  cores : ∀ c, c ≠ s.focus → t.core c = s.core c
  me : { t.me with ctxs := s.me.ctxs, pc := s.me.pc } = s.me
  ctxs : ∀ x, x ≠ s.stg → t.me.ctx x = s.me.ctx x
  ctx : Ctx.Kept sat s.stream s.ctx t.ctx

namespace ScalarMove
variable {sat : Bool} {s t u : State}

theorem refl (sat : Bool) (s : State) : ScalarMove sat s s := ⟨rfl, fun _ _ => rfl, rfl, fun _ _ => rfl, .refl sat _ _⟩

theorem focus (h : ScalarMove sat s t) : t.focus = s.focus := (congrArg State.focus h.rest :)
theorem stream (h : ScalarMove sat s t) : t.stream = s.stream := (congrArg State.stream h.rest :)
theorem mem (h : ScalarMove sat s t) : t.mem = s.mem := (congrArg State.mem h.rest :)
theorem hub (h : ScalarMove sat s t) : t.hub = s.hub := by rw [State.hub, h.focus]; rfl
theorem stg (h : ScalarMove sat s t) : t.stg = s.stg := by
  rw [State.stg, h.hub, show t.me.firing = s.me.firing from (congrArg Core.firing h.me :)]; rfl
theorem inSplit (h : ScalarMove sat s t) : t.inSplit = s.inSplit := h.ctx.mode

theorem trans (h : ScalarMove sat s t) (h' : ScalarMove sat t u) : ScalarMove sat s u where
  rest := (congrArg (fun x : State => { x with cores := s.cores }) h'.rest).trans h.rest
  cores c hc := (h'.cores c (by rw [h.focus]; exact hc)).trans (h.cores c hc)
  me := (congrArg (fun k : Core => { k with ctxs := s.me.ctxs, pc := s.me.pc }) h'.me).trans h.me
  ctxs x hx := (h'.ctxs x (by rw [h.stg]; exact hx)).trans (h.ctxs x hx)
  ctx := h.ctx.trans (h.stream ▸ h'.ctx)

/-- An update of the running context within the frame. -/
theorem modCtx {f : Ctx → Ctx} (hf : Ctx.Kept sat s.stream s.ctx (f s.ctx)) : ScalarMove sat s (s.modCtx f) where
  rest := rfl
  cores c hc := by rw [State.modCtx, State.core_modMe, if_neg hc]
  me := by rw [State.modCtx, State.me_modMe]; rfl
  ctxs x hx := by rw [State.modCtx, State.me_modMe, Core.ctx_modCtx, if_neg hx]
  ctx := by rw [State.ctx_modCtx]; exact hf

theorem setG (sat : Bool) (s : State) (d : GReg) (v : Word) : ScalarMove sat s (s.setG d v) := by
  by_cases hd : d = 0
  · rw [hd, State.setG_zero]; exact refl sat s
  · rw [State.setG_eq s v hd]; exact modCtx (.putG ..)
theorem setP (sat : Bool) (s : State) (d : PReg) (b : Bool) : ScalarMove sat s (s.setP d b) := by
  by_cases hd : d = 0
  · rw [hd, State.setP_zero]; exact refl sat s
  · rw [State.setP_eq s b hd]; exact modCtx (.putP ..)
theorem setPc (sat : Bool) (s : State) (a : Addr) : ScalarMove sat s (s.setPc a) := by
  cases h : s.inSplit
  · rw [State.setPc_vliw h]
    refine ⟨rfl, fun c hc => by rw [State.core_modMe, if_neg hc], by rw [State.me_modMe], fun x _ => by rw [State.me_modMe]; rfl, ?_⟩
    rw [State.ctx_modMe_pc]; exact .refl ..
  · rw [State.setPc_split h]; exact modCtx (.putPc ..)
theorem setSat (s : State) (b : Bool) : ScalarMove true s (s.setSat b) := by
  unfold State.setSat
  split
  · exact modCtx (.setSat ..)
  · exact refl true s

/-- In the words of the claims. -/
theorem banks (h : ScalarMove sat s t) : banksKept s t := ⟨h.inSplit, h.ctx.others, h.ctx.bank⟩
theorem scalar (h : ScalarMove false s t) : scalarFrame s t :=
  ⟨h.rest, h.cores, h.me, h.ctxs, h.ctx.own, h.banks, State.byte_congr h.mem⟩

end ScalarMove

/-! ## A bundle that goes on -/

theorem State.stepOne_ordinary {s : State} (h : ordinary s) : s.me.stepOne = none := h.2.2

/-- No step of the debugger waits for the bundle. -/
theorem State.afterBundle_none {s : State} {c : Nat} (h : (s.core c).stepOne = none) : s.afterBundle c = s := by
  simp [State.afterBundle, h]

/-- A state with the loop levels and the place in the code of an ordinary one goes on at the next bundle. -/
theorem State.retire_next {s u : State} (h : ordinary s) (hl : ∀ j, u.loop j = s.loop j) (hh : u.hub = s.hub) :
    u.retire s.pc .seq = u.setPc (s.pc + 32) := by
  have hb : u.loopBranch s.pc 4 = (u, none) := State.loopBranch_none (j := 0) (by omega) fun k _ hk he =>
    ordinary_endsAt h k hk (by unfold endsAt at *; rwa [hl] at he)
  rw [State.retire_on hb, if_neg]
  rintro ⟨h1, h2⟩
  rcases h.2.1 with h' | h'
  · rw [hh, h'] at h1; cases h1
  · exact h' h2

theorem goesOn_ordinary {s u : State} (h : ordinary s) (hl : ∀ j, u.loop j = s.loop j) (hf : u.focus = s.focus)
    (hs : u.me.stepOne = none) : goesOn s u = u.setPc (s.pc + 32) := by
  have hh : u.hub = s.hub := by rw [State.hub, hf]; rfl
  have hm := ScalarMove.setPc false u (s.pc + 32)
  rw [goesOn, State.retire_next h hl hh, State.afterBundle_none]
  have hme : (u.setPc (s.pc + 32)).me.stepOne = u.me.stepOne := (congrArg Core.stepOne hm.me :)
  rw [← hs, ← hme, State.me, hm.focus, hf]

end Sys2Proof.Machine
end

section
/-! PROOFS. The operations that write one g-register or one predicate, and nothing else (R121, R122, R132). -/

open Sys2Proof Sys2Proof.Machine Sys2Proof.Claims
namespace Sys2Proof.Machine

/-! ## The operations that write one g-register or one predicate, and nothing else -/

/-- An operation without waits or faults that writes one g-register. -/
def writeGOp (sl : Slot) (d : GReg) (h : State → Word) : SlotOp := plainOp sl (Uses.ofG d) fun pre cur => cur.setG d (h pre)
/-- One that writes one predicate. -/
def writePOp (sl : Slot) (pd : PReg) (h : State → Bool) : SlotOp := plainOp sl (Uses.ofP pd) fun pre cur => cur.setP pd (h pre)

theorem eq_of_some_pair {α β : Type} {a a' : α} {b b' : β} (h : some (a, b) = some (a', b')) : a = a' :=
  congrArg Prod.fst (Option.some.inj h)

theorem exec_of_intResult {i : Instr} {d : GReg} {f : State → Word} (h : intResult i = some (d, f)) :
    ∃ sl v, (sl = .s0 ∨ sl = .q) ∧ ∀ s, Machine.exec i s = issue (writeGOp sl d v) s := by
  unfold intResult at h
  split at h
  case h_48 => cases h
  all_goals
    cases eq_of_some_pair h
    refine ⟨_, _, ?_, fun _ => rfl⟩
    decide

theorem exec_of_floatResult {i : Instr} {d : GReg} {f : State → Word} (h : floatResult i = some (d, f)) :
    ∃ v, ∀ s, Machine.exec i s = issue (writeGOp .s0 d v) s := by
  unfold floatResult at h
  split at h
  case h_10 => cases h
  all_goals
    cases eq_of_some_pair h
    exact ⟨_, fun _ => rfl⟩

theorem exec_of_predResult {i : Instr} {pd : PReg} {f : State → Bool} (h : predResult i = some (pd, f)) :
    ∃ sl v, ∀ s, Machine.exec i s = issue (writePOp sl pd v) s := by
  unfold predResult at h
  split at h
  case h_8 => cases h
  all_goals
    cases eq_of_some_pair h
    exact ⟨_, _, fun _ => rfl⟩

/-- Either kind of result. -/
theorem exec_of_result {i : Instr} {d : GReg} {f : State → Word} (h : intResult i = some (d, f) ∨ floatResult i = some (d, f)) :
    ∃ sl v, (sl = .s0 ∨ sl = .q) ∧ ∀ s, Machine.exec i s = issue (writeGOp sl d v) s := by
  rcases h with h | h
  · exact exec_of_intResult h
  · obtain ⟨v, hv⟩ := exec_of_floatResult h
    exact ⟨.s0, v, .inl rfl, hv⟩

theorem issue_writeGOp {s : State} {sl : Slot} {d : GReg} {v : State → Word} (hb : bankOk s d) :
    issue (writeGOp sl d v) s = completes s (s.setG d (v s)) :=
  issue_commit (o := writeGOp sl d v) (t := s.setG d (v s)) (f := .seq)
    (SlotOp.decodeFault_bankOk (SlotOp.forbidden_both rfl rfl) rfl hb) (State.guard_always s) (fun _ => Nat.zero_le _) rfl (by decide)

theorem issue_writePOp {s : State} {sl : Slot} {pd : PReg} {v : State → Bool} :
    issue (writePOp sl pd v) s = completes s (s.setP pd (v s)) :=
  issue_commit (o := writePOp sl pd v) (t := s.setP pd (v s)) (f := .seq)
    (SlotOp.decodeFault_noG (SlotOp.forbidden_both rfl rfl) rfl) (State.guard_always s) (fun _ => Nat.zero_le _) rfl (by decide)

/-- What a write of a g-register at an ordinary place leaves. -/
theorem goesOn_setG {s : State} (h : ordinary s) (d : GReg) (v : Word) : goesOn s (s.setG d v) = (s.setG d v).setPc (s.pc + 32) :=
  goesOn_ordinary h (fun j => s.loop_setG d j v) (ScalarMove.setG false s d v).focus
    ((congrArg Core.stepOne (ScalarMove.setG false s d v).me :).trans h.2.2)
theorem goesOn_setP {s : State} (h : ordinary s) (d : PReg) (b : Bool) : goesOn s (s.setP d b) = (s.setP d b).setPc (s.pc + 32) :=
  goesOn_ordinary h (fun j => s.loop_setP d j b) (ScalarMove.setP false s d b).focus
    ((congrArg Core.stepOne (ScalarMove.setP false s d b).me :).trans h.2.2)

theorem scalarFrame_setG {s : State} (h : ordinary s) (d : GReg) (v : Word) :
    let t := goesOn s (s.setG d v)
    scalarFrame s t ∧ t.pc = s.pc + 32 ∧ (∀ r : GReg, r ≠ d → t.g r = s.g r) ∧ (∀ r : PReg, t.p r = s.p r) ∧ ∀ j, t.loop j = s.loop j := by
  intro t
  have ht : t = (s.setG d v).setPc (s.pc + 32) := goesOn_setG h d v
  refine ⟨?_, ?_, fun r hr => ?_, fun r => ?_, fun j => ?_⟩
  · rw [ht]; exact ((ScalarMove.setG false s d v).trans (.setPc ..)).scalar
  · rw [ht, State.pc_setPc]
  · rw [ht, State.g_setPc, State.g_setG, if_neg hr]
    split
    · next h0 => rw [h0]; rfl
    · rfl
  · rw [ht, State.p_setPc, State.p_setG]
  · rw [ht, State.loop_setPc, State.loop_setG]

theorem scalarFrame_setP {s : State} (h : ordinary s) (d : PReg) (b : Bool) :
    let t := goesOn s (s.setP d b)
    scalarFrame s t ∧ t.pc = s.pc + 32 ∧ (∀ r : GReg, t.g r = s.g r) ∧ (∀ r : PReg, r ≠ d → t.p r = s.p r) ∧ ∀ j, t.loop j = s.loop j := by
  intro t
  have ht : t = (s.setP d b).setPc (s.pc + 32) := goesOn_setP h d b
  refine ⟨?_, ?_, fun r => ?_, fun r hr => ?_, fun j => ?_⟩
  · rw [ht]; exact ((ScalarMove.setP false s d b).trans (.setPc ..)).scalar
  · rw [ht, State.pc_setPc]
  · rw [ht, State.g_setPc, State.g_setP]
  · rw [ht, State.p_setPc, State.p_setP, if_neg hr]
    split
    · next h0 => rw [h0]; rfl
    · rfl
  · rw [ht, State.loop_setPc, State.loop_setP]

end Sys2Proof.Machine
end

section
/-! PROOFS. The other operations that write one g-register (R44, R48, R80): what a conversion, a load, an atomic, a system register, a wait,
a read of a port and a result read do besides writing it. -/

open Sys2Proof Sys2Proof.Machine Sys2Proof.Claims
namespace Sys2Proof.Machine

/-! ## A result or a stop after another -/

theorem Res.bind_ok {α β : Type} {x : Res α} {f : α → Res β} {b : β} (h : x >>= f = .ok b) : ∃ a, x = .ok a ∧ f a = .ok b := by
  cases x with
  | error e => cases h
  | ok a => exact ⟨a, rfl, h⟩

theorem Res.bind_error {α β : Type} {x : Res α} {f : α → Res β} {e : Stop} (h : x >>= f = .error e) :
    x = .error e ∨ ∃ a, x = .ok a ∧ f a = .error e := by
  cases x with
  | error e' => exact .inl (congrArg Except.error (Except.error.inj h))
  | ok a => exact .inr ⟨a, rfl, h⟩

theorem Res.map_ok {α β : Type} {x : Res α} {f : α → β} {b : β} (h : x.map f = .ok b) : ∃ a, x = .ok a ∧ f a = b := by
  cases x with
  | error e => cases h
  | ok a => exact ⟨a, rfl, Except.ok.inj h⟩

theorem Res.map_error {α β : Type} {x : Res α} {f : α → β} {e : Stop} (h : x.map f = .error e) : x = .error e := by
  cases x with
  | error e' => exact congrArg Except.error (Except.error.inj h)
  | ok a => cases h

/-! ## The frame of the claim -/

theorem otherFrame_refl (i : Instr) (s : State) : otherFrame i s s := by
  refine ⟨?_, fun c _ => ?_, ?_, fun _ _ => rfl, ?_, ⟨rfl, fun _ _ => rfl, rfl⟩, fun _ _ => rfl⟩ <;> simp only [ite_self]

/-- A write of a scalar register or the place in the code keeps it. -/
theorem otherFrame_move {i : Instr} {s w t : State} (h : otherFrame i s w) (h' : ScalarMove false w t) : otherFrame i s t := by
  obtain ⟨hrest, hcores, hme, hctxs, hctx, ⟨hmode, hothers, hbank⟩, hmem⟩ := h
  have hf : w.focus = s.focus := (congrArg State.focus hrest :)
  have hst : w.stream = s.stream := (congrArg State.stream hrest :)
  have hstg : w.stg = s.stg := by
    rw [State.stg, State.hub, hf, show w.me.firing = s.me.firing from (congrArg Core.firing hme :)]; rfl
  have hk := h'.ctx
  rw [hst] at hk
  refine ⟨?_, fun c hc => ?_, ?_, fun x hx => ?_, ?_, ⟨hk.mode.trans hmode, fun j hj => (hk.others j hj).trans (hothers j hj), ?_⟩,
    fun ha a => ?_⟩
  · refine Eq.trans ?_ hrest
    conv_rhs => rw [← h'.rest]
  · rw [h'.cores c (by rw [hf]; exact hc)]; exact hcores c hc
  · refine Eq.trans ?_ hme
    conv_rhs => rw [← h'.me]
  · exact (h'.ctxs x (by rw [hstg]; exact hx)).trans (hctxs x hx)
  · refine Eq.trans ?_ hctx
    conv_rhs => rw [← hk.own]
    rfl
  · exact (congrArg (fun b : Stream => { b with
      g := (s.ctx.bank s.stream).g, p := (s.ctx.bank s.stream).p, pc := (s.ctx.bank s.stream).pc,
      since := (s.ctx.bank s.stream).since }) hk.bank).trans hbank
  · rw [← hmem ha a]; exact State.byte_congr h'.mem a

/-- What the operations touch beside registers: memory, the configuration space, flags, ports, a result queue. -/
def touchesMem : Instr → Bool | .amo .. => true | _ => false
def touchesCfg : Instr → Bool | .ld .. => true | _ => false
def touchesFlags : Instr → Bool | .cfWaitAny .. | .cfWaitAll .. => true | _ => false
def touchesPorts : Instr → Bool | .qpop .. => true | _ => false
def touchesResults : Instr → Bool | .epop .. => true | _ => false

/-- What an operation may change before it writes its register: of the running context nothing. -/
structure DeviceStep (i : Instr) (s w : State) : Prop where
  rest : { w with
    cores := s.cores, mem := if touchesMem i then s.mem else w.mem, eccBad := if touchesMem i then s.eccBad else w.eccBad
    eccSeen := if touchesMem i then s.eccSeen else w.eccSeen, power := if touchesCfg i then s.power else w.power
    circs := if touchesPorts i then s.circs else w.circs, kiln := if touchesPorts i then s.kiln else w.kiln } = s
  cores : ∀ c, c ≠ s.focus → { w.core c with
    oq := if touchesPorts i then (s.core c).oq else (w.core c).oq
    cfgRefused := if touchesCfg i then (s.core c).cfgRefused else (w.core c).cfgRefused } = s.core c
  me : { w.me with
    cf := if touchesFlags i then s.me.cf else w.me.cf, iq := if touchesPorts i then s.me.iq else w.me.iq
    oq := if touchesPorts i then s.me.oq else w.me.oq, rq := if touchesResults i then s.me.rq else w.me.rq
    cfgRefused := if touchesCfg i then s.me.cfgRefused else w.me.cfgRefused } = s.me

namespace DeviceStep
variable {i : Instr} {s w : State}

theorem refl (i : Instr) (s : State) : DeviceStep i s s := by constructor <;> intros <;> simp only [ite_self]
theorem focus (h : DeviceStep i s w) : w.focus = s.focus := (congrArg State.focus h.rest :)
theorem stream (h : DeviceStep i s w) : w.stream = s.stream := (congrArg State.stream h.rest :)
theorem ctxs (h : DeviceStep i s w) : w.me.ctxs = s.me.ctxs := (congrArg Core.ctxs h.me :)
theorem ctx (h : DeviceStep i s w) : w.ctx = s.ctx := by
  rw [State.ctx, Core.ctx, h.ctxs, State.stg, State.hub, h.focus, show w.me.firing = s.me.firing from (congrArg Core.firing h.me :)]
  rfl
theorem frame (h : DeviceStep i s w) : otherFrame i s w where
  left := h.rest
  right := by
    have hbanks : banksKept s w := by
      rw [banksKept, State.inSplit, h.ctx]
      exact ⟨rfl, fun _ _ => rfl, rfl⟩
    refine ⟨h.cores, (congrArg (fun k : Core => { k with ctxs := s.me.ctxs, pc := s.me.pc }) h.me :), fun x _ => ?_, ?_, hbanks, fun ha a => ?_⟩
    · rw [Core.ctx, h.ctxs]; rfl
    · rw [h.ctx]; simp only [ite_self]
    · have hm : w.mem = s.mem := by
        refine Eq.trans ?_ (congrArg State.mem h.rest)
        exact (if_neg (by rw [show touchesMem i = false from ha]; decide)).symm
      exact State.byte_congr hm a
theorem g (h : DeviceStep i s w) (r : GReg) : w.g r = s.g r := by rw [State.g_eq, State.g_eq, h.ctx, h.stream]
theorem p (h : DeviceStep i s w) (r : PReg) : w.p r = s.p r := by rw [State.p_eq, State.p_eq, h.ctx, h.stream]
theorem loop (h : DeviceStep i s w) (j : Nat) : w.loop j = s.loop j := by rw [State.loop_eq, State.loop_eq, h.ctx, h.stream]

end DeviceStep

/-- The effect of a bundle as the claim names it, but for the place in the code. -/
structure Moved (i : Instr) (d : GReg) (s t : State) : Prop where
  frame : otherFrame i s t
  g : ∀ r : GReg, r ≠ d → t.g r = s.g r
  p : ∀ r : PReg, r ≠ 7 ∨ writesP7 i = false → t.p r = s.p r
  loop : ∀ j, t.loop j = s.loop j

namespace Moved
variable {i : Instr} {d : GReg} {s t w : State}

theorem refl (i : Instr) (d : GReg) (s : State) : Moved i d s s := ⟨otherFrame_refl i s, fun _ _ => rfl, fun _ _ => rfl, fun _ => rfl⟩

/-- The operation itself: beside the register what `DeviceStep` allows. -/
theorem write (h : DeviceStep i s w) (d : GReg) (v : Word) : Moved i d s (w.setG d v) where
  frame := otherFrame_move h.frame (.setG false w d v)
  g r hr := by
    rw [State.g_setG, if_neg hr, h.g]
    split
    · next h0 => rw [h0]; rfl
    · rfl
  p r _ := by rw [State.p_setG, h.p]
  loop j := by rw [State.loop_setG, h.loop]

/-- A form with its stall bit clear also writes p7. -/
theorem notReady (h : Moved i d s t) (hp : writesP7 i = true) (b : Bool) : Moved i d s (t.notReady b) where
  frame := otherFrame_move h.frame (.setP false t 7 b)
  g r hr := (State.g_setP ..).trans (h.g r hr)
  p r hr := by
    have h7 : r ≠ 7 := hr.resolve_right (by rw [hp]; decide)
    rw [State.notReady, State.p_setP, if_neg h7]
    split
    · next h0 => rw [h0]; rfl
    · exact h.p r hr
  loop j := (State.loop_setP ..).trans (h.loop j)

/-- At an ordinary place control goes on at the next bundle, and the rest stays so. -/
theorem goesOn (h : Moved i d s t) (ho : ordinary s) :
    otherFrame i s (goesOn s t) ∧ (Claims.goesOn s t).pc = s.pc + 32 ∧ (∀ r : GReg, r ≠ d → (Claims.goesOn s t).g r = s.g r) ∧
      (∀ r : PReg, r ≠ 7 ∨ writesP7 i = false → (Claims.goesOn s t).p r = s.p r) ∧ ∀ j, (Claims.goesOn s t).loop j = s.loop j := by
  obtain ⟨hrest, -, hme, -⟩ := h.frame
  have e := goesOn_ordinary ho h.loop (congrArg State.focus hrest :) ((congrArg Core.stepOne hme :).trans ho.2.2)
  rw [e]
  exact ⟨otherFrame_move h.frame (.setPc ..), State.pc_setPc .., fun r hr => (State.g_setPc ..).trans (h.g r hr),
    fun r hr => (State.p_setPc ..).trans (h.p r hr), fun j => (State.loop_setPc ..).trans (h.loop j)⟩

end Moved

/-- How an operation of `otherDest` is made: it may run on every core and in split mode, names its one g-register, raises no PRIV of its
own, waits only where `mayWait` says so, and its effect is that of `Moved`. -/
structure DestForm (i : Instr) (d : GReg) (s : State) (o : SlotOp) : Prop where
  run : Machine.exec i s = issue o s
  legal : o.legal = .both
  splitOk : o.splitOk = true
  uses : (o.uses s).g = [d.toNat]
  level : o.level = 0
  barrier : o.barrier = false
  slot : o.slot = .s0 ∨ o.slot = .q ∨ o.slot = .c
  wait : o.fx s s = .error .wait → mayWait i s = true
  moved : ∀ r, o.fx s s = .ok r → r.2 = .seq ∧ Moved i d s r.1

namespace DestForm
variable {i : Instr} {d : GReg} {s : State} {o : SlotOp}

/-- It waits, faults, or acts (the first half of R80 and R94). -/
theorem outcome (h : DestForm i d s o) (hb : bankOk s d) :
    (mayWait i s = true ∧ Machine.exec i s = .next s) ∨ (∃ e sl, Machine.exec i s = faults s e sl) ∨
      ∃ t, Moved i d s t ∧ Machine.exec i s = completes s t := by
  have hf : o.forbidden s = false := SlotOp.forbidden_both h.legal h.splitOk
  have hd := SlotOp.decodeFault_bankOk hf h.uses hb
  have hl : s.hub = true → o.level ≤ s.me.hub.priv.code := fun _ => by rw [h.level]; exact Nat.zero_le _
  rw [h.run]
  cases hg : s.guard o.guard
  · cases hst : o.static s with
    | none => exact .inr (.inr ⟨s, .refl .., issue_guarded (hd.trans hst) hg⟩)
    | some e => exact .inr (.inl ⟨_, _, issue_faults_illop (hd.trans hst) (.inr (.inl hg)) h.barrier⟩)
  · cases hx : o.fx s s with
    | error e =>
      cases e with
      | wait => exact .inl ⟨h.wait hx, issue_wait hf hg hx⟩
      | trap e =>
        cases hst : o.static s with
        | none => exact .inr (.inl ⟨_, _, issue_faults (hd.trans hst) hg hl hx h.barrier⟩)
        | some e' => exact .inr (.inl ⟨_, _, issue_faults_illop (hd.trans hst) (.inr (.inr (by simp [hx]))) h.barrier⟩)
    | ok r =>
      obtain ⟨t, f⟩ := r
      obtain ⟨rfl, hm⟩ := h.moved _ hx
      cases hst : o.static s with
      | none => exact .inr (.inr ⟨t, hm, issue_commit (hd.trans hst) hg hl hx (by decide)⟩)
      | some e' => exact .inr (.inl ⟨_, _, issue_faults_illop (hd.trans hst) (.inr (.inr (by simp [hx]))) h.barrier⟩)

/-- In split mode a register of the VLIW bank is an ILLOP once it no longer waits (R44). -/
theorem bankFault (h : DestForm i d s o) (hs : s.inSplit = true) (h0 : d ≠ 0) (h16 : d.toNat < 16) :
    (mayWait i s = true ∧ Machine.exec i s = .next s) ∨
      ∃ sl : Slot, (sl = .s0 ∨ sl = .q ∨ sl = .c) ∧ Machine.exec i s = faults s (illopT 0x0A) sl := by
  have hf : o.forbidden s = false := SlotOp.forbidden_both h.legal h.splitOk
  have hd := SlotOp.decodeFault_bank hf h.uses hs h0 h16
  rw [h.run]
  cases hg : s.guard o.guard
  · exact .inr ⟨_, h.slot, issue_faults_illop hd (.inr (.inl hg)) h.barrier⟩
  · by_cases hx : o.fx s s = .error .wait
    · exact .inl ⟨h.wait hx, issue_wait hf hg hx⟩
    · refine .inr ⟨_, h.slot, issue_faults_illop hd (.inr (.inr ⟨hx, fun t ht => ?_⟩)) h.barrier⟩
      exact absurd (h.moved _ ht).1 (by simp)

end DestForm

end Sys2Proof.Machine
end

section
/-! PROOFS. Each operation of `otherDest` as a form of the claim, and the claims themselves (R44, R48, R80, R94). -/

open Sys2Proof Sys2Proof.Machine Sys2Proof.Claims
namespace Sys2Proof.Machine

/-! ## Effects that write the register at once -/

/-- A conversion also moves CORE.SAT. -/
theorem fcvt_frame {op : FcvtOp} {d a : GReg} {r : Rnd} {s t : State} (h : ScalarMove true s t) : otherFrame (.fcvt op d a r) s t :=
  ⟨h.rest, h.cores, h.me, h.ctxs, h.ctx.own, h.banks, fun _ => State.byte_congr h.mem⟩

theorem State.setSat_bits (s : State) (b : Bool) :
    (∀ r : GReg, (s.setSat b).g r = s.g r) ∧ (∀ r : PReg, (s.setSat b).p r = s.p r) ∧ ∀ j, (s.setSat b).loop j = s.loop j := by
  unfold State.setSat
  split
  · exact ⟨fun r => by rw [State.g_eq, State.ctx_modCtx]; rfl, fun r => by rw [State.p_eq, State.ctx_modCtx]; rfl,
      fun j => by rw [State.loop_eq, State.ctx_modCtx]; rfl⟩
  · exact ⟨fun _ => rfl, fun _ => rfl, fun _ => rfl⟩

/-- The shape that the forms share: legal everywhere, no level, one g-register, no barrier. -/
def SlotOp.destShape (o : SlotOp) (d : GReg) (s : State) : Prop :=
  o.legal = .both ∧ o.splitOk = true ∧ (o.uses s).g = [d.toNat] ∧ o.level = 0 ∧ o.barrier = false ∧ (o.slot = .s0 ∨ o.slot = .q ∨ o.slot = .c)

theorem DestForm.of_shape {i : Instr} {d : GReg} {s : State} {o : SlotOp} (run : Machine.exec i s = issue o s) (shape : o.destShape d s)
    (wait : o.fx s s = .error .wait → mayWait i s = true) (moved : ∀ r, o.fx s s = .ok r → r.2 = .seq ∧ Moved i d s r.1) :
    DestForm i d s o :=
  let ⟨hl, hsp, hu, hv, hb, hs⟩ := shape
  ⟨run, hl, hsp, hu, hv, hb, hs, wait, moved⟩

theorem fcvt_form (op : FcvtOp) (d a : GReg) (r : Rnd) (s : State) : DestForm (.fcvt op d a r) d s (opFcvt .s0 op d a r) :=
  .of_shape rfl ⟨rfl, rfl, rfl, rfl, rfl, .inl rfl⟩ (fun h => by cases h) fun x hx => by
    cases hx
    have hm := Moved.write (.refl (.fcvt op d a r) s) d (fcvtW op (s.rnd r) (s.g a)).1
    obtain ⟨hg, hp, hl⟩ := State.setSat_bits (s.setG d (fcvtW op (s.rnd r) (s.g a)).1) (fcvtW op (s.rnd r) (s.g a)).2
    exact ⟨rfl, fcvt_frame ((ScalarMove.setG true s d _).trans (.setSat ..)), fun r hr => (hg r).trans (hm.g r hr),
      fun r hr => (hp r).trans (hm.p r hr), fun j => (hl j).trans (hm.loop j)⟩

/-! ## The C slot -/

theorem sysrOp_form {i : Instr} {d : GReg} {s : State} {g : Guard} {n : Nat} {ok : State → Res Unit}
    (run : Machine.exec i s = issue (sysrOp g d n ok) s) (wait : ok s = .error .wait → mayWait i s = true) :
    DestForm i d s (sysrOp g d n ok) :=
  .of_shape run ⟨rfl, rfl, rfl, rfl, rfl, .inr (.inr rfl)⟩
    (fun h => by
      rcases Res.bind_error h with h | ⟨-, -, h⟩
      · unfold State.sysReadOk at h
        split at h <;> cases h
      · rcases Res.bind_error h with h | ⟨-, -, h⟩
        · exact wait h
        · cases h)
    (fun r hr => by
      obtain ⟨-, -, hr⟩ := Res.bind_ok hr
      obtain ⟨-, -, hr⟩ := Res.bind_ok hr
      cases hr
      exact ⟨rfl, Moved.write (.refl i s) d _⟩)

theorem sysr_form (g : Guard) (d : GReg) (n : BitVec 12) (s : State) : DestForm (.sysr g d n) d s (opSysr g d n) :=
  sysrOp_form rfl (fun h => by cases h)

theorem coreSatRead_form (g : Guard) (d : GReg) (s : State) : DestForm (.coreSatRead g d) d s (opCoreSatRead g d) :=
  sysrOp_form rfl fun _ => rfl

theorem cfFfr_form (g : Guard) (d m : GReg) (s : State) : DestForm (.cfFfr g d m) d s (opCfFfr g d m) :=
  .of_shape rfl ⟨rfl, rfl, rfl, rfl, rfl, .inr (.inr rfl)⟩ (fun h => by cases h) fun r hr => by
    cases hr
    exact ⟨rfl, Moved.write (.refl ..) d _⟩

theorem cfStat_form (g : Guard) (cf : BitVec 6) (d : GReg) (s : State) : DestForm (.cfStat g cf d) d s (opCfStat g cf d) :=
  .of_shape rfl ⟨rfl, rfl, rfl, rfl, rfl, .inr (.inr rfl)⟩ (fun h => by cases h) fun r hr => by
    cases hr
    exact ⟨rfl, Moved.write (.refl ..) d _⟩

theorem cfWaitAny_form (g : Guard) (d m : GReg) (s : State) : DestForm (.cfWaitAny g d m) d s (opCfWaitAny g d m) :=
  .of_shape rfl ⟨rfl, rfl, rfl, rfl, rfl, .inr (.inr rfl)⟩ (fun _ => rfl) fun r hr => by
    simp only [opCfWaitAny, cOp] at hr
    split at hr
    · cases hr
    · split at hr
      · cases hr
      · cases hr
        refine ⟨rfl, Moved.write ⟨rfl, fun c hc => ?_, ?_⟩ d _⟩
        · rw [State.core_modMe, if_neg hc]; rfl
        · rw [State.me_modMe]; rfl

theorem cfWaitAll_form (g : Guard) (d m : GReg) (s : State) : DestForm (.cfWaitAll g d m) d s (opCfWaitAll g d m) :=
  .of_shape rfl ⟨rfl, rfl, rfl, rfl, rfl, .inr (.inr rfl)⟩ (fun _ => rfl) fun r hr => by
    simp only [opCfWaitAll, cOp] at hr
    split at hr
    · cases hr
    · split at hr
      · cases hr
      · cases hr
        obtain ⟨cf, hcf⟩ : ∃ cf, s.me.consumeAll (s.g m) = { s.me with cf := cf } := s.me.foldl_modFlag_eq _ _ _
        refine ⟨rfl, Moved.write ⟨rfl, fun c hc => ?_, ?_⟩ d _⟩
        · rw [State.core_modMe, if_neg hc]; rfl
        · rw [State.me_modMe, hcf]; rfl

/-! ## The Q slot -/

/-- A read that waits on nothing. -/
theorem State.iqOk_ne_wait (s : State) (n : Nat) : s.iqOk n ≠ .error .wait := by
  unfold State.iqOk
  simp only
  split
  · exact nofun
  · split
    · exact nofun
    · split <;> exact nofun

theorem State.oqOk_ne_wait (s : State) (n : Nat) : s.oqOk n ≠ .error .wait := by
  unfold State.oqOk
  simp only
  split
  · exact nofun
  · split
    · exact nofun
    · split <;> exact nofun

theorem qfree_form (d : GReg) (oq : BitVec 4) (s : State) : DestForm (.qfree d oq) d s (opQfree d oq) :=
  .of_shape rfl ⟨rfl, rfl, rfl, rfl, rfl, .inr (.inl rfl)⟩
    (fun h => by
      rcases Res.bind_error h with h | ⟨-, -, h⟩
      · exact absurd h (s.oqOk_ne_wait _)
      · cases h)
    (fun r hr => by
      obtain ⟨-, -, hr⟩ := Res.bind_ok hr
      cases hr
      exact ⟨rfl, Moved.write (.refl ..) d _⟩)

theorem qavail_form (d : GReg) (iq : BitVec 4) (s : State) : DestForm (.qavail d iq) d s (opQavail d iq) :=
  .of_shape rfl ⟨rfl, rfl, rfl, rfl, rfl, .inr (.inl rfl)⟩
    (fun h => by
      rcases Res.bind_error h with h | ⟨-, -, h⟩
      · exact absurd h (s.iqOk_ne_wait _)
      · cases h)
    (fun r hr => by
      obtain ⟨-, -, hr⟩ := Res.bind_ok hr
      cases hr
      exact ⟨rfl, Moved.write (.refl ..) d _⟩)

theorem qstat_form (d : GReg) (port : BitVec 5) (s : State) : DestForm (.qstat d port) d s (opQstat d port) := by
  refine .of_shape rfl ⟨rfl, rfl, ?_, rfl, rfl, .inr (.inl rfl)⟩ (fun h => ?_) fun r hr => ?_
  · simp only [opQstat, qOp]
    split <;> rfl
  · simp only [opQstat, qOp] at h
    split at h
    · rcases Res.bind_error h with h | ⟨-, -, h⟩
      · exact absurd h (s.iqOk_ne_wait _)
      · cases h
    · rcases Res.bind_error h with h | ⟨-, -, h⟩
      · exact absurd h (s.oqOk_ne_wait _)
      · cases h
  · simp only [opQstat, qOp] at hr
    split at hr
    · obtain ⟨-, -, hr⟩ := Res.bind_ok hr
      cases hr
      exact ⟨rfl, Moved.write (.refl ..) d _⟩
    · obtain ⟨-, -, hr⟩ := Res.bind_ok hr
      cases hr
      exact ⟨rfl, Moved.write (.refl ..) d _⟩

/-- A form with a stall bit waits only where the bit is set, on its port or in its act (R80). -/
theorem State.qRun_wait {α : Type} {cur : State} {stall : Bool} {avail : Res α} {act : α → Res State}
    (h : cur.qRun stall avail act = .error .wait) : stall = true ∨ ∃ a, act a = .error .wait := by
  unfold State.qRun at h
  split at h
  · next a => exact .inr ⟨a, Res.map_error h⟩
  · split at h
    · cases h
    · next e hs =>
      cases h
      cases stall
      · exact absurd rfl hs
      · exact .inl rfl

/-- Where it acts, it does so on what was there, or it reports in p7 that nothing was. -/
theorem State.qRun_ok {α : Type} {cur : State} {stall : Bool} {avail : Res α} {act : α → Res State} {r : State × Flow}
    (h : cur.qRun stall avail act = .ok r) : r.2 = .seq ∧
      ((∃ a u, avail = .ok a ∧ act a = .ok u ∧ r.1 = if stall then u else u.notReady false) ∨ (stall = false ∧ r.1 = cur.notReady true)) := by
  unfold State.qRun at h
  split at h
  · next a =>
    obtain ⟨u, hu, rfl⟩ := Res.map_ok h
    exact ⟨rfl, .inl ⟨a, u, rfl, hu, rfl⟩⟩
  · split at h
    · next hs =>
      cases h
      cases stall
      · exact ⟨rfl, .inr ⟨rfl, rfl⟩⟩
      · cases hs
    · cases h

/-- So a form with a stall bit is one of the claim's, once its act is. -/
theorem qRun_moved {i : Instr} {d : GReg} {α : Type} {s : State} {stall : Bool} {avail : Res α} {act : α → Res State} {r : State × Flow}
    (h : s.qRun stall avail act = .ok r) (hp : writesP7 i = !stall)
    (hact : ∀ a u, avail = .ok a → act a = .ok u → ∃ w v, DeviceStep i s w ∧ u = w.setG d v) : r.2 = .seq ∧ Moved i d s r.1 := by
  obtain ⟨hf, ⟨a, u, ha, hu, hr⟩ | ⟨hs, hr⟩⟩ := State.qRun_ok h
  · obtain ⟨w, v, hw, rfl⟩ := hact a u ha hu
    refine ⟨hf, ?_⟩
    rw [hr]
    cases stall
    · exact (Moved.write hw d v).notReady hp false
    · exact Moved.write hw d v
  · refine ⟨hf, ?_⟩
    rw [hr]
    exact (Moved.refl i d s).notReady (by rw [hp, hs]; rfl) true

theorem qpeek_form (d : GReg) (iq : BitVec 4) (stall : Bool) (beat : BitVec 6) (w : BitVec 3) (s : State) :
    DestForm (.qpeek d iq stall beat w) d s (opQpeek d iq stall beat w) :=
  .of_shape rfl ⟨rfl, rfl, rfl, rfl, rfl, .inr (.inl rfl)⟩
    (fun h => by
      rcases Res.bind_error h with h | ⟨-, -, h⟩
      · exact absurd h (s.iqOk_ne_wait _)
      · exact (State.qRun_wait h).resolve_right nofun)
    (fun r hr => by
      obtain ⟨-, -, hr⟩ := Res.bind_ok hr
      exact qRun_moved hr rfl fun a u _ hu => ⟨s, _, .refl .., (Except.ok.inj hu).symm⟩)

theorem qhead_form (d : GReg) (iq : BitVec 4) (stall : Bool) (w : BitVec 3) (s : State) :
    DestForm (.qhead d iq stall w) d s (opQhead d iq stall w) :=
  .of_shape rfl ⟨rfl, rfl, rfl, rfl, rfl, .inr (.inl rfl)⟩
    (fun h => by
      rcases Res.bind_error h with h | ⟨-, -, h⟩
      · exact absurd h (s.iqOk_ne_wait _)
      · exact (State.qRun_wait h).resolve_right nofun)
    (fun r hr => by
      obtain ⟨-, -, hr⟩ := Res.bind_ok hr
      exact qRun_moved hr rfl fun a u _ hu => ⟨s, _, .refl .., (Except.ok.inj hu).symm⟩)

/-- A result read frees the entry. -/
theorem epop_form (d : GReg) (e : BitVec 5) (stall : Bool) (s : State) : DestForm (.epop d e stall) d s (opEpop d e stall) :=
  .of_shape rfl ⟨rfl, rfl, rfl, rfl, rfl, .inr (.inl rfl)⟩ (fun h => (State.qRun_wait h).resolve_right nofun) fun r hr =>
    qRun_moved hr rfl fun x u _ hu => by
      refine ⟨s.freeResult e.toNat x.1, _, ⟨rfl, fun c hc => ?_, ?_⟩, (Except.ok.inj hu).symm⟩
      · rw [State.freeResult, State.core_modMe, if_neg hc]; rfl
      · rw [State.freeResult, State.me_modMe]; rfl

end Sys2Proof.Machine
end

section
/-! PROOFS. Pops, loads and atomics as forms of the claim (R80, R139, R142, R243), and the frame and the split mode's fault of every operation
that writes a g-register or a predicate (R44, R94, R121). -/

open Sys2Proof Sys2Proof.Machine Sys2Proof.Claims
namespace Sys2Proof.Machine

/-! ## Ports -/

/-- Only ports, credits of circuits and the Kiln differ; of the input ports those of core c alone. -/
structure PortStep (c : Nat) (s w : State) : Prop where
  rest : { w with cores := s.cores, circs := s.circs, kiln := s.kiln } = s
  cores : ∀ d, { w.core d with iq := (s.core d).iq, oq := (s.core d).oq } = s.core d
  inputs : ∀ d, d ≠ c → (w.core d).iq = (s.core d).iq

namespace PortStep
variable {c : Nat} {s w u : State}

theorem refl (c : Nat) (s : State) : PortStep c s s := ⟨rfl, fun _ => rfl, fun _ _ => rfl⟩

theorem trans (h : PortStep c s w) (h' : PortStep c w u) : PortStep c s u where
  rest := (congrArg (fun x : State => { x with cores := s.cores, circs := s.circs, kiln := s.kiln }) h'.rest).trans h.rest
  cores d := (congrArg (fun k : Core => { k with iq := (s.core d).iq, oq := (s.core d).oq }) (h'.cores d)).trans (h.cores d)
  inputs d hd := (h'.inputs d hd).trans (h.inputs d hd)

theorem modIq (c : Nat) (s : State) (n : Nat) (f : IqPort → IqPort) : PortStep c s (s.modIq c n f) where
  rest := rfl
  cores d := by
    rw [State.modIq, State.core_modCore]
    split
    · next h => rw [h]
    · rfl
  inputs d hd := by rw [State.modIq, State.core_modCore, if_neg hd]

theorem modOq (c : Nat) (s : State) (d n : Nat) (f : OqPort → OqPort) : PortStep c s (s.modOq d n f) where
  rest := rfl
  cores e := by
    rw [State.modOq, State.core_modCore]
    split
    · next h => rw [h]
    · rfl
  inputs e _ := by
    rw [State.modOq, State.core_modCore]
    split
    · next h => rw [h]
    · rfl

theorem returnCredit (c : Nat) (s : State) (n : Nat) : PortStep c s (s.returnCredit c n) := by
  unfold State.returnCredit
  split
  · exact modOq ..
  · split
    · exact ⟨rfl, fun _ => rfl, fun _ _ => rfl⟩
    · exact modIq ..
  · exact ⟨rfl, fun _ => rfl, fun _ _ => rfl⟩
  · exact refl c s
  · exact refl c s

theorem removeHead (c : Nat) (s : State) (n : Nat) : PortStep c s (s.removeHead c n) := by
  simp only [State.removeHead]
  split
  · exact refl c s
  · exact (modIq c s n _).trans (returnCredit ..)

/-- Such a step is what a pop may do beside its register. -/
theorem device (h : PortStep s.focus s w) (d : GReg) (iq : BitVec 4) (stall t : Bool) : DeviceStep (.qpop d iq stall t) s w where
  rest := h.rest
  cores c hc := (congrArg (fun l => { w.core c with iq := l, oq := (s.core c).oq }) (h.inputs c hc)).trans (h.cores c)
  me := by
    have hm : w.me = w.core s.focus := by rw [State.me, show w.focus = s.focus from (congrArg State.focus h.rest :)]
    rw [hm]
    exact h.cores s.focus

theorem ite {p : Prop} [Decidable p] (h : PortStep c s w) (h' : PortStep c s u) : PortStep c s (if p then w else u) := by
  split
  · exact h
  · exact h'

end PortStep

theorem State.beginPop_ok {s u : State} {n : Nat} (h : s.beginPop n = .ok u) : u = s ∨ u = s.countPop s.focus n := by
  unfold State.beginPop at h
  split at h
  · obtain ⟨-, -, h⟩ := Res.bind_ok h
    exact .inr (Except.ok.inj h).symm
  · exact .inl (Except.ok.inj h).symm

theorem State.beginPop_step {s u : State} {n : Nat} (h : s.beginPop n = .ok u) : PortStep s.focus s u ∧ (u.iq s.focus n).q = (s.iq s.focus n).q := by
  rcases State.beginPop_ok h with rfl | rfl
  · exact ⟨.refl .., rfl⟩
  · refine ⟨.modIq .., ?_⟩
    rw [State.countPop, State.iq_modIq, if_pos ⟨rfl, rfl⟩]

theorem State.beginPop_ne_wait (s : State) (n : Nat) : s.beginPop n ≠ .error .wait := by
  unfold State.beginPop State.popRate need
  split
  · split <;> exact nofun
  · exact nofun

/-- A tile at the head of a port. -/
theorem State.headTile_ok {s : State} {n : Nat} {e : Entry} (h : s.headTile n = .ok e) :
    e.isMarker = false ∧ ∃ l, (s.iq s.focus n).q = e :: l := by
  obtain ⟨e', h', h⟩ := Res.bind_ok h
  obtain ⟨-, -, h⟩ := Res.bind_ok h
  cases h
  obtain ⟨e', hh, h⟩ := Res.bind_ok h'
  obtain ⟨x, hm, h⟩ := Res.bind_ok h
  cases h
  refine ⟨?_, ?_⟩
  · cases hk : e.isMarker
    · rfl
    · rw [hk] at hm; cases hm
  · simp only [State.headEntry] at hh
    split at hh
    · split at hh <;> cases hh
    · next hp =>
      cases hh
      unfold IqPort.present at hp
      split at hp
      · next hq =>
        split at hp
        · cases hp
        · cases hp; exact ⟨_, hq⟩
      · cases hp

/-- The removal of a tile clears no marker's claim on the firing. -/
theorem State.takeHead_tile {s : State} {n : Nat} {e : Entry} {l : List Entry} (hq : (s.iq s.focus n).q = e :: l) (hm : e.isMarker = false) :
    s.takeHead n = s.removeHead s.focus n := by
  simp [State.takeHead, hq, hm]

theorem State.popWord_step {s : State} {n : Nat} {e : Entry} {l : List Entry} (t : Bool) (hq : (s.iq s.focus n).q = e :: l) (hm : e.isMarker = false) :
    PortStep s.focus s (s.popWord n e t).2 := by
  have ht : PortStep s.focus s (s.takeHead n) := by
    rw [State.takeHead_tile hq hm]; exact .removeHead ..
  simp only [State.popWord]
  split
  · exact ht
  · exact .ite ht (.modIq ..)

theorem qpop_form (d : GReg) (iq : BitVec 4) (stall t : Bool) (s : State) : DestForm (.qpop d iq stall t) d s (opQpop d iq stall t) :=
  .of_shape rfl ⟨rfl, rfl, rfl, rfl, rfl, .inr (.inl rfl)⟩
    (fun h => by
      rcases Res.bind_error h with h | ⟨-, -, h⟩
      · exact absurd h (s.iqOk_ne_wait _)
      · refine (State.qRun_wait h).resolve_right fun ⟨e, he⟩ => ?_
        rcases Res.bind_error he with h | ⟨w, hw, h⟩
        · exact absurd h (s.beginPop_ne_wait _)
        · cases h)
    (fun r hr => by
      obtain ⟨-, -, hr⟩ := Res.bind_ok hr
      refine qRun_moved hr rfl fun e u he hu => ?_
      obtain ⟨w, hw, hu⟩ := Res.bind_ok hu
      obtain ⟨hm, l, hq⟩ := State.headTile_ok he
      obtain ⟨hstep, hq'⟩ := State.beginPop_step hw
      have hf : w.focus = s.focus := (congrArg State.focus hstep.rest :)
      have hpop : PortStep s.focus w (w.popWord iq.toNat e t).2 := by
        have := State.popWord_step (s := w) (n := iq.toNat) (e := e) (l := l) t (by rw [hf, hq', hq]) hm
        rwa [hf] at this
      exact ⟨_, _, (hstep.trans hpop).device .., (Except.ok.inj hu).symm⟩)

/-! ## Loads and atomics -/

theorem State.xlat_ne_wait (s : State) (c : Nat) (a : Access) (x : Word) (al n : Nat) : s.xlat c a x al n ≠ .error .wait := by
  simp only [State.xlat]
  split
  · exact nofun
  split
  · exact nofun
  split
  · split <;> exact nofun
  split
  · exact nofun
  split
  · exact nofun
  split
  · exact nofun
  split
  · exact nofun
  split <;> exact nofun

/-- Outside memory only a hub core reaches, through its direct map. -/
theorem State.hub_of_xlat {s : State} {c : Nat} {a : Access} {x : Word} {al n pa : Nat} (h : s.xlat c a x al n = .ok pa)
    (hm : (rangeOf pa).isMem = false) : isHub c = true := by
  simp only [State.xlat] at h
  split at h
  · cases h
  split at h
  · cases h
  split at h
  · next hd =>
    simp only [directMap, Bool.and_eq_true] at hd
    exact hd.1.1.1
  split at h
  · cases h
  split at h
  · cases h
  split at h
  · cases h
  split at h
  · cases h
  split at h
  · cases h
  · next hr =>
    cases h
    refine absurd ?_ hr
    simp only [Bool.or_eq_true, Bool.not_eq_true']
    refine .inl (.inl (.inl ?_))
    unfold reachSeg
    split
    · next e => rw [e] at hm; cases hm
    · next e => rw [e] at hm; cases hm
    · next e => rw [e] at hm; cases hm
    · rfl

theorem State.ldAt_wait {s : State} {x : Word} {n : Nat} (h : s.ldAt x n = .error .wait) : s.hub = true := by
  rcases Res.bind_error h with h | ⟨pa, hpa, h⟩
  · exact absurd h (s.xlat_ne_wait _ _ _ _ _)
  · split at h
    · split at h <;> cases h
    · next hm => exact State.hub_of_xlat hpa (by simpa using hm)

/-- A load outside memory wakes the core that it names and moves that core's refusal. -/
theorem State.ldSpecial_ok {s : State} {r : Word × State} {c pa ea : Nat} (h : s.ldSpecial c pa ea = .ok r) :
    ∃ p, r.2 = { s with power := p } ∨ ∃ n b, r.2 = { s with power := p }.modCore n fun k => { k with cfgRefused := b } := by
  simp only [State.ldSpecial] at h
  split at h
  · split at h
    · cases h
    split at h
    · cases h
    · obtain ⟨p, hp⟩ := s.wake_eq (cfgCore pa)
      rw [hp] at h
      simp only [State.cfgRead] at h
      split at h
      · cases h; exact ⟨p, .inr ⟨cfgCore pa, true, rfl⟩⟩
      · cases h
        split
        · exact ⟨p, .inr ⟨cfgCore pa, false, rfl⟩⟩
        · exact ⟨p, .inl rfl⟩
  · split at h
    · cases h
    · cases h; exact ⟨s.power, .inl rfl⟩
  · cases h; exact ⟨s.power, .inl rfl⟩
  · cases h

theorem State.ldSpecial_step {s : State} {r : Word × State} {c pa ea : Nat} (h : s.ldSpecial c pa ea = .ok r) (w : LdW) (d a : GReg)
    (imm : BitVec 13) : DeviceStep (.ld w d a imm) s r.2 := by
  obtain ⟨p, h | ⟨n, b, h⟩⟩ := State.ldSpecial_ok h
  · rw [h]; exact ⟨rfl, fun _ _ => rfl, rfl⟩
  · rw [h]
    have hk : ∀ c, { ({ s with power := p }.modCore n fun k => { k with cfgRefused := b }).core c with cfgRefused := (s.core c).cfgRefused } =
        s.core c := by
      intro c
      rw [State.core_modCore]
      split
      · next e => rw [e]; rfl
      · rfl
    exact ⟨rfl, fun c _ => hk c, hk s.focus⟩

theorem State.ldAt_step {s : State} {x : Word} {n : Nat} {r : Nat × State} (h : s.ldAt x n = .ok r) (w : LdW) (d a : GReg) (imm : BitVec 13) :
    DeviceStep (.ld w d a imm) s r.2 := by
  obtain ⟨pa, -, h⟩ := Res.bind_ok h
  split at h
  · split at h
    · cases h
    · cases h; exact .refl ..
  · obtain ⟨q, hq, h⟩ := Res.bind_ok h
    cases h
    exact State.ldSpecial_step hq w d a imm

theorem ld_form (w : LdW) (d a : GReg) (imm : BitVec 13) (s : State) : DestForm (.ld w d a imm) d s (opLd .s0 w d a imm) :=
  .of_shape rfl ⟨rfl, rfl, rfl, rfl, rfl, .inl rfl⟩
    (fun h => by
      rcases Res.bind_error (Res.map_error h) with h | ⟨r, hr, h⟩
      · exact State.ldAt_wait h
      · cases h)
    (fun r hr => by
      obtain ⟨u, hu, rfl⟩ := Res.map_ok hr
      obtain ⟨q, hq, hu⟩ := Res.bind_ok hu
      cases hu
      exact ⟨rfl, Moved.write (State.ldAt_step hq w d a imm) d _⟩)

theorem State.putBytes_eq (s : State) (a : Nat) (l : List Byte) : ∃ m, s.putBytes a l = { s with mem := m } := by
  induction l generalizing s a with
  | nil => exact ⟨s.mem, rfl⟩
  | cons b l ih =>
    obtain ⟨m, h⟩ := ih (s.setByte a b) (a + 1)
    exact ⟨m, h⟩

theorem State.store_step (s : State) (pa : Nat) (l : List Byte) (op : AmoOp) (wide : Bool) (d a b : GReg) :
    DeviceStep (.amo op wide d a b) s (s.store pa l) := by
  obtain ⟨m, h⟩ := s.putBytes_eq pa l
  rw [State.store, h]
  exact ⟨rfl, fun _ _ => rfl, rfl⟩

/-- A result behind a fault. -/
theorem Res.of_ite_ok {α : Type} {p : Prop} [Decidable p] {t : TrapInfo} {x : Res α} {b : α} (h : (if p then .error (.trap t) else x) = .ok b) :
    x = .ok b := by
  split at h
  · cases h
  · exact h

theorem Res.of_ite_wait {α : Type} {p : Prop} [Decidable p] {t : TrapInfo} {x : Res α} (h : (if p then .error (.trap t) else x) = .error .wait) :
    x = .error .wait := by
  split at h
  · cases h
  · exact h

theorem State.amoAt_step {s : State} {op : AmoOp} {wide : Bool} {sum x c : Word} {r : Word × State} (h : s.amoAt op wide sum x c = .ok r)
    (d a b : GReg) : DeviceStep (.amo op wide d a b) s r.2 := by
  obtain ⟨pa, -, h⟩ := Res.bind_ok h
  cases Res.of_ite_ok h
  simp only
  split
  · exact s.store_step ..
  · exact .refl ..

theorem State.amoAt_ne_wait (s : State) (op : AmoOp) (wide : Bool) (sum x c : Word) : s.amoAt op wide sum x c ≠ .error .wait := by
  intro h
  rcases Res.bind_error h with h | ⟨pa, hpa, h⟩
  · exact absurd h (s.xlat_ne_wait _ _ _ _ _)
  · cases Res.of_ite_wait h

theorem amo_form (op : AmoOp) (wide : Bool) (d a b : GReg) (s : State) : DestForm (.amo op wide d a b) d s (opAmo .s0 op wide d a b) :=
  .of_shape rfl ⟨rfl, rfl, rfl, rfl, rfl, .inl rfl⟩
    (fun h => by
      rcases Res.bind_error (Res.map_error h) with h | ⟨r, hr, h⟩
      · exact absurd h (s.amoAt_ne_wait _ _ _ _ _)
      · cases h)
    (fun r hr => by
      obtain ⟨u, hu, rfl⟩ := Res.map_ok hr
      obtain ⟨q, hq, hu⟩ := Res.bind_ok hu
      cases hu
      exact ⟨rfl, Moved.write (State.amoAt_step hq d a b) d _⟩)

/-! ## The claims -/

/-- Every operation of `otherDest` is such a form. -/
theorem destForm_of_otherDest {i : Instr} {d : GReg} (h : otherDest i = some d) (s : State) : ∃ o, DestForm i d s o := by
  unfold otherDest at h
  split at h
  case h_17 => cases h
  all_goals cases h
  · exact ⟨_, fcvt_form ..⟩
  · exact ⟨_, ld_form ..⟩
  · exact ⟨_, amo_form ..⟩
  · exact ⟨_, sysr_form ..⟩
  · exact ⟨_, coreSatRead_form ..⟩
  · exact ⟨_, cfWaitAny_form ..⟩
  · exact ⟨_, cfWaitAll_form ..⟩
  · exact ⟨_, cfFfr_form ..⟩
  · exact ⟨_, cfStat_form ..⟩
  · exact ⟨_, qpop_form ..⟩
  · exact ⟨_, qpeek_form ..⟩
  · exact ⟨_, qhead_form ..⟩
  · exact ⟨_, qfree_form ..⟩
  · exact ⟨_, qavail_form ..⟩
  · exact ⟨_, qstat_form ..⟩
  · exact ⟨_, epop_form ..⟩

/-- Settles O7: where the operation acts it is the write of its register after a step of its device (`Moved`), and an ordinary place leads to
the next bundle (`goesOn_ordinary`). -/
theorem scalarFrame_of_exec : Obligations.ScalarFrame := by
  intro i s t ho ht
  refine ⟨fun d f h hb => ?_, fun pd f h => ?_, fun d h hb => ?_⟩
  · obtain ⟨sl, v, -, hx⟩ := exec_of_result h
    rw [hx, issue_writeGOp hb] at ht
    cases ht
    exact scalarFrame_setG ho d (v s)
  · obtain ⟨sl, v, hx⟩ := exec_of_predResult h
    rw [hx, issue_writePOp] at ht
    cases ht
    exact scalarFrame_setP ho pd (v s)
  · obtain ⟨o, hform⟩ := destForm_of_otherDest h s
    rcases hform.outcome hb with ⟨hw, hn⟩ | hf | ⟨u, hm, hn⟩
    · rw [hn] at ht
      cases ht
      exact .inl ⟨hw, rfl⟩
    · exact .inr (.inl hf)
    · rw [hn] at ht
      cases ht
      exact .inr (.inr (hm.goesOn ho))

/-- A result's operation has nothing but the fault to do. -/
theorem exec_writeGOp_bankFault {s : State} {sl : Slot} {d : GReg} {v : State → Word} (hs : s.inSplit = true) (h0 : d ≠ 0)
    (h16 : d.toNat < 16) : issue (writeGOp sl d v) s = faults s (illopT 0x0A) sl :=
  issue_faults_illop (o := writeGOp sl d v) (SlotOp.decodeFault_bank (SlotOp.forbidden_both rfl rfl) rfl hs h0 h16)
    (.inr (.inr ⟨(fun h => by cases h), fun t h => by cases h⟩)) rfl

/-- Settles O8, form by form: the fault is one of decoding (R95). -/
theorem splitBankFault : Obligations.SplitBankFault := by
  intro i d h s hs h0 h16
  rcases h with ⟨f, h⟩ | h
  · obtain ⟨sl, v, hsl, hx⟩ := exec_of_result h
    exact .inr ⟨sl, hsl.imp_right .inl, by rw [hx]; exact exec_writeGOp_bankFault hs h0 h16⟩
  · obtain ⟨o, hform⟩ := destForm_of_otherDest h s
    exact hform.bankFault hs h0 h16

end Sys2Proof.Machine
end

section
/-! PROOFS. What every step keeps on every core (R13, R32, R343): the invariant, core by core, and the updates of a core that can touch it. -/

open Sys2Proof Sys2Proof.Machine Sys2Proof.Claims
namespace Sys2Proof.Machine

/-! ## The invariant

`W` and `F` are what the two halves of the claim assume: a state that is `Fine` holds nothing under g0 and p0 and no spent loop level
active, where `W` does, and runs every stage that is FIRING, where `F` does. Each is stated over the fields that it reads, so that an update of
any other field keeps it by the equation of the constructor. -/

def FineBits (W : Prop) (g : Store Word) (p : Store Bool) (loops : Store Loop) : Prop := W → quietZero g p loops
def FineBanks (W : Prop) (split : Option (Store Stream)) : Prop :=
  ∀ i, FineBits W (sget Stream.reset (split.getD []) i).g (sget Stream.reset (split.getD []) i).p (sget Stream.reset (split.getD []) i).loops

def FineCtx (W : Prop) (g : Store Word) (p : Store Bool) (loops : Store Loop) (split : Option (Store Stream)) : Prop :=
  FineBits W g p loops ∧ FineBanks W split

def FineStages (F : Prop) (stages : Store Stage) (firing : Option Nat) : Prop :=
  F → ∀ t, (sget Stage.reset stages t).state = .firing → firing = some t

def Stream.Fine (W : Prop) (x : Stream) : Prop := FineBits W x.g x.p x.loops
def Ctx.Fine (W : Prop) (x : Ctx) : Prop := FineCtx W x.g x.p x.loops x.split
def FineCtxs (W : Prop) (ctxs : Store Ctx) : Prop := ∀ t, (sget Ctx.reset ctxs t).Fine W
def FineCore (W F : Prop) (ctxs : Store Ctx) (stages : Store Stage) (firing : Option Nat) : Prop :=
  FineCtxs W ctxs ∧ FineStages F stages firing

def Core.Fine (W F : Prop) (k : Core) : Prop := FineCore W F k.ctxs k.stages k.firing
def FineCores (W F : Prop) (cores : Store Core) : Prop := ∀ c, (sget Core.reset cores c).Fine W F
def State.Fine (W F : Prop) (s : State) : Prop := FineCores W F s.cores

/-- In the words of the claim. -/
theorem State.fine_iff (W F : Prop) (s : State) : s.Fine W F ↔ (W → Hardwired s) ∧ (F → OneFiring s) := by
  constructor
  · exact fun h => ⟨fun ha c t => ⟨((h c).1 t).1 ha, fun i => ((h c).1 t).2 i ha⟩, fun hb c => (h c).2 hb⟩
  · exact fun h c => ⟨fun t => ⟨fun ha => (h.1 ha c t).1, fun i ha => (h.1 ha c t).2 i⟩, fun hb => h.2 hb c⟩

section
variable {W F : Prop}

@[simp] theorem stream_fine_mk (g p l pc since joined) : Stream.Fine W ⟨g, p, l, pc, since, joined⟩ ↔ FineBits W g p l := Iff.rfl
@[simp] theorem fineBits_fields (x : Stream) : FineBits W x.g x.p x.loops ↔ x.Fine W := Iff.rfl
@[simp] theorem ctx_fine_mk (g p k l rm sat fd fl fc sp) : Ctx.Fine W ⟨g, p, k, l, rm, sat, fd, fl, fc, sp⟩ ↔ FineCtx W g p l sp := Iff.rfl
@[simp] theorem fineCtx_fields (x : Ctx) : FineCtx W x.g x.p x.loops x.split ↔ x.Fine W := Iff.rfl
@[simp] theorem core_fine_mk (c st f pc v m acc ar po ba ab arr iq oq sp cf rq eng ni seg co cw tc tp is sh lg ha so hq cr fa re hu) :
    Core.Fine W F ⟨c, st, f, pc, v, m, acc, ar, po, ba, ab, arr, iq, oq, sp, cf, rq, eng, ni, seg, co, cw, tc, tp, is, sh, lg, ha, so, hq, cr, fa,
      re, hu⟩ ↔ FineCore W F c st f := Iff.rfl

@[simp] theorem fineCore_fields (k : Core) : FineCore W F k.ctxs k.stages k.firing ↔ k.Fine W F := Iff.rfl
@[simp] theorem state_fine_mk (c m eb es cy cc ch pn ls no wi ci li ki tk cw mr mc po bo nt fo st ag ti) :
    State.Fine W F ⟨c, m, eb, es, cy, cc, ch, pn, ls, no, wi, ci, li, ki, tk, cw, mr, mc, po, bo, nt, fo, st, ag, ti⟩ ↔ FineCores W F c := Iff.rfl

@[simp] theorem fineCores_fields (s : State) : FineCores W F s.cores ↔ s.Fine W F := Iff.rfl

/-! ## Reset -/

theorem quietZero_reset : quietZero [] [] [] := ⟨rfl, rfl, fun _ _ => rfl⟩
@[simp] theorem fineBits_reset : FineBits W [] [] [] := fun _ => quietZero_reset
@[simp] theorem stream_fine_reset : Stream.reset.Fine W := fun _ => quietZero_reset
@[simp] theorem fineBanks_none : FineBanks W none := fun _ _ => quietZero_reset
@[simp] theorem ctx_fine_reset : Ctx.reset.Fine W := ⟨fun _ => quietZero_reset, fineBanks_none⟩
@[simp] theorem fineCtxs_reset : FineCtxs W [] := fun _ => ctx_fine_reset
@[simp] theorem fineStages_reset (f : Option Nat) : FineStages F [] f := fun _ _ h => by cases h
@[simp] theorem core_fine_reset : Core.reset.Fine W F := ⟨fineCtxs_reset, fineStages_reset _⟩

/-! ## Registers -/

theorem FineBits.setG {g : Store Word} {p : Store Bool} {l : Store Loop} (h : FineBits W g p l) {r : Nat} (hr : r ≠ 0) (v : Word) :
    FineBits W (sset 0 g r v) p l := fun ha => by
  obtain ⟨h1, h2, h3⟩ := h ha
  exact ⟨by rw [sget_sset, if_neg (Ne.symm hr), h1], h2, h3⟩

theorem FineBits.setP {g : Store Word} {p : Store Bool} {l : Store Loop} (h : FineBits W g p l) {r : Nat} (hr : r ≠ 0) (v : Bool) :
    FineBits W g (sset false p r v) l := fun ha => by
  obtain ⟨h1, h2, h3⟩ := h ha
  exact ⟨h1, by rw [sget_sset, if_neg (Ne.symm hr), h2], h3⟩

/-- A loop level without passes left is inactive. -/
def Loop.Quiet (l : Loop) : Prop := l.count = 0 → l.len = 0

theorem FineBits.setLoop {g : Store Word} {p : Store Bool} {l : Store Loop} (h : FineBits W g p l) (j : Nat) {x : Loop} (hx : W → x.Quiet) :
    FineBits W g p (sset Loop.reset l j x) := fun ha => by
  obtain ⟨h1, h2, h3⟩ := h ha
  refine ⟨h1, h2, fun i => ?_⟩
  rw [sget_sset]
  split
  · exact hx ha
  · exact h3 i

theorem Ctx.Fine.bank {x : Ctx} (h : x.Fine W) (i : Nat) : (x.bank i).Fine W := h.2 i

/-- An update of a bank. -/
theorem Ctx.Fine.modBank {x : Ctx} (h : x.Fine W) {f : Stream → Stream} (hf : ∀ s, s.Fine W → (f s).Fine W) (i : Nat) : (x.modBank i f).Fine W := by
  refine ⟨h.1, fun j => ?_⟩
  cases hs : x.split with
  | none =>
    simp only [Ctx.modBank, hs, Option.map_none, Option.getD_none]
    exact fineBits_reset
  | some m =>
    have hm : ∀ j, (sget Stream.reset m j).Fine W := fun j => by simpa [hs, Ctx.bank] using h.bank j
    show Stream.Fine W (sget Stream.reset ((x.modBank i f).split.getD []) j)
    simp only [Ctx.modBank, hs, Option.map_some, Option.getD_some, smod, sget_sset]
    split
    · exact hf _ (hm i)
    · exact hm j

/-! ## Contexts, stages and cores -/

theorem Core.Fine.ctx {k : Core} (h : k.Fine W F) (t : Nat) : (k.ctx t).Fine W := h.1 t

theorem FineCtxs.set {m : Store Ctx} (h : FineCtxs W m) (t : Nat) {x : Ctx} (hx : x.Fine W) : FineCtxs W (sset Ctx.reset m t x) := fun u => by
  rw [sget_sset]
  split
  · exact hx
  · exact h u

@[simp] theorem Core.setCtx_fine {k : Core} (h : k.Fine W F) (t : Nat) {x : Ctx} (hx : x.Fine W) : (k.setCtx t x).Fine W F :=
  ⟨h.1.set t hx, h.2⟩

@[simp] theorem Core.modCtx_fine {k : Core} (h : k.Fine W F) (t : Nat) {f : Ctx → Ctx} (hf : (k.ctx t).Fine W → (f (k.ctx t)).Fine W) :
    (k.modCtx t f).Fine W F := Core.setCtx_fine h t (hf (h.1 t))

/-- An update of a stage that does not start it. -/
@[simp] theorem Core.setStage_fine {k : Core} (h : k.Fine W F) (t : Nat) {x : Stage} (hx : x.state = .firing → (k.stage t).state = .firing) :
    (k.setStage t x).Fine W F := by
  refine ⟨h.1, fun hb u hu => ?_⟩
  change (sget Stage.reset (sset Stage.reset k.stages t x) u).state = .firing at hu
  rw [sget_sset] at hu
  split at hu
  · next e => rw [e]; exact h.2 hb t (hx hu)
  · exact h.2 hb u hu

@[simp] theorem Core.modStage_fine {k : Core} (h : k.Fine W F) (t : Nat) {f : Stage → Stage}
    (hf : (f (k.stage t)).state = .firing → (k.stage t).state = .firing) : (k.modStage t f).Fine W F :=
  Core.setStage_fine h t hf

theorem Core.foldl_fine {α : Type} {k : Core} (h : k.Fine W F) {f : Core → α → Core} (hf : ∀ q x, q.Fine W F → (f q x).Fine W F)
    (l : List α) : (l.foldl f k).Fine W F := by
  induction l generalizing k with
  | nil => exact h
  | cons x l ih => exact ih (hf k x h)

/-- A stage that stops, and that the core then does not run. -/
theorem FineStages.halt {stages : Store Stage} {firing : Option Nat} (h : FineStages F stages firing) (t : Nat) {x : Stage}
    (hx : x.state ≠ .firing) : FineStages F (sset Stage.reset stages t x) (if firing = some t then none else firing) := fun hb u hu => by
  rw [sget_sset] at hu
  split at hu
  · exact absurd hu hx
  · next hne =>
    have hf := h hb u hu
    rw [if_neg (by rw [hf]; simpa using hne), hf]

/-! ## The state -/

@[simp] theorem State.core_fine {s : State} (h : s.Fine W F) (c : Nat) : (s.core c).Fine W F := h c
@[simp] theorem State.me_fine {s : State} (h : s.Fine W F) : s.me.Fine W F := h s.focus
theorem State.ctx_fine {s : State} (h : s.Fine W F) : s.ctx.Fine W := (h s.focus).1 _

@[simp] theorem State.setCore_fine {s : State} (h : s.Fine W F) (c : Nat) {k : Core} (hk : k.Fine W F) : (s.setCore c k).Fine W F := fun d => by
  show ((s.setCore c k).core d).Fine W F
  rw [State.core_setCore]
  split
  · exact hk
  · exact h d

@[simp] theorem State.modCore_fine {s : State} (h : s.Fine W F) (c : Nat) {f : Core → Core} (hf : (f (s.core c)).Fine W F) :
    (s.modCore c f).Fine W F := State.setCore_fine h c hf

@[simp] theorem State.modMe_fine {s : State} (h : s.Fine W F) {f : Core → Core} (hf : (f s.me).Fine W F) : (s.modMe f).Fine W F :=
  State.setCore_fine h _ hf

@[simp] theorem State.modCtx_fine {s : State} (h : s.Fine W F) {f : Ctx → Ctx} (hf : s.ctx.Fine W → (f s.ctx).Fine W) : (s.modCtx f).Fine W F :=
  State.modMe_fine h (Core.modCtx_fine (h _) _ hf)

@[simp] theorem State.modStage_fine {s : State} (h : s.Fine W F) {f : Stage → Stage} (hf : (f s.stage).state = .firing → s.stage.state = .firing) :
    (s.modStage f).Fine W F := State.modMe_fine h (Core.modStage_fine (h _) _ hf)

@[simp] theorem State.setG_fine {s : State} (h : s.Fine W F) (r : GReg) (v : Word) : (s.setG r v).Fine W F := by
  unfold State.setG
  split
  · exact h
  · next hr =>
    have h0 := GReg.toNat_ne_zero hr
    split
    · refine State.modCtx_fine h fun hc => hc.modBank (fun x hx => ?_) _
      exact FineBits.setG hx h0 v
    · exact State.modCtx_fine h fun hc => ⟨hc.1.setG h0 v, hc.2⟩

@[simp] theorem State.setP_fine {s : State} (h : s.Fine W F) (r : PReg) (v : Bool) : (s.setP r v).Fine W F := by
  unfold State.setP
  split
  · exact h
  · next hr =>
    have h0 : r.toNat ≠ 0 := fun e => hr (BitVec.eq_of_toNat_eq e)
    split
    · refine State.modCtx_fine h fun hc => hc.modBank (fun x hx => ?_) _
      exact FineBits.setP hx h0 v
    · exact State.modCtx_fine h fun hc => ⟨hc.1.setP h0 v, hc.2⟩

@[simp] theorem State.setLoop_fine {s : State} (h : s.Fine W F) (j : Nat) {l : Loop} (hl : W → l.Quiet) : (s.setLoop j l).Fine W F := by
  unfold State.setLoop
  split
  · refine State.modCtx_fine h fun hc => hc.modBank (fun x hx => ?_) _
    exact FineBits.setLoop hx j hl
  · exact State.modCtx_fine h fun hc => ⟨hc.1.setLoop j hl, hc.2⟩

@[simp] theorem State.setPc_fine {s : State} (h : s.Fine W F) (x : Addr) : (s.setPc x).Fine W F := by
  unfold State.setPc
  split
  · refine State.modCtx_fine h fun hc => hc.modBank (fun x hx => ?_) _
    exact hx
  · exact State.modMe_fine h (h _)

theorem State.foldl_fine {α : Type} {s : State} (h : s.Fine W F) {f : State → α → State} (hf : ∀ t x, t.Fine W F → (f t x).Fine W F)
    (l : List α) : (l.foldl f s).Fine W F := by
  induction l generalizing s with
  | nil => exact h
  | cons x l ih => exact ih (hf s x h)

theorem sget_map {α : Type} (d : α) (m : Store α) (f : Nat → α → α) (x : Nat) :
    sget d (m.map fun e => (e.1, f e.1 e.2)) x = d ∨ sget d (m.map fun e => (e.1, f e.1 e.2)) x = f x (sget d m x) := by
  induction m with
  | nil => exact .inl rfl
  | cons e m ih =>
    simp only [List.map_cons, sget]
    split
    · next h => subst h; exact .inr rfl
    · exact ih

/-- An update of every core. -/
theorem FineCores.map {m : Store Core} (h : FineCores W F m) {f : Nat → Core → Core} (hf : ∀ c k, k.Fine W F → (f c k).Fine W F) :
    FineCores W F (m.map fun e => (e.1, f e.1 e.2)) := fun c => by
  rcases sget_map Core.reset m f c with e | e
  · rw [e]; exact core_fine_reset
  · rw [e]; exact hf c _ (h c)

/-! ## Results -/

/-- What an operation gives, if it gives something, is so. -/
def Res.Gives {α : Type} (P : α → Prop) (r : Res α) : Prop := ∀ x, r = .ok x → P x
def Option.Gives {α : Type} (P : α → Prop) (r : Option α) : Prop := ∀ x, r = some x → P x

@[simp] theorem Res.gives_ok {α : Type} {P : α → Prop} {x : α} : Res.Gives P (.ok x) ↔ P x :=
  ⟨fun h => h x rfl, fun h _ e => Except.ok.inj e ▸ h⟩

@[simp] theorem Res.gives_error {α : Type} {P : α → Prop} {e : Stop} : Res.Gives P (.error e) := nofun
theorem Res.gives_bind {α β : Type} {P : α → Prop} {Q : β → Prop} {x : Res α} {f : α → Res β} (hx : Res.Gives P x)
    (hf : ∀ y, P y → Res.Gives Q (f y)) : Res.Gives Q (x >>= f) := fun z hz => by
  obtain ⟨y, hy, h⟩ := Res.bind_ok hz
  exact hf y (hx y hy) z h

@[simp] theorem Res.gives_bind_any {α β : Type} {Q : β → Prop} {x : Res α} {f : α → Res β}
    (hf : ∀ y, x = .ok y → Res.Gives Q (f y)) : Res.Gives Q (x >>= f) := fun z hz => by
  obtain ⟨y, hy, h⟩ := Res.bind_ok hz
  exact hf y hy z h

theorem Res.gives_foldlM {α β : Type} {P : α → Prop} {f : α → β → Res α} (hf : ∀ y x, P y → Res.Gives P (f y x)) (l : List β) {y : α} (hy : P y) :
    Res.Gives P (l.foldlM f y) := by
  induction l generalizing y with
  | nil => exact Res.gives_ok.mpr hy
  | cons x l ih =>
    rw [List.foldlM_cons]
    exact Res.gives_bind (hf y x hy) fun z hz => ih hz

theorem Res.gives_map {α β : Type} {P : β → Prop} {x : Res α} {f : α → β} (h : Res.Gives (fun y => P (f y)) x) : Res.Gives P (x.map f) :=
  fun z hz => by
    obtain ⟨y, hy, rfl⟩ := Res.map_ok hz
    exact h y hy

@[simp] theorem Option.gives_some {α : Type} {P : α → Prop} {x : α} : Option.Gives P (some x) ↔ P x :=
  ⟨fun h => h x rfl, fun h _ e => Option.some.inj e ▸ h⟩

/-! Neither arm of a choice does harm. -/

@[simp] theorem Core.ite_fine {c : Prop} [Decidable c] {k k' : Core} (h : k.Fine W F) (h' : k'.Fine W F) : (if c then k else k').Fine W F := by
  split
  · exact h
  · exact h'

@[simp] theorem State.ite_fine {c : Prop} [Decidable c] {s s' : State} (h : s.Fine W F) (h' : s'.Fine W F) : (if c then s else s').Fine W F := by
  split
  · exact h
  · exact h'

@[simp] theorem Option.ite_gives {α : Type} {P : α → Prop} {c : Prop} [Decidable c] {x y : Option α} (h : Option.Gives P x)
    (h' : Option.Gives P y) : Option.Gives P (if c then x else y) := by
  split
  · exact h
  · exact h'

@[simp] theorem Res.ite_gives {α : Type} {P : α → Prop} {c : Prop} [Decidable c] {x y : Res α} (h : Res.Gives P x)
    (h' : Res.Gives P y) : Res.Gives P (if c then x else y) := by
  split
  · exact h
  · exact h'

theorem Option.getD_fine {s : State} (h : s.Fine W F) {x : Option State} (hx : Option.Gives (State.Fine W F) x) : (x.getD s).Fine W F := by
  cases x with
  | none => exact h
  | some t => exact hx t rfl

theorem Option.gives_map {α β : Type} {P : β → Prop} {x : Option α} {f : α → β} (h : ∀ y, x = some y → P (f y)) : Option.Gives P (x.map f) :=
  fun z hz => by
    obtain ⟨y, hy, rfl⟩ := Option.map_eq_some_iff.mp hz
    exact h y hy

@[simp] theorem Option.gives_none {α : Type} {P : α → Prop} : Option.Gives P none := nofun

end

end Sys2Proof.Machine
end

section
/-! PROOFS. Reset, single fields, traps, the loop branch, the end of a split and the barrier keep the invariant. -/

open Sys2Proof Sys2Proof.Machine Sys2Proof.Claims
namespace Sys2Proof.Machine
section
variable {W F : Prop}

@[simp] theorem Core.hubReset_fine : Core.hubReset.Fine W F := by
  refine ⟨fineCtxs_reset, fun _ t h => ?_⟩
  by_cases ht : t = 0
  · subst ht; cases h
  · simp [Core.hubReset, sget, Ne.symm ht, Stage.reset] at h

@[simp] theorem State.reset_fine : State.reset.Fine W F := by
  intro c
  show (State.reset.core c).Fine W F
  by_cases hc : 512 ≤ c ∧ c < 520
  · rw [core_reset_hub hc.1 hc.2]; exact Core.hubReset_fine
  · rw [core_reset_other (by omega)]; exact core_fine_reset

@[simp] theorem State.setSat_fine (s : State) (b : Bool) (h : s.Fine W F) : (State.setSat s b).Fine W F := by simp [State.setSat, h]
@[simp] theorem State.setV_fine (s : State) (c r : Nat) (x : VReg) (h : s.Fine W F) : (State.setV s c r x).Fine W F := by simp [State.setV, h]
@[simp] theorem State.setMask_fine (s : State) (c j : Nat) (x : Mask) (h : s.Fine W F) : (State.setMask s c j x).Fine W F := by
  grind [State.setMask, State.me_fine, core_fine_mk, fineCore_fields, State.modMe_fine]

@[simp] theorem State.setK_fine (s : State) (c j : Nat) (x : BitVec 9) (h : s.Fine W F) : (State.setK s c j x).Fine W F := by simp [State.setK, h]
@[simp] theorem State.setByte_fine (s : State) (a : Nat) (b : Byte) (h : s.Fine W F) : (State.setByte s a b).Fine W F := by simp [State.setByte, h]
@[simp] theorem State.store_fine (s : State) (a : Nat) (bs : List Byte) (h : s.Fine W F) : (s.store a bs).Fine W F := by
  obtain ⟨m, e⟩ := s.putBytes_eq a bs
  rw [State.store, e]
  exact h

@[simp] theorem Core.modFlag_fine (k : Core) (i : Nat) (f : Flag → Flag) (h : k.Fine W F) : (Core.modFlag k i f).Fine W F := by simp [Core.modFlag, h]
@[simp] theorem State.log_fine (s : State) (cause slot stage : Nat) (world : Bool) (owner : BitVec 4) (coreNo : Nat) (charge : BitVec 16) (pc detail addr : Nat) (h : s.Fine W F) :
    (State.log s cause slot stage world owner coreNo charge pc detail addr).Fine W F := by
  simp [State.log, h]
@[simp] theorem State.addFlag_fine (s : State) (c i : Nat) (n : Int) (err : Bool) (stage : Nat) (charge : BitVec 16) (pc : Addr) (h : s.Fine W F) :
    (State.addFlag s c i n err stage charge pc).Fine W F := by
  grind [State.addFlag, State.core_fine, State.modCore_fine, Core.modFlag_fine, State.log_fine]

@[simp] theorem State.notify_fine (s : State) (n : Notice) (h : s.Fine W F) : (State.notify s n).Fine W F := by simp [State.notify, h]
/-- A stage that halts is no longer FIRING, and the core no longer runs it. -/
theorem Core.halt_fine (k : Core) (t stream : Nat) (i : TrapInfo) (slot : Nat) (pc : Addr) (h : k.Fine W F) :
    (k.halt t stream i slot pc).Fine W F := by
  have hs : (k.halt t stream i slot pc).stages = sset Stage.reset k.stages t
      { k.stage t with state := .halted, haltCause := BitVec.ofNat 8 i.cause, haltPc := pc, haltStream := stream, aging := 0 } := rfl
  have hf : (k.halt t stream i slot pc).firing = if k.firing = some t then none else k.firing := rfl
  refine ⟨h.1, ?_⟩
  rw [hs, hf]
  exact FineStages.halt h.2 t (by simp)

@[simp] theorem State.haltStage_fine (s : State) (c t stream : Nat) (i : TrapInfo) (slot : Nat) (pc : Addr) (h : s.Fine W F) :
    (s.haltStage c t stream i slot pc).Fine W F :=
  State.notify_fine _ _ (State.log_fine _ _ _ _ _ _ _ _ _ _ _ (State.setCore_fine h c (Core.halt_fine _ _ _ _ _ _ (h c))))

@[simp] theorem Core.takeTrap_fine (k : Core) (l : Priv) (vector slot detail : Nat) (pc : Addr) (h : k.Fine W F) :
    (Core.takeTrap k l vector slot detail pc).Fine W F := by
  simp [Core.takeTrap, h]
@[simp] theorem State.takeException_fine (s : State) (i : TrapInfo) (slot : Nat) (pc : Addr) (h : s.Fine W F) :
    (State.takeException s i slot pc).Fine W F := by
  grind [State.takeException, State.me_fine, State.modMe_fine, State.haltStage_fine, Core.takeTrap_fine]

@[simp] theorem Core.eret_fine (k : Core) (h : k.Fine W F) : (Core.eret k).Fine W F := by simp [Core.eret, h]
@[simp] theorem State.takeIrq_fine (s : State) (c n : Nat) (h : s.Fine W F) : (State.takeIrq s c n).Fine W F := by
  unfold State.takeIrq
  grind [State.core_fine, core_fine_mk, fineCore_fields, State.modCore_fine, Core.takeTrap_fine]

@[simp] theorem Core.setRq_fine (k : Core) (e : Nat) (l : List REntry) (h : k.Fine W F) : (Core.setRq k e l).Fine W F := by simp [Core.setRq, h]
@[simp] theorem State.reserve_fine (s : State) (e : Nat) (h : s.Fine W F) : (s.reserve e).1.Fine W F := State.modMe_fine h (h _)
@[simp] theorem State.putEntry_fine (s : State) (r : RqRef) (v : Word) (h : s.Fine W F) : (State.putEntry s r v).Fine W F := by
  grind [State.putEntry, State.core_fine, State.modCore_fine, Core.setRq_fine]

@[simp] theorem State.settleHaltq_fine (s : State) (c x0 : Nat) (h : s.Fine W F) : (s.settleHaltq c x0).Fine W F := by
  induction x0 generalizing s c with
  | zero => exact h
  | succ n ih =>
    simp only [State.settleHaltq]
    split
    · exact h
    · refine State.foldl_fine (State.setCore_fine h c ?_) (fun t r ht => ih _ _ (State.putEntry_fine _ _ _ ht)) _
      exact h c

@[simp] theorem State.fill_fine (s : State) (r : RqRef) (v : Word) (h : s.Fine W F) : (s.fill r v).Fine W F :=
  State.settleHaltq_fine _ _ _ (State.putEntry_fine s r v h)

theorem State.loop_quiet {s : State} (h : s.Fine W F) (hw : W) (j : Nat) : (s.loop j).Quiet := by
  unfold State.loop
  split
  · exact (((h s.focus).1 s.stg).2 s.stream hw).2.2 j
  · exact (((h s.focus).1 s.stg).1 hw).2.2 j

@[simp] theorem State.loopBranch_fine (s : State) (pc : Addr) (x0 : Nat) (h : s.Fine W F) : (s.loopBranch pc x0).1.Fine W F := by
  induction x0 generalizing s with
  | zero => exact h
  | succ j ih =>
    simp only [State.loopBranch]
    split
    · split
      · next hn => exact State.setLoop_fine h j fun _ e => absurd e (by simpa using hn)
      · exact ih _ (State.setLoop_fine h j fun _ _ => rfl)
    · exact ih _ h

@[simp] theorem State.afterBundle_fine (s : State) (c : Nat) (h : s.Fine W F) : (State.afterBundle s c).Fine W F := by
  unfold State.afterBundle
  split <;> grind [State.core_fine, core_fine_mk, fineCore_fields, State.modCore_fine, State.fill_fine]

theorem State.fallThrough_fine (s : State) (pc : Addr) (late : State → State) (h : s.Fine W F) (hl : ∀ t, t.Fine W F → (late t).Fine W F) :
    (s.fallThrough pc late).Fine W F := by
  have h1 := hl _ (s.loopBranch_fine pc 4 h)
  unfold State.fallThrough
  simp only
  split
  · exact State.setPc_fine h1 _
  · split
    · exact State.takeException_fine _ _ _ _ h1
    · exact State.setPc_fine h1 _

theorem Ctx.unsplit_fine {x : Ctx} (h : x.Fine W) : x.unsplit.Fine W := by
  refine ⟨fun hw => ⟨?_, (h.2 0 hw).2.1, (h.2 0 hw).2.2⟩, fineBanks_none⟩
  refine (sget_foldl_sset _ _ _ _ _ _).trans ?_
  rw [if_neg (by omega)]
  exact (h.1 hw).1

@[simp] theorem State.endSplit_fine (s : State) (h : s.Fine W F) : s.endSplit.Fine W F := by
  have ht : State.Fine W F { (s.modCtx Ctx.unsplit) with stream := 0 } := State.modCtx_fine h Ctx.unsplit_fine
  simp only [State.endSplit]
  split
  · split
    · exact State.takeException_fine _ _ _ _ (State.setPc_fine ht _)
    · exact State.setPc_fine ht _
  · exact h

@[simp] theorem State.retireJoin_fine (s : State) (pc : Addr) (h : s.Fine W F) : (State.retireJoin s pc).Fine W F := by simp [State.retireJoin, h]
@[simp] theorem State.retire_fine (s : State) (pc : Addr) (f : Flow) (h : s.Fine W F) : (s.retire pc f).Fine W F := by
  cases f with
  | seq =>
    unfold State.retire
    exact State.fallThrough_fine _ _ _ h fun _ ht => ht
  | late start j v =>
    unfold State.retire
    refine State.fallThrough_fine _ _ _ h fun t ht => ?_
    refine State.setLoop_fine ht j fun hw => ?_
    cases start
    · intro e
      simp only [Bool.false_eq_true, if_false, Loop.writeCnt] at e ⊢
      rw [if_pos e]
    · exact State.loop_quiet ht hw j
  | jump x =>
    rw [show s.retire pc (.jump x) = s.setPc x from rfl]
    exact State.setPc_fine h _
  | stop =>
    rw [show s.retire pc .stop = s from rfl]
    exact h
  | report cause detail =>
    unfold State.retire
    exact State.takeException_fine _ _ _ _ (State.setPc_fine h _)
  | join =>
    unfold State.retire
    exact State.retireJoin_fine _ _ h
  | arrive =>
    rw [show s.retire pc .arrive = s from rfl]
    exact h

@[simp] theorem State.freeGroup_fine (s : State) (k : Nat) (h : s.Fine W F) : (s.freeGroup k).Fine W F := by
  unfold State.freeGroup
  refine State.foldl_fine h (fun t c ht => State.modCore_fine ht c (Core.modStage_fine (ht c) _ ?_)) _
  exact id

@[simp] theorem State.arriveGroup_fine (s : State) (h : s.Fine W F) : (State.arriveGroup s).Fine W F := by
  grind [State.arriveGroup, State.modStage_fine, State.freeGroup_fine]

@[simp] theorem State.reachBarrier_fine (s : State) (ops : List SlotOp) (h : s.Fine W F) : (State.reachBarrier s ops).Fine W F := by
  simp [State.reachBarrier, h]
end
end Sys2Proof.Machine
end

section
/-! PROOFS. sysw, configuration space, ports and the close of a firing keep the invariant. -/

open Sys2Proof Sys2Proof.Machine Sys2Proof.Claims
namespace Sys2Proof.Machine
section
variable {W F : Prop}

@[simp] theorem State.setWide_fine (s : State) (n : Nat) (f : Nat → BitVec 1024) (h : s.Fine W F) : (State.setWide s n f).Fine W F := by
  grind [State.setWide, State.foldl_fine, State.setV_fine]

@[simp] theorem State.notReady_fine (s : State) (b : Bool) (h : s.Fine W F) : (State.notReady s b).Fine W F := by simp [State.notReady, h]
@[simp] theorem Core.clearErr_fine (k : Core) (v : Word) (h : k.Fine W F) : (k.clearErr v).Fine W F := by
  obtain ⟨cf, e⟩ := k.clearErr_eq v
  rw [e]
  exact h

@[simp] theorem State.sysWrite_fine (s : State) (n : Nat) (v : Word) (h : s.Fine W F) : Res.Gives (State.Fine W F) (s.sysWrite n v) := by
  have hme (f : Core → Core) (hf : (f s.me).Fine W F) : (s.modMe f).Fine W F := State.modMe_fine h hf
  have hc := h s.focus
  unfold State.sysWrite
  split
  · simp [h]
  split
  · simp [h]
  split
  · split <;> simp [illop, h]
  split
  · split <;> simp [illop, h]
  split <;> simp [h]

@[simp] theorem State.setWin_fine (s : State) (w : Nat) (x : Window) (h : s.Fine W F) : (State.setWin s w x).Fine W F := by simp [State.setWin, h]
theorem Loop.writeCnt_quiet (l : Loop) (v : Word) : (l.writeCnt v).Quiet := fun e => by
  simp only [Loop.writeCnt] at e ⊢
  rw [if_pos e]

/-- The bits of p1 to p7 leave p0. -/
theorem sget_putBits (l : List Nat) (p : Store Bool) (f : Nat → Bool) :
    sget false (l.foldl (fun m i => if i = 0 then m else sset false m i (f i)) p) 0 = sget false p 0 := by
  induction l generalizing p with
  | nil => rfl
  | cons i l ih =>
    rw [List.foldl_cons, ih]
    split
    · rfl
    · next hi => rw [sget_sset, if_neg (Ne.symm hi)]

theorem FineBits.putBits {g : Store Word} {p : Store Bool} {l : Store Loop} (h : FineBits W g p l) (f : Nat → Bool) (n : List Nat) :
    FineBits W g (n.foldl (fun m i => if i = 0 then m else sset false m i (f i)) p) l :=
  fun hw => ⟨(h hw).1, (sget_putBits n p f).trans (h hw).2.1, (h hw).2.2⟩

@[simp] theorem Core.cfgWriteCtx_fine (k : Core) (t o : Nat) (v : Word) (h : k.Fine W F) : (k.cfgWriteCtx t o v).Fine W F := by
  unfold Core.cfgWriteCtx
  simp only
  split
  · split
    · exact h
    · next ho => exact Core.modCtx_fine h t fun hx => ⟨hx.1.setG (by omega) v, hx.2⟩
  split
  · exact Core.modCtx_fine h t fun hx => ⟨hx.1.putBits _ _, hx.2⟩
  split
  · exact Core.modCtx_fine h t fun hx => hx
  split
  · exact Core.modCtx_fine h t fun hx => ⟨hx.1.setLoop _ fun _ => Loop.writeCnt_quiet _ v, hx.2⟩
  split
  · exact Core.modCtx_fine h t fun hx => ⟨hx.1.setLoop _ fun hw => (hx.1 hw).2.2 _, hx.2⟩
  split
  · split
    · exact h
    · exact Core.modCtx_fine h t fun hx => hx
  split
  · exact Core.modCtx_fine h t fun hx => hx
  split
  · exact Core.modCtx_fine h t fun hx => hx
  · exact h

@[simp] theorem Core.storeAcc_fine (k : Core) (i half : Nat) (v : Word) (h : k.Fine W F) : (Core.storeAcc k i half v).Fine W F := by
  simp [Core.storeAcc, h]
@[simp] theorem Core.cfgWriteWord_fine (k : Core) (off : Nat) (v : Word) (h : k.Fine W F) : (k.cfgWriteWord off v).Fine W F := by
  unfold Core.cfgWriteWord
  refine Core.ite_fine (by simp [h]) ?_
  refine Core.ite_fine (by simp [h]) ?_
  refine Core.ite_fine (by simp [h]) ?_
  refine Core.ite_fine (by simp [h]) ?_
  refine Core.ite_fine h ?_
  refine Core.ite_fine (by simp [h]) ?_
  refine Core.ite_fine h ?_
  refine Core.ite_fine (Core.cfgWriteCtx_fine _ _ _ _ h) ?_
  refine Core.ite_fine h ?_
  refine Core.ite_fine (Core.ite_fine h (by simp [h])) ?_
  refine Core.ite_fine (by simp [h]) ?_
  exact Core.ite_fine (Core.clearErr_fine _ _ h) h

@[simp] theorem State.cfgWrite_fine (s : State) (n off : Nat) (v : Word) (h : s.Fine W F) : (s.cfgWrite n off v).Fine W F := by
  unfold State.cfgWrite
  exact State.ite_fine (by simp [h]) (State.setCore_fine h n (Core.cfgWriteWord_fine _ _ _ (h n)))

@[simp] theorem State.wakeAll_fine (s : State) (l : List Nat) (h : s.Fine W F) : (State.wakeAll s l).Fine W F := by simp [State.wakeAll, h]
@[simp] theorem State.wake_fine (s : State) (c : Nat) (h : s.Fine W F) : (State.wake s c).Fine W F := by simp [State.wake, h]
@[simp] theorem State.cfgRead_fine (s : State) (n off : Nat) (h : s.Fine W F) : (s.cfgRead n off).2.Fine W F := by
  unfold State.cfgRead
  simp only
  split
  · exact State.setCore_fine h n (h n)
  · simp only
    split
    · exact State.setCore_fine h n (h n)
    · exact h

@[simp] theorem State.ldSpecial_fine (s : State) (c pa ea : Nat) (h : s.Fine W F) : Res.Gives (fun r => r.2.Fine W F) (s.ldSpecial c pa ea) := by
  unfold State.ldSpecial
  simp only
  split
  · split
    · simp [segv]
    split
    · simp [waiting]
    · simp [h]
  · split <;> simp [segv, h]
  · simp [h]
  · simp [segv]

@[simp] theorem State.stSpecial_fine (s : State) (c pa ea : Nat) (v : Word) (h : s.Fine W F) :
    Res.Gives (State.Fine W F) (s.stSpecial c pa ea v) := by
  unfold State.stSpecial
  split
  · split
    · exact Res.gives_error
    split
    · exact Res.gives_error
    · exact Res.gives_ok.mpr (State.cfgWrite_fine _ _ _ _ (State.wake_fine _ _ h))
  · exact Res.gives_error

@[simp] theorem State.modIq_fine (s : State) (c n : Nat) (f : IqPort → IqPort) (h : s.Fine W F) : (State.modIq s c n f).Fine W F := by
  simp [State.modIq, h]
@[simp] theorem State.modOq_fine (s : State) (c n : Nat) (f : OqPort → OqPort) (h : s.Fine W F) : (State.modOq s c n f).Fine W F := by
  simp [State.modOq, h]
@[simp] theorem State.modCirc_fine (s : State) (id : Nat) (f : Circ → Circ) (h : s.Fine W F) : (State.modCirc s id f).Fine W F := by
  simp [State.modCirc, h]
@[simp] theorem State.modInst_fine (s : State) (i : Nat) (f : Inst → Inst) (h : s.Fine W F) : (State.modInst s i f).Fine W F := by
  simp [State.modInst, h]
@[simp] theorem State.returnCredit_fine (s : State) (c n : Nat) (h : s.Fine W F) : (State.returnCredit s c n).Fine W F := by
  grind [State.returnCredit, State.modIq_fine, State.modOq_fine, State.modCirc_fine, State.modInst_fine]

@[simp] theorem State.removeHead_fine (s : State) (c n : Nat) (h : s.Fine W F) : (State.removeHead s c n).Fine W F := by
  grind [State.removeHead, State.modIq_fine, State.returnCredit_fine]

@[simp] theorem State.countPop_fine (s : State) (c n : Nat) (h : s.Fine W F) : (State.countPop s c n).Fine W F := by simp [State.countPop, h]
@[simp] theorem State.takeCredit_fine (s : State) (c n : Nat) (h : s.Fine W F) : (State.takeCredit s c n).Fine W F := by simp [State.takeCredit, h]
@[simp] theorem State.takeTokenCredit_fine (s : State) (c n : Nat) (h : s.Fine W F) : (State.takeTokenCredit s c n).Fine W F := by
  grind [State.takeTokenCredit, State.modIq_fine, State.modCirc_fine, State.modInst_fine, State.takeCredit_fine]

@[simp] theorem State.putToken_fine (s : State) (c n : Nat) (h : s.Fine W F) : (State.putToken s c n).Fine W F := by
  grind [State.putToken, State.wake_fine, State.modIq_fine, State.modOq_fine]

@[simp] theorem State.placeToken_fine (s : State) (c n : Nat) (h : s.Fine W F) : Option.Gives (State.Fine W F) (State.placeToken s c n) := by
  grind [State.placeToken, Option.gives_some, Option.gives_none, State.takeTokenCredit_fine, State.putToken_fine]

@[simp] theorem State.tryToken_fine (s : State) (c n : Nat) (h : s.Fine W F) : (s.tryToken c n).Fine W F :=
  Option.getD_fine h (State.placeToken_fine s c n h)

@[simp] theorem State.emitEntry_fine (s : State) (c n : Nat) (e : Entry) (h : s.Fine W F) : (State.emitEntry s c n e).Fine W F := by
  grind [State.emitEntry, State.modIq_fine, State.modCirc_fine, State.tryToken_fine]

@[simp] theorem State.tryTokenAt_fine (s : State) (c n : Nat) (h : s.Fine W F) : (State.tryTokenAt s c n).Fine W F := by
  grind [State.tryTokenAt, State.tryToken_fine]

@[simp] theorem State.sendEntry_fine (s : State) (c n : Nat) (e : Entry) (h : s.Fine W F) : (State.sendEntry s c n e).Fine W F := by
  grind [State.sendEntry, State.modOq_fine, State.emitEntry_fine, State.tryTokenAt_fine]

@[simp] theorem State.flushOut_fine (s : State) (c n : Nat) (h : s.Fine W F) : (s.flushOut c n).Fine W F := by
  unfold State.flushOut
  refine State.foldl_fine (by simp [h]) (fun t e ht => ?_) _
  cases e with
  | none => exact ht
  | some x => exact State.emitEntry_fine _ _ _ _ ht

@[simp] theorem State.fillOut_fine (s : State) (c n : Nat) (e : Entry) (h : s.Fine W F) : (State.fillOut s c n e).Fine W F := by
  simp [State.fillOut, h]
@[simp] theorem State.pushEntry_fine (s : State) (c n : Nat) (e : Entry) (h : s.Fine W F) : (State.pushEntry s c n e).Fine W F := by
  simp [State.pushEntry, h]
@[simp] theorem State.beginsPop_fine (n : Nat) (pre cur : State) (h : cur.Fine W F) : (State.beginsPop n pre cur).Fine W F := by
  simp [State.beginsPop, h]
@[simp] theorem State.beginsPush_fine (n : Nat) (pre cur : State) (h : cur.Fine W F) : (State.beginsPush n pre cur).Fine W F := by
  simp [State.beginsPush, h]
@[simp] theorem Core.clearCounts_fine (k : Core) (t : Nat) (h : k.Fine W F) : (Core.clearCounts k t).Fine W F := by simp [Core.clearCounts, h]
@[simp] theorem State.dropMarker_fine (s : State) (c t : Nat) (h : s.Fine W F) : (State.dropMarker s c t).Fine W F := by
  grind [State.dropMarker, State.removeHead_fine]

@[simp] theorem State.endCharges_fine (s : State) (c t : Nat) (h : s.Fine W F) : (s.endCharges c t).Fine W F := by
  unfold State.endCharges
  exact State.foldl_fine h (fun q n hq => State.modIq_fine _ _ _ _ hq) _

/-- A stage stops, and the core no longer runs it. -/
theorem Core.stop_fine {k : Core} (h : k.Fine W F) (t : Nat) (f : Stage → Stage) (hf : (f (k.stage t)).state ≠ .firing) (x : Option Nat)
    (hx : x = k.firing) : Core.Fine W F { k.modStage t f with firing := if x = some t then none else x } := by
  subst hx
  exact ⟨h.1, FineStages.halt h.2 t hf⟩

theorem stopLoops_quiet {g : Store Word} {p : Store Bool} {l : Store Loop} (h : FineBits W g p l) : FineBits W g p (stopLoops l) := by
  unfold stopLoops
  generalize List.range 4 = n
  induction n generalizing l with
  | nil => exact h
  | cons j n ih => exact ih (h.setLoop j fun _ _ => rfl)

theorem Ctx.close_fine {x : Ctx} (h : x.Fine W) (keepLoops : Bool) :
    Ctx.Fine W { x with fireCnt := x.fireCnt + 1, loops := if keepLoops then x.loops else stopLoops x.loops } := by
  rw [ctx_fine_mk]
  split
  · exact h
  · exact ⟨stopLoops_quiet h.1, h.2⟩

theorem Core.close_fine {k : Core} (h : k.Fine W F) (t : Nat) (keepLoops : Bool) : Core.Fine W F
    { (((k.clearCounts t).modCtx t fun x => { x with fireCnt := x.fireCnt + 1, loops := if keepLoops then x.loops else stopLoops x.loops }).modStage t
        fun x => { x with state := .eligible, markerPort := none, watch := 0, aging := 0 }) with
      firing := if k.firing = some t then none else k.firing } :=
  Core.stop_fine (Core.modCtx_fine (Core.clearCounts_fine k t h) t fun hx => Ctx.close_fine hx keepLoops) t _ (by simp) _ rfl

@[simp] theorem State.closeFiring_fine (s : State) (c t : Nat) (keepLoops : Bool) (h : s.Fine W F) :
    (s.closeFiring c t keepLoops).Fine W F := by
  unfold State.closeFiring
  exact State.modCore_fine (State.endCharges_fine _ _ _ (State.dropMarker_fine _ _ _ h)) c
    (Core.close_fine (State.endCharges_fine _ _ _ (State.dropMarker_fine _ _ _ h) c) t keepLoops)

@[simp] theorem Core.lapse_fine (k : Core) (rdy : Nat → Bool) (h : k.Fine W F) : (k.lapse rdy).Fine W F := by
  unfold Core.lapse
  split
  · exact h
  · refine Core.foldl_fine h (fun q t hq => ?_) _
    split
    · exact Core.modStage_fine hq t id
    · exact hq

@[simp] theorem State.ageStages_fine (s : State) (c t : Nat) (h : s.Fine W F) : (s.ageStages c t).Fine W F := by
  unfold State.ageStages
  refine State.modCore_fine h c ?_
  exact Core.foldl_fine (f := fun q x => q.modStage x fun y => { y with aging := if s.ready c x then y.aging + 1 else 0 })
    (Core.modStage_fine (h c) t id) (fun q u hq => Core.modStage_fine hq u id) _

@[simp] theorem Core.clearDecl_fine (k : Core) (t : Stage) (h : k.Fine W F) : (Core.clearDecl k t).Fine W F := by simp [Core.clearDecl, h]
theorem FineBits.sdrop {g : Store Word} {p : Store Bool} {l : Store Loop} (h : FineBits W g p l) (f : Nat → Bool) :
    FineBits W (sdrop f g) [] [] := fun hw => by
  refine ⟨?_, rfl, fun _ _ => rfl⟩
  unfold Machine.sdrop
  rw [sget_filter 0 g (fun r => !f r)]
  split
  · exact (h hw).1
  · rfl

theorem Ctx.boundary_fine {x : Ctx} (h : x.Fine W) (keep : BitVec 8) : (x.boundary keep).Fine W := by
  have hg := h.1.sdrop fun r => !(decide (24 ≤ r) && keep.getLsbD (r - 24))
  exact ⟨hg, fineBanks_none⟩

@[simp] theorem Core.chargeBoundary_fine (k : Core) (t : Nat) (h : k.Fine W F) : (k.chargeBoundary t).Fine W F := by
  unfold Core.chargeBoundary
  exact Core.clearDecl_fine _ _ (Core.modCtx_fine h t fun hx => Ctx.boundary_fine hx _)

/-- Where no stage is FIRING, one may start. -/
theorem FineStages.start {stages : Store Stage} (h : FineStages F stages none) (t : Nat) (x : Stage) :
    FineStages F (sset Stage.reset stages t x) (some t) := fun hb u hu => by
  rw [sget_sset] at hu
  split at hu
  · next e => rw [e]
  · cases h hb u hu

theorem Core.start_fine {k : Core} (h : k.Fine W F) (hn : k.firing = none) (t : Nat) (d : Word) (due : Bool) (f : Stage → Stage) (pc : Addr) :
    Core.Fine W F { (if due then (k.modCtx t fun x => { x with fireDesc := d }).chargeBoundary t
      else k.modCtx t fun x => { x with fireDesc := d }).modStage t f with firing := some t, pc := pc } := by
  have hd : Core.Fine W F (k.modCtx t fun x => { x with fireDesc := d }) := Core.modCtx_fine h t id
  cases due
  · exact ⟨hd.1, FineStages.start (hn ▸ h.2) t _⟩
  · exact ⟨(Core.chargeBoundary_fine _ t hd).1, FineStages.start (hn ▸ h.2) t _⟩

theorem State.startFiring_fine (s : State) (c t : Nat) (h : s.Fine W F) (hn : (s.core c).firing = none) : (s.startFiring c t).Fine W F := by
  unfold State.startFiring
  refine State.modCore_fine h c ?_
  exact Core.start_fine (h c) hn t _ _ _ _

@[simp] theorem State.startHub_fine (s : State) (c : Nat) (h : s.Fine W F) : (State.startHub s c).Fine W F := by
  grind [State.startHub, State.core_fine, ctx_fine_mk, fineCtx_fields, State.modCore_fine, Core.modCtx_fine, Core.modStage_fine]

end
end Sys2Proof.Machine
end

section
/-! PROOFS. Pops, pushes and the matrix engine keep the invariant. -/

open Sys2Proof Sys2Proof.Machine Sys2Proof.Claims
namespace Sys2Proof.Machine
section
variable {W F : Prop}

@[simp] theorem State.armFlag_fine (s : State) (cf : Nat) (t : BitVec 31) (h : s.Fine W F) : (State.armFlag s cf t).Fine W F := by
  grind [State.armFlag, State.me_fine, State.modMe_fine, Core.modFlag_fine]

@[simp] theorem Core.consumeAll_fine (k : Core) (m : Word) (h : k.Fine W F) : (k.consumeAll m).Fine W F := by
  obtain ⟨cf, e⟩ : ∃ cf, k.consumeAll m = { k with cf := cf } := k.foldl_modFlag_eq _ _ _
  rw [e]
  exact h

theorem State.qRun_fine {α : Type} (cur : State) (stall : Bool) (avail : Res α) (act : α → Res State) (h : cur.Fine W F)
    (ha : ∀ x, Res.Gives (State.Fine W F) (act x)) : Res.Gives (fun r => r.1.Fine W F) (cur.qRun stall avail act) := by
  unfold State.qRun
  split
  · refine Res.gives_map fun t ht => ?_
    exact State.ite_fine (ha _ t ht) (State.notReady_fine _ _ (ha _ t ht))
  · split
    · exact Res.gives_ok.mpr (State.notReady_fine _ _ h)
    · exact Res.gives_error

@[simp] theorem State.beginPop_fine (s : State) (n : Nat) (h : s.Fine W F) : Res.Gives (State.Fine W F) (State.beginPop s n) := by
  grind [State.beginPop, Res.gives_ok, Res.gives_bind_any, State.countPop_fine]

@[simp] theorem State.takeHead_fine (s : State) (n : Nat) (h : s.Fine W F) : (State.takeHead s n).Fine W F := by
  grind [State.takeHead, State.modStage_fine, State.removeHead_fine]

@[simp] theorem State.popWord_fine (s : State) (n : Nat) (e : Entry) (t : Bool) (h : s.Fine W F) : (State.popWord s n e t).2.Fine W F := by
  grind [State.popWord, State.modIq_fine, State.takeHead_fine]

@[simp] theorem State.closeTile_fine (s : State) (n : Nat) (h : s.Fine W F) : (State.closeTile s n).Fine W F := by
  grind [State.closeTile, State.modOq_fine, State.sendEntry_fine]

@[simp] theorem State.openTile_fine (s : State) (n : Nat) (byV : Bool) (head : Beat) (h : s.Fine W F) :
    Res.Gives (State.Fine W F) (State.openTile s n byV head) := by
  grind [State.openTile, Res.gives_ok, Res.gives_bind_any, State.modOq_fine, State.takeCredit_fine]

@[simp] theorem State.appendWords_fine (s : State) (n : Nat) (ws : List Word) (h : s.Fine W F) : (State.appendWords s n ws).Fine W F := by
  simp [State.appendWords, h]
@[simp] theorem State.freeResult_fine (s : State) (e id : Nat) (h : s.Fine W F) : (State.freeResult s e id).Fine W F := by
  grind [State.freeResult, State.me_fine, State.modMe_fine, Core.setRq_fine]

@[simp] theorem State.vApply_fine (pre cur : State) (x : VHead) (vd : BitVec 8) (srcs : List VSrc) (f : List Lane → Lane)
    (sat : List Lane → Bool) (h : cur.Fine W F) : Res.Gives (State.Fine W F) (pre.vApply cur x vd srcs f sat) := by
  unfold State.vApply
  refine Res.gives_bind_any fun _ _ => Res.gives_foldlM (fun t c ht => ?_) _ h
  refine Res.gives_bind_any fun d _ => Res.gives_bind_any fun rs _ => Res.gives_ok.mpr ?_
  exact State.setSat_fine _ _ (State.setV_fine _ _ _ _ ht)

@[simp] theorem State.putLanes_fine (pre cur : State) (x : VHead) (vd : BitVec 8) (vals : LaneVals) (h : cur.Fine W F) :
    Res.Gives (State.Fine W F) (pre.putLanes cur x vd vals) := by
  unfold State.putLanes
  refine Res.gives_foldlM (fun t c ht => ?_) _ h
  exact Res.gives_bind_any fun d _ => Res.gives_ok.mpr (State.setV_fine _ _ _ _ ht)

@[simp] theorem State.putAll_fine (pre cur : State) (x : VHead) (vd : BitVec 8) (v : Lane) (h : cur.Fine W F) :
    Res.Gives (State.Fine W F) (pre.putAll cur x vd v) := by
  unfold State.putAll
  refine Res.gives_foldlM (fun t c ht => ?_) _ h
  exact Res.gives_bind_any fun d _ => Res.gives_ok.mpr (State.setV_fine _ _ _ _ ht)

@[simp] theorem State.writeChecked_fine (s : State) (base : Word) (bs : List Byte) (h : s.Fine W F) :
    Res.Gives (State.Fine W F) (State.writeChecked s base bs) := by
  grind [State.writeChecked, Res.gives_ok, Res.gives_bind_any, State.foldl_fine, State.store_fine]

@[simp] theorem Core.enter_fine (k : Core) (o : ArrOp) (h : k.Fine W F) : (Core.enter k o).Fine W F := by simp [Core.enter, h]
@[simp] theorem Core.leave_fine (k : Core) (i : Nat) (h : k.Fine W F) : (Core.leave k i).Fine W F := by simp [Core.leave, h]
@[simp] theorem Core.setBat_fine (k : Core) (b : Nat) (f : Bat → Bat) (h : k.Fine W F) : (Core.setBat k b f).Fine W F := by simp [Core.setBat, h]
@[simp] theorem State.spTake_fine (s : State) (n len : Nat) (h : s.Fine W F) : (s.spTake n len).Fine W F := by
  simp only [State.spTake]
  split
  · refine State.addFlag_fine _ _ _ _ _ _ _ _ (State.modMe_fine h ?_)
    rw [core_fine_mk, fineCore_fields]
    exact Core.ite_fine (Core.modStage_fine (h _) _ id) (h _)
  · exact State.modMe_fine h (h _)

@[simp] theorem State.readSource_fine (pre cur : State) (src : ASel) (len : Nat) (h : cur.Fine W F) :
    Res.Gives (fun x => x.st.Fine W F) (pre.readSource cur src len) := by
  unfold State.readSource
  split
  · exact Res.gives_bind_any fun _ _ => Res.gives_ok.mpr h
  · exact Res.gives_bind_any fun _ _ => Res.gives_ok.mpr (State.spTake_fine _ _ _ h)
  · exact Res.gives_bind_any fun _ _ => Res.gives_bind_any fun _ _ => Res.gives_ok.mpr h
  · exact Res.gives_error

@[simp] theorem State.endFill_fine (s : State) (c i : Nat) (o : ArrOp) (h : s.Fine W F) : (State.endFill s c i o).Fine W F := by
  unfold State.endFill
  split <;> grind [State.core_fine, State.modCore_fine, Core.leave_fine, Core.setBat_fine]

@[simp] theorem batFill_fine (c i : Nat) (s : State) (h : s.Fine W F) : Option.Gives (State.Fine W F) (batFill c i s) := by
  grind [batFill, Option.gives_some, Option.gives_none, State.endFill_fine]

@[simp] theorem Core.clearRows_fine (k : Core) (t : Nat) (mask : BitVec 16) (h : k.Fine W F) : (Core.clearRows k t mask).Fine W F := by
  simp [Core.clearRows, h]
@[simp] theorem Core.passRow_fine (k : Core) (t b : Nat) (ta tb : Ty) (i : Nat) (row : BitVec 1024) (scA : Nat → BitVec 12) (bad : Bool) (h : k.Fine W F) :
    (Core.passRow k t b ta tb i row scA bad).Fine W F := by
  simp [Core.passRow, h]
@[simp] theorem Core.endPass_fine (k : Core) (o : ArrOp) (h : k.Fine W F) : (k.endPass o).Fine W F := by
  unfold Core.endPass
  split
  · exact Core.foldl_fine (Core.ite_fine (Core.clearRows_fine _ _ _ h) h) (fun q i hq => Core.passRow_fine _ _ _ _ _ _ _ _ _ hq) _
  · exact h

@[simp] theorem mmaPass_fine (c i : Nat) (s : State) (h : s.Fine W F) : Option.Gives (State.Fine W F) (mmaPass c i s) := by
  unfold mmaPass
  split
  · split
    · exact Option.gives_some.mpr (State.modCore_fine h c (Core.leave_fine _ _ (Core.endPass_fine _ _ (h c))))
    · exact Option.gives_none
  · exact Option.gives_none

@[simp] theorem ASel.begins_fine (x : ASel) (pre cur : State) (h : cur.Fine W F) : (ASel.begins x pre cur).Fine W F := by
  unfold ASel.begins
  split <;> grind [State.beginsPop_fine]

@[simp] theorem Core.putWide_fine (k : Core) (n : Nat) (bs : List Byte) (h : k.Fine W F) : (k.putWide n bs).Fine W F := by
  unfold Core.putWide
  refine Core.foldl_fine h (fun q i hq => ?_) _
  exact (core_fine_mk ..).mpr hq

@[simp] theorem State.endRead_fine (s : State) (c i : Nat) (o : ArrOp) (h : s.Fine W F) : (s.endRead c i o).Fine W F := by
  unfold State.endRead
  split
  · have h1 (st : Nat) (b : Bool) : (s.modCore c fun k => (if b then k.modCtx st fun x => { x with sat := true } else k).leave i).Fine W F :=
      State.modCore_fine h c (Core.leave_fine _ _ (Core.ite_fine (Core.modCtx_fine (h c) _ id) (h c)))
    simp only
    split
    · exact State.modCore_fine (h1 _ _) c (Core.putWide_fine _ _ _ (h1 _ _ c))
    · exact State.fillOut_fine _ _ _ _ (h1 _ _)
    · exact State.store_fine _ _ _ (h1 _ _)
  · exact h

@[simp] theorem accRead_fine (c i : Nat) (s : State) (h : s.Fine W F) : Option.Gives (State.Fine W F) (accRead c i s) := by
  unfold accRead
  split
  · split
    · exact Option.gives_some.mpr (State.endRead_fine _ _ _ _ h)
    · exact Option.gives_none
  · exact Option.gives_none

@[simp] theorem State.readDst_fine (pre cur : State) (dst : DSel) (m : Nat) (t : Ty) (bad : Bool) (h : cur.Fine W F) :
    Res.Gives (fun r => r.2.Fine W F) (State.readDst pre cur dst m t bad) := by
  unfold State.readDst
  split <;> grind [Res.gives_ok, Res.gives_bind_any, State.modOq_fine, State.takeCredit_fine]

@[simp] theorem DSel.begins_fine (x : DSel) (pre cur : State) (h : cur.Fine W F) : (DSel.begins x pre cur).Fine W F := by
  unfold DSel.begins
  split <;> grind [State.beginsPush_fine]

end
end Sys2Proof.Machine
end

section
/-! PROOFS. The engines and the Kiln keep the invariant. -/

open Sys2Proof Sys2Proof.Machine Sys2Proof.Claims
namespace Sys2Proof.Machine
section
variable {W F : Prop}

@[simp] theorem State.foreignAdd_fine (s : State) (c i : Nat) (n : Int) (h : s.Fine W F) : (State.foreignAdd s c i n).Fine W F := by
  simp [State.foreignAdd, h]
@[simp] theorem State.applyWrite_fine (s : State) (da : Word) (off : Nat) (bs : List Byte) (owner : BitVec 4) (world : Bool) (h : s.Fine W F) :
    (State.applyWrite s da off bs owner world).st.Fine W F := by
  grind [State.applyWrite, State.store_fine]

@[simp] theorem State.applyRead_fine (s : State) (da : Word) (off n : Nat) (owner : BitVec 4) (world : Bool) (h : s.Fine W F) :
    (State.applyRead s da off n owner world).st.Fine W F := by
  grind [State.applyRead]

@[simp] theorem State.applyAtomic_fine (s : State) (da : Word) (op : RamoOp) (wide : Bool) (x c : Word) (owner : BitVec 4) (world : Bool) (h : s.Fine W F) :
    (State.applyAtomic s da op wide x c owner world).st.Fine W F := by
  grind [State.applyAtomic, State.store_fine]

@[simp] theorem State.applyFlag_fine (s : State) (da : Word) (cf : Nat) (addend : BitVec 32) (owner : BitVec 4) (world : Bool) (h : s.Fine W F) :
    (State.applyFlag s da cf addend owner world).st.Fine W F := by
  grind [State.applyFlag, State.foreignAdd_fine]

@[simp] theorem Core.modCmd_fine (k : Core) (id : Nat) (f : EngCmd → EngCmd) (h : k.Fine W F) : (Core.modCmd k id f).Fine W F := by
  simp [Core.modCmd, h]
@[simp] theorem State.answer_fine (s : State) (c id off n : Nat) (code : Byte) (data : List Byte) (h : s.Fine W F) :
    (State.answer s c id off n code data).Fine W F := by
  grind [State.answer, State.core_fine, State.modCore_fine, State.store_fine, Core.modCmd_fine]

@[simp] theorem State.reportRemote_fine (s : State) (c : Nat) (e : EngCmd) (r : Remote) (h : s.Fine W F) : (State.reportRemote s c e r).Fine W F := by
  grind [State.reportRemote, State.log_fine]

@[simp] theorem State.failRemote_fine (s : State) (c : Nat) (pkg : Byte) (h : s.Fine W F) : (State.failRemote s c pkg).Fine W F := by
  simp [State.failRemote, h]
@[simp] theorem State.enter_fine (s pre : State) (eng : Nat) (flag : Option Nat) (op : EngOp) (h : s.Fine W F) :
    (State.enter s pre eng flag op).Fine W F := by
  simp [State.enter, h]
@[simp] theorem State.copyBytes_fine (s : State) (src dst len : Nat) (h : s.Fine W F) : (State.copyBytes s src dst len).1.Fine W F := by
  grind [State.copyBytes, State.foldl_fine, State.store_fine]

@[simp] theorem State.copyAll_fine (s : State) (l : List (Nat × Nat)) (len : Nat) (h : s.Fine W F) : (s.copyAll l len).1.Fine W F := by
  unfold State.copyAll
  generalize false = b
  induction l generalizing s b with
  | nil => exact h
  | cons m l ih => exact ih _ (State.copyBytes_fine _ _ _ _ h) _

@[simp] theorem State.endCmd_fine (s : State) (c : Nat) (e : EngCmd) (n : Int) (err : Bool) (h : s.Fine W F) :
    (State.endCmd s c e n err).Fine W F := by
  unfold State.endCmd
  split <;> grind [State.core_fine, core_fine_mk, fineCore_fields, State.modCore_fine, Core.modStage_fine, State.addFlag_fine, State.settleHaltq_fine]

@[simp] theorem State.applyOwn_fine (s : State) (c : Nat) (r : Remote) (off n : Nat) (h : s.Fine W F) : (State.applyOwn s c r off n).st.Fine W F := by
  grind [State.applyOwn, State.applyWrite_fine, State.applyRead_fine, State.applyAtomic_fine, State.applyFlag_fine]

@[simp] theorem State.markSent_fine (s : State) (c id off : Nat) (err : Bool) (h : s.Fine W F) : (State.markSent s c id off err).Fine W F := by
  grind [State.markSent, State.core_fine, State.modCore_fine, Core.modCmd_fine]

@[simp] theorem State.serveOwn_fine (s : State) (c id : Nat) (r : Remote) (l : List (Nat × Nat)) (h : s.Fine W F) :
    (State.serveOwn s c id r l).Fine W F := by
  grind [State.serveOwn, State.foldl_fine, State.answer_fine, State.applyOwn_fine, State.markSent_fine]

@[simp] theorem State.endRemote_fine (s : State) (c id : Nat) (h : s.Fine W F) : Option.Gives (State.Fine W F) (State.endRemote s c id) := by
  grind [State.endRemote, Option.gives_some, Option.gives_none, State.reportRemote_fine, State.endCmd_fine]

@[simp] theorem engineComplete_fine (c i : Nat) (s : State) (h : s.Fine W F) : Option.Gives (State.Fine W F) (engineComplete c i s) := by
  unfold engineComplete
  split
  · exact Option.gives_none
  · split <;>
      grind [Option.gives_some, Option.gives_none, State.endCmd_fine, State.copyAll_fine, State.copyBytes_fine, State.serveOwn_fine,
        State.endRemote_fine]

@[simp] theorem State.beginStreams_fine (s : State) (c : Nat) (e : EngCmd) (h : s.Fine W F) : (State.beginStreams s c e).Fine W F := by
  simp [State.beginStreams, h]
@[simp] theorem drainSatisfied_fine (c i : Nat) (s : State) (h : s.Fine W F) : Option.Gives (State.Fine W F) (drainSatisfied c i s) := by
  unfold drainSatisfied
  simp only
  split
  · split
    · split
      · exact Option.gives_none
      · refine Option.gives_some.mpr (State.settleHaltq_fine _ _ _ (State.fill_fine _ _ _ (State.beginStreams_fine _ _ _
          (State.modCore_fine h c (Core.modStage_fine ?_ _ ?_)))))
        · exact (core_fine_mk ..).mpr (h c)
        · exact id
    · exact Option.gives_none
  · exact Option.gives_none

@[simp] theorem State.setRec_fine (s : State) (i : Nat) (r : Rec) (h : s.Fine W F) : (State.setRec s i r).Fine W F := by simp [State.setRec, h]
@[simp] theorem State.modRec_fine (s : State) (i : Nat) (f : Rec → Rec) (h : s.Fine W F) : (State.modRec s i f).Fine W F := by simp [State.modRec, h]
@[simp] theorem State.endNotice_fine (s : State) (i : Nat) (kind : Nat) (h : s.Fine W F) : (State.endNotice s i kind).Fine W F := by
  simp [State.endNotice, h]
@[simp] theorem State.endRec_fine (s : State) (i : Nat) (st : RecState) (reason : Nat) (h : s.Fine W F) : (State.endRec s i st reason).Fine W F := by
  simp [State.endRec, h]
@[simp] theorem State.evict_fine (s : State) (i : Nat) (h : s.Fine W F) : (State.evict s i).Fine W F := by
  grind [State.evict, State.setRec_fine, State.endNotice_fine]

@[simp] theorem State.makeRoom_fine (s : State) (inst : Nat) (units : List KUnit) (ev : List Nat) (fuel : Nat) (h : s.Fine W F) :
    (s.makeRoom inst units ev fuel).1.Fine W F := by
  induction fuel generalizing s units ev with
  | zero => exact h
  | succ n ih =>
    unfold State.makeRoom
    split
    · split
      · exact ih _ _ _ (State.evict_fine _ _ h)
      · exact h
    · exact h

@[simp] theorem State.grant_fine (s : State) (u : KUnit) (h : s.Fine W F) : (State.grant s u).1.Fine W F := by
  grind [State.grant, State.foldl_fine, State.store_fine, State.setRec_fine]

@[simp] theorem State.pageMapped_fine (s : State) (i : Nat) (got : List Nat) (h : s.Fine W F) : (State.pageMapped s i got).Fine W F := by
  simp [State.pageMapped, h]
@[simp] theorem State.failLong_fine (s : State) (inst : Nat) (h : s.Fine W F) : (State.failLong s inst).Fine W F := by
  grind [State.failLong, State.foldl_fine, State.modRec_fine, State.endRec_fine]

@[simp] theorem State.admitRows_fine (s : State) (inst rows : Nat) (l : List Nat) (h : s.Fine W F) : (s.admitRows inst rows l).1.Fine W F := by
  induction l generalizing s rows with
  | nil => exact h
  | cons i t ih =>
    simp only [State.admitRows]
    split
    · exact h
    · split
      · exact h
      · exact ih _ _ (State.pageMapped_fine _ _ _ (State.grant_fine _ _ (State.setRec_fine _ _ _ h)))

@[simp] theorem State.emitCharge_fine (s : State) (inst : Nat) (units : List KUnit) (ev : List Nat) (h : s.Fine W F) :
    (State.emitCharge s inst units ev).1.Fine W F := by
  grind [State.emitCharge, State.foldl_fine, State.modInst_fine, State.modRec_fine]

@[simp] theorem State.kilnStep_fine (s : State) (inst : Nat) (h : s.Fine W F) : (s.kilnStep inst).1.Fine W F := by
  simp only [State.kilnStep]
  split
  · exact h
  split
  · exact h
  have hm : (s.makeRoom inst (s.takeRows inst 0 (s.continuing inst)) [] ((s.recsIn inst .active).length + 1)).1.Fine W F :=
    State.makeRoom_fine _ _ _ _ _ h
  generalize s.makeRoom inst (s.takeRows inst 0 (s.continuing inst)) [] ((s.recsIn inst .active).length + 1) = m at hm ⊢
  have h2 : (m.2.1.foldl (fun t u => (t.grant u).1) m.1).Fine W F := State.foldl_fine hm (fun t u ht => State.grant_fine _ _ ht) _
  generalize m.2.1.foldl (fun t u => (t.grant u).1) m.1 = s2 at h2 ⊢
  have ha (n : Nat) (l : List Nat) : ((s2.failLong inst).admitRows inst n l).1.Fine W F :=
    State.admitRows_fine _ _ _ _ (State.failLong_fine _ _ h2)
  split
  · exact ha _ _
  · exact State.emitCharge_fine _ _ _ _ (ha _ _)

@[simp] theorem State.settle_fine (s : State) (i : Nat) (tok : BitVec 32) (h : s.Fine W F) : (State.settle s i tok).Fine W F := by
  grind [State.settle, State.store_fine, State.setRec_fine, State.modRec_fine, State.endRec_fine, State.evict_fine]

@[simp] theorem State.kilnReturn_fine (s : State) (inst : Nat) (e : Word) (h : s.Fine W F) : (State.kilnReturn s inst e).1.Fine W F := by
  grind [State.kilnReturn, State.modInst_fine, State.modRec_fine, State.settle_fine]

@[simp] theorem State.settleCharge_fine (s : State) (inst : Nat) (fail : Bool) (c : Charge) (h : s.Fine W F) :
    (State.settleCharge s inst fail c).Fine W F := by
  grind [State.settleCharge, State.foldl_fine, State.modInst_fine, State.modRec_fine, State.endRec_fine, State.evict_fine]

@[simp] theorem State.admitReq_fine (s : State) (bs : List Byte) (world : Bool) (h : s.Fine W F) : (State.admitReq s bs world).1.Fine W F := by
  unfold State.admitReq
  split <;> grind [State.modInst_fine, State.setRec_fine]

@[simp] theorem State.cancel_fine (s : State) (i : Nat) (world : Bool) (h : s.Fine W F) : (State.cancel s i world).1.Fine W F := by
  grind [State.cancel, State.setRec_fine, State.endRec_fine]

@[simp] theorem State.evictCmd_fine (s : State) (i : Nat) (world : Bool) (h : s.Fine W F) : (State.evictCmd s i world).1.Fine W F := by
  grind [State.evictCmd, State.setRec_fine, State.evict_fine]

@[simp] theorem State.abortCmd_fine (s : State) (inst : Nat) (num : BitVec 16) (fail all world : Bool) (h : s.Fine W F) :
    (State.abortCmd s inst num fail all world).1.Fine W F := by
  grind [State.abortCmd, State.foldl_fine, State.settleCharge_fine]

@[simp] theorem State.popKiln_fine (s : State) (j : Nat) (h : s.Fine W F) : (State.popKiln s j).Fine W F := by simp [State.popKiln, h]
@[simp] theorem kilnForm_fine (s : State) (h : s.Fine W F) : Option.Gives (State.Fine W F) (kilnForm s) := by
  unfold kilnForm
  simp only
  split
  · exact Option.gives_some.mpr (State.fill_fine _ _ _ (State.kilnStep_fine _ _ (State.popKiln_fine _ _ h)))
  · exact Option.gives_none

@[simp] theorem State.respond_fine (s : State) (circ : Nat) (p : Packet) (h : s.Fine W F) : (State.respond s circ p).Fine W F := by
  simp [State.respond, h]
@[simp] theorem kilnRet_fine (s : State) (h : s.Fine W F) : Option.Gives (State.Fine W F) (kilnRet s) := by
  grind [kilnRet, State.core_fine, state_fine_mk, fineCores_fields, Option.gives_some, Option.gives_none, State.modCore_fine, Core.modCmd_fine,
    State.kilnReturn_fine, State.popKiln_fine, State.respond_fine]

@[simp] theorem chargeDeliver_fine (inst : BitVec 3) (s : State) (h : s.Fine W F) : Option.Gives (State.Fine W F) (chargeDeliver inst s) := by
  grind [chargeDeliver, Option.gives_some, Option.gives_none, State.modIq_fine, State.modInst_fine, State.tryToken_fine]

@[simp] theorem abortSettle_fine (s : State) (h : s.Fine W F) : Option.Gives (State.Fine W F) (abortSettle s) := by
  grind [abortSettle, state_fine_mk, fineCores_fields, Option.gives_some, Option.gives_none, State.foldl_fine, State.settleCharge_fine]

@[simp] theorem State.modLink_fine (s : State) (l : Nat) (f : Link → Link) (h : s.Fine W F) : (State.modLink s l f).Fine W F := by
  simp [State.modLink, h]
@[simp] theorem State.sendCtl_fine (s : State) (l : Nat) (kind : Byte) (dst : Byte) (arg : Word) (data : List Byte) (h : s.Fine W F) :
    (State.sendCtl s l kind dst arg data).Fine W F := by
  simp [State.sendCtl, h]
@[simp] theorem State.tellPeer_fine (s : State) (l : Nat) (kind : Byte) (index : Nat) (h : s.Fine W F) :
    (State.tellPeer s l kind index).Fine W F := by
  simp [State.tellPeer, h]
@[simp] theorem State.sendUp_fine (s : State) (kind : Byte) (arg : Word) (h : s.Fine W F) : (State.sendUp s kind arg).Fine W F := by
  grind [State.sendUp, State.sendCtl_fine]

@[simp] theorem State.sendTo_fine (s : State) (kind : Byte) (m : CtlMsg) (h : s.Fine W F) : (State.sendTo s kind m).Fine W F := by
  grind [State.sendTo, State.modLink_fine]

@[simp] theorem State.abortCharge_fine (s : State) (pkg : Byte) (inst : Nat) (charge : Option (BitVec 16)) (fail : Bool) (h : s.Fine W F) :
    (State.abortCharge s pkg inst charge fail).Fine W F := by
  simp [State.abortCharge, h]
@[simp] theorem State.settleHeld_fine (s : State) (c n : Nat) (old : Stage) (h : s.Fine W F) : (State.settleHeld s c n old).Fine W F := by
  grind [State.settleHeld, State.foldl_fine, State.abortCharge_fine]

@[simp] theorem State.bindIq_fine (s : State) (c n : Nat) (b : InBind) (h : s.Fine W F) : (State.bindIq s c n b).Fine W F := by simp [State.bindIq, h]
@[simp] theorem State.installCirc_fine (s : State) (x : Circ) (h : s.Fine W F) : (State.installCirc s x).Fine W F := by
  grind [State.installCirc, state_fine_mk, fineCores_fields, State.foldl_fine, State.modOq_fine, State.modCirc_fine, State.bindIq_fine]

@[simp] theorem State.dropReturns_fine (s : State) (id : Nat) (h : s.Fine W F) : (State.dropReturns s id).Fine W F := by simp [State.dropReturns, h]
@[simp] theorem State.dropProbes_fine (s : State) (ids : List Nat) (h : s.Fine W F) : (State.dropProbes s ids).Fine W F := by
  simp [State.dropProbes, h]
@[simp] theorem State.endFailed_fine (s : State) (x : Circ) (h : s.Fine W F) : (State.endFailed s x).Fine W F := by
  grind [State.endFailed, State.modIq_fine, State.modOq_fine, State.failRemote_fine, State.dropReturns_fine]

@[simp] theorem State.failCirc_fine (s : State) (id reason : Nat) (h : s.Fine W F) : (State.failCirc s id reason).Fine W F := by
  grind [State.failCirc, State.foldl_fine, State.notify_fine, State.modCirc_fine, State.tellPeer_fine, State.dropProbes_fine, State.endFailed_fine]

@[simp] theorem State.unbindPort_fine (s : State) (x : Circ) (h : s.Fine W F) : (State.unbindPort s x).Fine W F := by
  grind [State.unbindPort, State.foldl_fine, State.modIq_fine, State.modOq_fine, State.modCirc_fine, State.failRemote_fine, State.dropReturns_fine]

@[simp] theorem State.releaseCirc_fine (s : State) (id : Nat) (h : s.Fine W F) : (State.releaseCirc s id).Fine W F := by
  grind [State.releaseCirc, state_fine_mk, fineCores_fields, State.foldl_fine, State.tellPeer_fine, State.dropProbes_fine, State.unbindPort_fine]

@[simp] theorem State.releaseEnds_fine (s : State) (cores : List Nat) (h : s.Fine W F) : (State.releaseEnds s cores).Fine W F := by
  grind [State.releaseEnds, State.foldl_fine, State.releaseCirc_fine]

@[simp] theorem Core.cutRoutes_fine (k : Core) (cores : List Nat) (h : k.Fine W F) : (Core.cutRoutes k cores).Fine W F := by simp [Core.cutRoutes, h]
@[simp] theorem State.releaseRoutes_fine (s : State) (cores : List Nat) (h : s.Fine W F) : (s.releaseRoutes cores).Fine W F := by
  unfold State.releaseRoutes
  rw [state_fine_mk]
  exact FineCores.map (f := fun c k => if cores.contains c then k else k.cutRoutes cores) h
    fun c k hk => Core.ite_fine hk (Core.cutRoutes_fine _ _ hk)

@[simp] theorem State.failLink_fine (s : State) (l : Nat) (h : s.Fine W F) : (State.failLink s l).Fine W F := by
  grind [State.failLink, State.foldl_fine, State.failCirc_fine]

end
end Sys2Proof.Machine
end

section
/-! PROOFS. Reconfiguration, the debugger, arrivals, grants and the events of a core keep the invariant. -/

open Sys2Proof Sys2Proof.Machine Sys2Proof.Claims
namespace Sys2Proof.Machine
section
variable {W F : Prop}

@[simp] theorem State.wakeRegion_fine (s : State) (r : Region) (h : s.Fine W F) : (State.wakeRegion s r).Fine W F := by simp [State.wakeRegion, h]
@[simp] theorem State.applyLoad_fine (s : State) (c t : Nat) (bs : List Byte) (world : Bool) (group : Option Region) (h : s.Fine W F) :
    (State.applyLoad s c t bs world group).1.Fine W F := by
  grind [State.applyLoad, State.core_fine, core_fine_mk, fineCore_fields, State.modCore_fine, State.wake_fine]

@[simp] theorem State.zero_fine (s : State) (a n : Nat) (h : s.Fine W F) : (State.zero s a n).Fine W F := by simp [State.zero, h]
@[simp] theorem State.freeSlots_fine (s : State) (b : InBind) (dropped cap : Nat) (h : s.Fine W F) : (State.freeSlots s b dropped cap).Fine W F := by
  unfold State.freeSlots
  split <;> grind [State.modOq_fine, State.modCirc_fine, State.modInst_fine]

@[simp] theorem State.loadIq_fine (s : State) (c : Nat) (owner : Option Nat) (n cap : Nat) (h : s.Fine W F) :
    (State.loadIq s c owner n cap).Fine W F := by
  simp [State.loadIq, h]
@[simp] theorem State.loadOq_fine (s : State) (c : Nat) (owner : Option Nat) (n : Nat) (h : s.Fine W F) : (State.loadOq s c owner n).Fine W F := by
  simp [State.loadOq, h]
theorem Core.loadStage_fine (k : Core) (t : Nat) (x : Shadow) (st : StageState) (group : Region) (own : Nat → Nat) (h : k.Fine W F)
    (hst : st ≠ .firing) : (k.loadStage t x st group own).Fine W F := by
  have h1 : ((k.setCtx t { Ctx.reset with fireLimit := x.limit }).clearDecl x.stage).Fine W F :=
    Core.clearDecl_fine _ _ (Core.setCtx_fine h t ctx_fine_reset)
  unfold Core.loadStage
  simp only
  generalize (k.setCtx t { Ctx.reset with fireLimit := x.limit }).clearDecl x.stage = k1 at h1 ⊢
  exact ⟨h1.1, FineStages.halt h1.2 t hst⟩

theorem State.install_fine (s : State) (c t : Nat) (st : StageState) (h : s.Fine W F) (hst : st ≠ .firing) : (s.install c t st).Fine W F := by
  unfold State.install
  simp only
  refine State.zero_fine _ _ _ (State.store_fine _ _ _ (State.foldl_fine (State.foldl_fine (State.foldl_fine (State.foldl_fine
    (State.modCore_fine (State.foldl_fine h ?_ _) c ?_) ?_ _) ?_ _) ?_ _) ?_ _))
  · exact fun q n hq => State.settleHeld_fine _ _ _ _ hq
  · exact Core.loadStage_fine _ _ _ _ _ _ (State.foldl_fine h (fun q n hq => State.settleHeld_fine _ _ _ _ hq) _ c) hst
  · exact fun q n hq => State.loadIq_fine _ _ _ _ _ hq
  · exact fun q n hq => State.loadIq_fine _ _ _ _ _ hq
  · exact fun q n hq => State.loadOq_fine _ _ _ _ hq
  · exact fun q n hq => State.loadOq_fine _ _ _ _ hq

@[simp] theorem State.disconnect_fine (s : State) (c n d m : Nat) (h : s.Fine W F) : (State.disconnect s c n d m).Fine W F := by
  grind [State.disconnect, State.modIq_fine, State.modOq_fine]

@[simp] theorem State.connect_fine (s : State) (c : Nat) (w : BitVec 32) (h : s.Fine W F) : (State.connect s c w).Fine W F := by
  grind [State.connect, State.modIq_fine, State.modOq_fine, State.settleHeld_fine, State.disconnect_fine]

@[simp] theorem State.setGroups_fine (s : State) (cores : List Nat) (h : s.Fine W F) : (State.setGroups s cores).Fine W F := by
  grind [State.setGroups, State.core_fine, core_fine_mk, fineCore_fields, State.modCore_fine, State.foldl_fine]

theorem State.installCore_fine (s : State) (c : Nat) (st : StageState) (h : s.Fine W F) (hst : st ≠ .firing) : (s.installCore c st).Fine W F := by
  unfold State.installCore
  exact State.foldl_fine h (fun q e hq => State.install_fine _ _ _ _ hq hst) _

/-- RESIDENT stages become ELIGIBLE: no stage starts. -/
theorem Core.mapStages_fine {k : Core} (h : k.Fine W F) {f : Stage → Stage} (hf : ∀ x, (f x).state = .firing → x.state = .firing) :
    Core.Fine W F { k with stages := k.stages.map fun e => (e.1, f e.2) } := by
  refine ⟨h.1, fun hb t ht => ?_⟩
  rcases sget_map Stage.reset k.stages (fun _ x => f x) t with e | e
  · simp only at e ht
    rw [e] at ht
    cases ht
  · simp only at e ht
    rw [e] at ht
    exact h.2 hb t (hf _ ht)

@[simp] theorem State.applyCommit_fine (s : State) (r : Region) (start world : Bool) (h : s.Fine W F) : (s.applyCommit r start world).1.Fine W F := by
  unfold State.applyCommit
  simp only
  split
  · exact h
  split
  · exact h
  have h2 (l : List Nat) (w : List (Nat × BitVec 32)) :
      (w.foldl (fun q x => q.connect x.1 x.2) (l.foldl (fun q c => q.installCore c .resident) ((s.wakeRegion r).setGroups l))).Fine W F :=
    State.foldl_fine (State.foldl_fine (State.setGroups_fine _ _ (State.wakeRegion_fine _ _ h))
      (fun q c hq => State.installCore_fine _ _ _ hq (by simp)) _) (fun q x hq => State.connect_fine _ _ _ hq) _
  refine State.ite_fine (State.foldl_fine (h2 _ _) (fun q c hq => State.modCore_fine hq c ?_) _) (h2 _ _)
  refine Core.mapStages_fine (f := fun x => if x.state = .resident then { x with state := .eligible } else x) (hq c) fun x hx => ?_
  split at hx
  · cases hx
  · exact hx

@[simp] theorem State.applyDrop_fine (s : State) (r : Region) (world : Bool) (h : s.Fine W F) : (State.applyDrop s r world).1.Fine W F := by
  grind [State.applyDrop, State.core_fine, core_fine_mk, fineCore_fields, State.modCore_fine, State.foldl_fine]

@[simp] theorem State.injectToken_fine (s : State) (r : Region) (h : s.Fine W F) : (State.injectToken s r).Fine W F := by
  grind [State.injectToken, State.foldl_fine, State.modIq_fine, State.tryToken_fine]

@[simp] theorem State.applyTok_fine (s : State) (r : Region) (world : Bool) (rq : RqRef) (h : s.Fine W F) :
    (State.applyTok s r world rq).Fine W F := by
  grind [State.applyTok, state_fine_mk, fineCores_fields, State.fill_fine, State.wakeRegion_fine, State.setGroups_fine, State.injectToken_fine]

@[simp] theorem State.applyTake_fine (s : State) (r : Region) (h : s.Fine W F) : (s.applyTake r).Fine W F :=
  State.ite_fine (State.applyTok_fine _ _ _ _ h) (State.applyCommit_fine _ _ _ _ h)

@[simp] theorem State.applyCfg_fine (s : State) (x : CfgCmd) (h : s.Fine W F) : (s.applyCfg x).Fine W F := by
  cases x with
  | load c t bs w group rq => exact State.fill_fine _ _ _ (State.applyLoad_fine _ _ _ _ _ _ h)
  | commit r start w rq => exact State.fill_fine _ _ _ (State.applyCommit_fine _ _ _ _ h)
  | drop r w rq => exact State.fill_fine _ _ _ (State.applyDrop_fine _ _ _ h)
  | tok r w rq => exact State.applyTok_fine _ _ _ _ h
  | take r => exact State.applyTake_fine _ _ h

@[simp] theorem State.drainCfg_fine (s : State) (fuel : Nat) (h : s.Fine W F) : (s.drainCfg fuel).Fine W F := by
  induction fuel generalizing s with
  | zero => exact h
  | succ n ih =>
    unfold State.drainCfg
    split
    · exact h
    · refine State.ite_fine h (ih _ (State.applyCfg_fine _ _ ?_))
      exact h

@[simp] theorem State.submit_fine (s : State) (x : CfgCmd) (h : s.Fine W F) : (s.submit x).Fine W F := by
  unfold State.submit
  refine State.drainCfg_fine _ _ ?_
  exact h

@[simp] theorem tokenPass_fine (c t : Nat) (s : State) (h : s.Fine W F) : Option.Gives (State.Fine W F) (tokenPass c t s) := by
  unfold tokenPass
  simp only
  split
  · exact Option.gives_none
  split
  · exact Option.gives_none
  split
  · next s1 e =>
    obtain ⟨n, -, hn⟩ := List.exists_of_findSome?_eq_some e
    exact Option.gives_some.mpr (State.placeToken_fine s c n h s1 hn)
  split
  · exact Option.gives_none
  · have h1 (l l' : List Nat) : (l'.foldl (fun q n => q.pushEntry c n tokenEntry) (l.foldl (fun q n => q.removeHead c n) s)).Fine W F :=
      State.foldl_fine (State.foldl_fine h (fun q n hq => State.removeHead_fine _ _ _ hq) _)
        (fun q n hq => State.pushEntry_fine _ _ _ _ hq) _
    exact Option.gives_some.mpr (State.modCore_fine (h1 _ _) c (Core.modStage_fine (h1 _ _ c) t id))

@[simp] theorem coreCommit_fine (c : Nat) (s : State) (h : s.Fine W F) : Option.Gives (State.Fine W F) (coreCommit c s) := by
  unfold coreCommit
  simp only
  split
  · exact Option.gives_none
  split
  · exact Option.gives_none
  next tok _ _ =>
  have h1 : (s.installCore c (if tok.started.contains c then .eligible else .resident)).Fine W F :=
    State.installCore_fine _ _ _ h (by split <;> simp)
  split
  · refine Option.gives_some.mpr (State.drainCfg_fine _ _ (State.fill_fine _ _ _ (State.foldl_fine ?_ (fun q w hq => State.connect_fine _ _ _ hq) _)))
    exact h1
  · exact Option.gives_some.mpr ((state_fine_mk ..).mpr h1)

@[simp] theorem State.beginRevoke_fine (s : State) (w : Nat) (rq : RqRef) (h : s.Fine W F) : (State.beginRevoke s w rq).Fine W F := by
  grind [State.beginRevoke, State.foldl_fine, State.setWin_fine, State.respond_fine]

@[simp] theorem windowRevokeComplete_fine (w : Nat) (s : State) (h : s.Fine W F) : Option.Gives (State.Fine W F) (windowRevokeComplete w s) := by
  have h1 : ((s.setWin w Window.reset).notify
      { w0 := noticeW0 0 6 (s.win w).owner (s.win w).world, w1 := BitVec.ofNat 64 w, w2 := 0, w3 := 0 }).Fine W F :=
    State.notify_fine _ _ (State.setWin_fine _ _ _ h)
  unfold windowRevokeComplete
  simp only
  split
  · split
    · exact Option.gives_some.mpr (State.fill_fine _ _ _ h1)
    · exact Option.gives_some.mpr h1
  · exact Option.gives_none

@[simp] theorem State.freeRecord_fine (s : State) (n : Notice) (h : s.Fine W F) : (State.freeRecord s n).Fine W F := by simp [State.freeRecord, h]
@[simp] theorem State.popNotice_fine (s : State) (k : Core) (pa : Nat) (h : s.Fine W F) : (State.popNotice s k pa).1.Fine W F := by
  grind [State.popNotice, state_fine_mk, fineCores_fields, State.store_fine, State.freeRecord_fine]

@[simp] theorem State.dropStep_fine (s : State) (c : Nat) (h : s.Fine W F) : (State.dropStep s c).Fine W F := by
  unfold State.dropStep
  split <;> grind [State.core_fine, core_fine_mk, fineCore_fields, State.modCore_fine, State.fill_fine]

@[simp] theorem dbgHalt_fine (c t : Nat) (rq : RqRef) (s : State) (h : s.Fine W F) : (dbgHalt c t rq s).Fine W F := by
  have h1 := State.wake_fine _ c (State.dropStep_fine _ c h)
  exact State.fill_fine _ _ _ (State.modCore_fine h1 c (h1 c))

@[simp] theorem dbgHaltq_fine (c t : Nat) (rq : RqRef) (s : State) (h : s.Fine W F) : (dbgHaltq c t rq s).Fine W F := by
  have h1 := State.wake_fine _ c (State.dropStep_fine _ c h)
  exact State.settleHaltq_fine _ _ _ (State.modCore_fine h1 c (h1 c))

@[simp] theorem dbgRun_fine (c t : Nat) (rq : RqRef) (s : State) (h : s.Fine W F) : (dbgRun c t rq s).Fine W F := by
  have h1 := State.wake_fine _ c h
  exact State.ite_fine (State.fill_fine _ _ _ (State.modCore_fine h1 c (h1 c))) (State.fill_fine _ _ _ h)

@[simp] theorem dbgStep_fine (c t : Nat) (rq : RqRef) (s : State) (h : s.Fine W F) : (dbgStep c t rq s).Fine W F := by
  have h1 := State.wake_fine _ c h
  exact State.ite_fine (State.modCore_fine h1 c (h1 c)) (State.fill_fine _ _ _ h)

/-- A core whose stages have one that starts, and which it runs. -/
theorem Core.run_fine {k' : Core} {stages : Store Stage} (hc : FineCtxs W k'.ctxs) (hs : FineStages F stages none) (t : Nat) (x : Stage)
    (hst : k'.stages = sset Stage.reset stages t x) (hf : k'.firing = some t) : k'.Fine W F :=
  ⟨hc, by rw [hst, hf]; exact hs.start t x⟩

/-- A halted stage runs again only where no stage of its core is FIRING. -/
theorem Core.resumeStage_fine (k : Core) (t : Nat) (skip : Bool) (now : Nat) (h : k.Fine W F) (hn : k.firing = none) :
    (k.resumeStage t skip now).Fine W F := by
  have hs : FineStages F k.stages none := hn ▸ h.2
  unfold Core.resumeStage
  simp only
  split
  · refine Core.run_fine (FineCtxs.set h.1 t ((h.ctx t).modBank (fun x hb => ?_) _)) hs t
      { k.stage t with state := .firing } rfl rfl
    exact hb
  · exact Core.run_fine h.1 hs t { k.stage t with state := .firing } rfl rfl

@[simp] theorem State.resumeOrWait_fine (s : State) (c t : Nat) (skip : Bool) (rq : RqRef) (h : s.Fine W F) :
    (s.resumeOrWait c t skip rq).Fine W F := by
  have h1 := State.wake_fine _ c h
  unfold State.resumeOrWait
  simp only
  split
  · next hc =>
    have hn : (s.core c).firing = none := Option.isNone_iff_eq_none.mp (Bool.and_eq_true_iff.mp hc).1
    exact State.fill_fine _ _ _ (State.setCore_fine h1 c (Core.resumeStage_fine _ _ _ _ (h c) hn))
  · exact State.setCore_fine h1 c ((core_fine_mk ..).mpr (h c))

@[simp] theorem dbgResume_fine (c t : Nat) (rq : RqRef) (s : State) (h : s.Fine W F) : (dbgResume c t rq s).Fine W F := by
  have h1 := State.wake_fine _ c h
  unfold dbgResume
  exact State.ite_fine (State.fill_fine _ _ _ h) (State.ite_fine
    (State.fill_fine _ _ _ (State.modCore_fine h1 c (Core.modStage_fine (h1 c) t nofun))) (State.resumeOrWait_fine _ _ _ _ _ h))

@[simp] theorem dbgSkip_fine (c t : Nat) (rq : RqRef) (s : State) (h : s.Fine W F) : (dbgSkip c t rq s).Fine W F :=
  State.ite_fine (State.fill_fine _ _ _ h) (State.resumeOrWait_fine _ _ _ _ _ h)

@[simp] theorem State.dropPartial_fine (s : State) (c t : Nat) (h : s.Fine W F) : (State.dropPartial s c t).Fine W F := by
  grind [State.dropPartial, State.foldl_fine, State.modOq_fine, State.removeHead_fine]

@[simp] theorem State.sendAbort_fine (s : State) (st : Stage) (charge : BitVec 16) (h : s.Fine W F) : (State.sendAbort s st charge).Fine W F := by
  grind [State.sendAbort, State.abortCharge_fine]

@[simp] theorem State.abortStage_fine (s : State) (c t : Nat) (h : s.Fine W F) : (s.abortStage c t).Fine W F := by
  have h1 (d : List (BitVec 16) → List (BitVec 16)) : (s.modCore c fun q => q.modStage t fun x => { x with discard := d x.discard }).Fine W F :=
    State.modCore_fine h c (Core.modStage_fine (h c) t id)
  have h2 (d : List (BitVec 16) → List (BitVec 16)) := State.closeFiring_fine _ c t false (State.dropPartial_fine _ c t (h1 d))
  unfold State.abortStage
  simp only
  have h3 := State.sendAbort_fine _ ((s.core c).stage t) ((s.core c).ctx t).charge (State.ite_fine (c := ((s.core c).stage t).haltCause == 0x10)
    (h1 fun l => l.filter (· != ((s.core c).ctx t).charge) ++ [((s.core c).ctx t).charge])
    (h2 fun l => l.filter (· != ((s.core c).ctx t).charge) ++ [((s.core c).ctx t).charge]))
  exact State.modCore_fine h3 c (Core.modStage_fine (Core.modCtx_fine (h3 c) t fun hx => ⟨hx.1, fineBanks_none⟩) t nofun)

@[simp] theorem dbgAbort_fine (c t : Nat) (rq : RqRef) (s : State) (h : s.Fine W F) : (dbgAbort c t rq s).Fine W F :=
  State.ite_fine (State.fill_fine _ _ _ h) (State.fill_fine _ _ _ (State.abortStage_fine _ _ _ (State.wake_fine _ _ h)))

@[simp] theorem dbgAct_fine (x : DbgAct) (c t : Nat) (rq : RqRef) (s : State) (h : s.Fine W F) : (dbgAct x c t rq s).Fine W F := by
  cases x with
  | halt => exact dbgHalt_fine c t rq s h
  | haltq => exact dbgHaltq_fine c t rq s h
  | run => exact dbgRun_fine c t rq s h
  | step => exact dbgStep_fine c t rq s h
  | resume => exact dbgResume_fine c t rq s h
  | skip => exact dbgSkip_fine c t rq s h
  | abort => exact dbgAbort_fine c t rq s h

@[simp] theorem debugCtl_fine (sel : Word) (x : DbgAct) (s : State) (h : s.Fine W F) : Option.Gives (State.Fine W F) (debugCtl sel x s) := by
  unfold debugCtl
  split
  · split
    · exact Option.gives_some.mpr (dbgAct_fine _ _ _ _ _ h)
    · exact Option.gives_none
  · exact Option.gives_none

@[simp] theorem haltedStageResumes_fine (c : Nat) (s : State) (h : s.Fine W F) : Option.Gives (State.Fine W F) (haltedStageResumes c s) := by
  unfold haltedStageResumes
  simp only
  split
  · exact Option.gives_none
  split
  · exact Option.gives_some.mpr (State.fill_fine _ _ _ (State.setCore_fine h c ((core_fine_mk ..).mpr (h c))))
  split
  · exact Option.gives_none
  · next hn =>
    refine Option.gives_some.mpr (State.fill_fine _ _ _ (State.setCore_fine h c (Core.resumeStage_fine _ _ _ _ ((core_fine_mk ..).mpr (h c)) ?_)))
    simpa using hn

@[simp] theorem State.took_fine (s : State) (l n : Nat) (h : s.Fine W F) : (State.took s l n).Fine W F := by
  grind [State.took, State.wakeAll_fine, State.modLink_fine]

@[simp] theorem State.tookOn_fine (s : State) (id n : Nat) (h : s.Fine W F) : (State.tookOn s id n).Fine W F := by
  grind [State.tookOn, State.wakeAll_fine, State.modCirc_fine, State.took_fine]

@[simp] theorem State.accepted_fine (s : State) (id : Nat) (run : List (Nat × Option RelayFlit)) (h : s.Fine W F) :
    (State.accepted s id run).Fine W F := by
  grind [State.accepted, State.foldl_fine, State.modCirc_fine, State.tookOn_fine]

@[simp] theorem State.deliver_fine (s : State) (c n : Nat) (e : Entry) (h : s.Fine W F) : (State.deliver s c n e).Fine W F := by
  grind [State.deliver, State.wakeAll_fine, State.modIq_fine, State.tryToken_fine]

@[simp] theorem State.takeEntry_fine (s : State) (c n : Nat) (e : Entry) (h : s.Fine W F) : (State.takeEntry s c n e).Fine W F := by
  simp [State.takeEntry, h]
theorem State.arrival_fine (s : State) (id ty : Nat) (want : List (Beat × Nat)) (bad : Option Nat) (f : State → Option State) (h : s.Fine W F)
    (hf : ∀ t, t.Fine W F → Option.Gives (State.Fine W F) (f t)) : Option.Gives (State.Fine W F) (s.arrival id ty want bad f) := by
  unfold State.arrival
  exact Option.ite_gives Option.gives_none (Option.ite_gives (Option.ite_gives Option.gives_none
    (Option.gives_some.mpr (State.failCirc_fine _ _ _ (State.accepted_fine _ _ _ h)))) (hf _ (State.accepted_fine _ _ _ h)))

@[simp] theorem entryArrives_fine (c n : Nat) (ext : Option (Entry × Option Nat)) (s : State) (h : s.Fine W F) :
    Option.Gives (State.Fine W F) (entryArrives c n ext s) := by
  unfold entryArrives
  simp only
  split
  · split
    · split
      · exact Option.gives_some.mpr (State.deliver_fine _ _ _ _ (State.modIq_fine _ _ _ _ h))
      · exact Option.gives_none
    · exact Option.gives_none
  · split
    · refine State.arrival_fine _ _ _ _ _ _ h fun t ht => Option.gives_some.mpr ?_
      exact State.ite_fine (State.takeEntry_fine _ _ _ _ (State.tryToken_fine _ _ _ ht)) ht
    · exact Option.gives_none

@[simp] theorem freeSlotNotice_fine (c oq n : Nat) (ext : Option Bool) (s : State) (h : s.Fine W F) :
    Option.Gives (State.Fine W F) (freeSlotNotice c oq n ext s) := by
  unfold freeSlotNotice
  simp only
  split
  · exact Option.gives_none
  split
  · split
    · refine State.arrival_fine _ _ _ _ _ _ h fun t ht => Option.ite_gives (Option.gives_some.mpr ?_) Option.gives_none
      exact State.modOq_fine _ _ _ _ (State.wakeAll_fine _ _ ht)
    · exact Option.gives_none
  · split
    · have h1 (f : OqPort → OqPort) := State.modOq_fine _ c oq f (State.wakeAll_fine s (noticeQuarters (s.oq c oq).bind c) h)
      split
      · exact Option.gives_some.mpr (State.tryToken_fine _ _ _ (h1 _))
      · exact Option.gives_some.mpr (h1 _)
    · exact Option.gives_none

@[simp] theorem replyTile_fine (c i : Nat) (s : State) (h : s.Fine W F) : Option.Gives (State.Fine W F) (replyTile c i s) := by
  unfold replyTile
  split
  · split
    · next e _ _ r _ =>
      have h0 := State.tryToken_fine s r.iqCore r.iqPort h
      have h1 (l : List (Nat × Nat)) : (if r.pkg == s.pkgNo then (s.tryToken r.iqCore r.iqPort).serveOwn c e.id r l
          else s.tryToken r.iqCore r.iqPort).Fine W F := State.ite_fine (State.serveOwn_fine _ _ _ _ _ h0) h0
      simp only
      refine Option.ite_gives (Option.ite_gives Option.gives_none (Option.ite_gives Option.gives_none ?_)) Option.gives_none
      split
      · split
        · exact Option.gives_some.mpr (State.modCore_fine (State.deliver_fine _ _ _ _ (h1 _)) c
            (Core.modCmd_fine _ _ _ (State.deliver_fine _ _ _ _ (h1 _) c)))
        · exact Option.gives_none
      · exact Option.gives_none
    · exact Option.gives_none
  · exact Option.gives_none

@[simp] theorem discardRemoval_fine (c t : Nat) (s : State) (h : s.Fine W F) : Option.Gives (State.Fine W F) (discardRemoval c t s) := by
  unfold discardRemoval
  simp only
  split
  · exact Option.gives_none
  split
  · exact Option.gives_some.mpr (State.modCore_fine h c (Core.modStage_fine (h c) t id))
  · exact Option.gives_map fun n _ => State.endCharges_fine _ _ _ (State.removeHead_fine _ _ _ h)

theorem State.firing_foldl_modIq (s : State) (c d : Nat) (l : List Nat) (f : Nat → IqPort → IqPort) :
    ((l.foldl (fun q n => q.modIq c n (f n)) s).core d).firing = (s.core d).firing := by
  induction l generalizing s with
  | nil => rfl
  | cons n l ih =>
    refine (ih _).trans ?_
    show ((s.modIq c n (f n)).core d).firing = _
    rw [State.modIq, State.core_modCore]
    split
    · next e => rw [e]
    · rfl

theorem State.endCharges_firing (s : State) (c t d : Nat) : ((s.endCharges c t).core d).firing = (s.core d).firing :=
  s.firing_foldl_modIq c d _ fun _ p => { p with ceSeen := p.ceSeen.filter fun d =>
    !(!((s.core c).stage t).discard.contains d && ((s.core c).stage t).ins.all fun n => (s.iq c n).ceSeen.contains d) }

theorem State.ageStages_firing (s : State) (c t : Nat) : ((s.ageStages c t).core c).firing = (s.core c).firing := by
  unfold State.ageStages
  rw [State.core_modCore, if_pos rfl]
  simp only
  generalize (List.range 8).filter (· != t) = l
  suffices h : ∀ q : Core, (l.foldl (fun q x => q.modStage x fun y => { y with aging := if s.ready c x then y.aging + 1 else 0 }) q).firing =
      q.firing from h _
  induction l with
  | nil => exact fun q => rfl
  | cons n l ih => exact fun q => ih _

@[simp] theorem firingGrant_fine (c : Nat) (s : State) (h : s.Fine W F) : Option.Gives (State.Fine W F) (firingGrant c s) := by
  unfold firingGrant
  split
  · exact Option.gives_none
  next hev =>
  have hn : (s.core c).firing = none := by
    simp only [State.evaluates, Bool.or_eq_true, Bool.not_eq_true', not_or, Bool.not_eq_false, Bool.and_eq_true] at hev
    exact Option.isNone_iff_eq_none.mp hev.1.1.2
  split
  · exact Option.gives_none
  split
  · exact Option.gives_none
  · refine Option.gives_some.mpr (State.startFiring_fine _ _ _ (State.endCharges_fine _ _ _ (State.ageStages_fine _ _ _ h)) ?_)
    rw [State.endCharges_firing, State.ageStages_firing, hn]

@[simp] theorem State.passMarkers_fine (s : State) (c t : Nat) (h : s.Fine W F) : (State.passMarkers s c t).Fine W F := by
  grind [State.passMarkers, State.foldl_fine, State.removeHead_fine, State.pushEntry_fine]

@[simp] theorem passThrough_fine (c : Nat) (s : State) (h : s.Fine W F) : Option.Gives (State.Fine W F) (passThrough c s) := by
  unfold passThrough
  split <;> grind [Option.gives_some, Option.gives_none, State.haltStage_fine, State.endCharges_fine, State.ageStages_fine, State.passMarkers_fine]

@[simp] theorem firingWatchdog_fine (c : Nat) (s : State) (h : s.Fine W F) : Option.Gives (State.Fine W F) (firingWatchdog c s) := by
  grind [firingWatchdog, Option.gives_some, Option.gives_none, State.haltStage_fine, State.afterBundle_fine]

@[simp] theorem abortCe_fine (c t : Nat) (s : State) (h : s.Fine W F) : Option.Gives (State.Fine W F) (abortCe c t s) := by
  unfold abortCe
  split <;> grind [State.core_fine, Option.gives_some, Option.gives_none, State.modCore_fine, Core.modStage_fine, State.foldl_fine,
    State.modIq_fine, State.pushEntry_fine]

@[simp] theorem interrupt_fine (x : Nat) (s : State) (h : s.Fine W F) : Option.Gives (State.Fine W F) (interrupt x s) :=
  Option.ite_gives (Option.gives_map fun _ _ => State.takeIrq_fine _ _ _ h) Option.gives_none

@[simp] theorem idleWake_fine (x : Nat) (s : State) (h : s.Fine W F) : Option.Gives (State.Fine W F) (idleWake x s) := by
  unfold idleWake
  simp only
  split
  · split
    · exact Option.gives_some.mpr (State.takeIrq_fine _ _ _ h)
    · exact Option.gives_some.mpr (State.setCore_fine h _ ((core_fine_mk ..).mpr (h _)))
  · exact Option.gives_none

@[simp] theorem cyclesCompare_fine (s : State) (h : s.Fine W F) : Option.Gives (State.Fine W F) (cyclesCompare s) := by simp [cyclesCompare, h]
@[simp] theorem configSpaceWrite_fine (x : Nat) (pa : Addr) (v : Word) (s : State) (h : s.Fine W F) :
    Option.Gives (State.Fine W F) (configSpaceWrite x pa v s) := by
  unfold configSpaceWrite
  split
  · split
    · next t e => exact Option.gives_some.mpr (State.stSpecial_fine s _ _ _ _ h t e)
    · exact Option.gives_none
  · exact Option.gives_none

@[simp] theorem cfgStatusRead_fine (x c : Nat) (d : GReg) (s : State) (h : s.Fine W F) : Option.Gives (State.Fine W F) (cfgStatusRead x c d s) := by
  unfold cfgStatusRead
  split
  · split
    · next v t e =>
      have ht : t.Fine W F := State.ldSpecial_fine s _ _ _ h _ e
      refine Option.gives_some.mpr ?_
      split
      · exact ht
      · next hd =>
        refine State.modCore_fine ht _ (Core.modCtx_fine (ht _) 0 fun hx => ⟨?_, hx.2⟩)
        exact hx.1.setG (GReg.toNat_ne_zero hd) v
    · exact Option.gives_none
  · exact Option.gives_none

@[simp] theorem scrub_fine (w : Nat) (s : State) (h : s.Fine W F) : Option.Gives (State.Fine W F) (scrub w s) := by
  grind [scrub, state_fine_mk, fineCores_fields, Option.gives_some, Option.gives_none, State.log_fine]

end
end Sys2Proof.Machine
end

section
/-! PROOFS. Links, packets, CONTROL messages, resets and power states keep the invariant. -/

open Sys2Proof Sys2Proof.Machine Sys2Proof.Claims
namespace Sys2Proof.Machine
section
variable {W F : Prop}

@[simp] theorem State.sendFlit_fine (s : State) (l circ ty sb : Nat) (payload : Beat) (auth : BitVec 64) (h : s.Fine W F) :
    (State.sendFlit s l circ ty sb payload auth).Fine W F := by
  simp [State.sendFlit, h]
@[simp] theorem State.sendCirc_fine (s : State) (id ty sb : Nat) (payload : Beat) (h : s.Fine W F) :
    (State.sendCirc s id ty sb payload).Fine W F := by
  grind [State.sendCirc, State.wakeAll_fine, State.modCirc_fine, State.sendFlit_fine]

@[simp] theorem State.sendCtlFlit_fine (s : State) (l : Nat) (payload : Beat) (h : s.Fine W F) : (State.sendCtlFlit s l payload).Fine W F := by
  simp [State.sendCtlFlit, h]
@[simp] theorem State.relaySend_fine (s : State) (id ty : Nat) (h : s.Fine W F) : Option.Gives (State.Fine W F) (State.relaySend s id ty) := by
  grind [State.relaySend, Option.gives_some, Option.gives_none, State.modCirc_fine, State.sendFlit_fine]

@[simp] theorem State.dropSent_fine (s : State) (j : Nat) (h : s.Fine W F) : (State.dropSent s j).Fine W F := by simp [State.dropSent, h]
@[simp] theorem State.streamSend_fine (s : State) (id : Nat) (h : s.Fine W F) : Option.Gives (State.Fine W F) (s.streamSend id) := by
  refine Option.ite_gives (State.relaySend_fine _ _ _ h) (Option.ite_gives Option.gives_none ?_)
  exact Option.gives_map fun b _ => State.dropSent_fine _ _ (State.sendCirc_fine _ _ _ _ _ h)

@[simp] theorem State.creditSend_fine (s : State) (id : Nat) (h : s.Fine W F) : Option.Gives (State.Fine W F) (State.creditSend s id) := by
  grind [State.creditSend, Option.gives_some, Option.gives_none, State.modCirc_fine, State.sendCirc_fine, State.relaySend_fine]

@[simp] theorem State.answerSend_fine (s : State) (id ty : Nat) (h : s.Fine W F) : Option.Gives (State.Fine W F) (State.answerSend s id ty) := by
  grind [State.answerSend, Option.gives_some, Option.gives_none, State.modCirc_fine, State.sendCirc_fine]

@[simp] theorem State.sentPacket_fine (s : State) (c id off n : Nat) (h : s.Fine W F) : (State.sentPacket s c id off n).Fine W F := by
  unfold State.sentPacket
  grind [State.core_fine, state_fine_mk, fineCores_fields, State.modCore_fine, Core.modCmd_fine]

@[simp] theorem State.requestSend_fine (s : State) (id : Nat) (h : s.Fine W F) : Option.Gives (State.Fine W F) (State.requestSend s id) := by
  simp only [State.requestSend]
  split <;> grind [Option.gives_some, Option.gives_none, State.modCirc_fine, State.answer_fine, State.markSent_fine, State.sendCirc_fine,
    State.relaySend_fine, State.answerSend_fine, State.sentPacket_fine]

@[simp] theorem State.ctlSend_fine (s : State) (l : Nat) (h : s.Fine W F) : Option.Gives (State.Fine W F) (State.ctlSend s l) := by
  grind [State.ctlSend, Option.gives_some, Option.gives_none, State.modLink_fine, State.sendCtlFlit_fine]

theorem Option.gives_findSome {α β : Type} {P : β → Prop} {f : α → Option β} (hf : ∀ x, Option.Gives P (f x)) (l : List α) :
    Option.Gives P (l.findSome? f) := fun y hy => by
  obtain ⟨x, -, hx⟩ := List.exists_of_findSome?_eq_some hy
  exact hf x y hx

theorem Option.gives_orElse {α : Type} {P : α → Prop} {x : Option α} {f : Unit → Option α} (hx : Option.Gives P x) (hf : Option.Gives P (f ())) :
    Option.Gives P (x.orElse f) := by
  cases x with
  | none => exact hf
  | some y => exact hx

theorem State.firstSend_fine (s : State) (l : List Nat) {f : State → Nat → Option State} (hf : ∀ id, Option.Gives (State.Fine W F) (f s id)) :
    Option.Gives (State.Fine W F) (s.firstSend l f) := Option.gives_findSome hf l

@[simp] theorem State.freeSlotSend_fine (s : State) (l : Nat) (h : s.Fine W F) : (s.freeSlotSend l).Fine W F := by
  have hm : ∀ f, (s.modLink l f).Fine W F := fun f => State.modLink_fine s l f h
  refine State.ite_fine (hm _) (State.ite_fine (hm _) ?_)
  split
  · exact State.ite_fine (hm _) (hm _)
  · refine State.ite_fine (hm _) (Option.getD_fine (hm _) ?_)
    refine Option.gives_orElse (State.ctlSend_fine s l h) ?_
    refine Option.gives_orElse (State.firstSend_fine s _ fun id => State.relaySend_fine s id 4 h) ?_
    refine Option.gives_orElse (State.firstSend_fine s _ fun id => State.creditSend_fine s id h) ?_
    refine Option.gives_orElse (State.firstSend_fine s _ fun id =>
      Option.ite_gives (State.relaySend_fine s id 3 h) (State.answerSend_fine s id 3 h)) ?_
    refine Option.gives_orElse (State.firstSend_fine s _ fun id => State.requestSend_fine s id h) ?_
    exact Option.gives_findSome (fun id => Option.gives_map fun t ht => State.modLink_fine _ _ _ (State.streamSend_fine s id h t ht)) _

theorem Option.gives_bind {α β : Type} {P : β → Prop} {x : Option α} {f : α → Option β} (hf : ∀ y, Option.Gives P (f y)) :
    Option.Gives P (x.bind f) := by
  cases x with
  | none => exact Option.gives_none
  | some y => exact hf y

@[simp] theorem flitSlot_fine (l : Nat) (s : State) (h : s.Fine W F) : Option.Gives (State.Fine W F) (flitSlot l s) := by
  unfold flitSlot
  simp only
  split
  · exact Option.gives_none
  · exact Option.gives_none
  · exact Option.gives_some.mpr (State.modLink_fine _ _ _ h)
  · refine Option.ite_gives Option.gives_none (Option.gives_some.mpr ?_)
    exact Option.getD_fine (State.freeSlotSend_fine _ _ h)
      (Option.ite_gives (Option.gives_bind fun id => State.streamSend_fine _ id h) Option.gives_none)

@[simp] theorem ack_fine (l lseq : Nat) (s : State) (h : s.Fine W F) : Option.Gives (State.Fine W F) (ack l lseq s) := by simp [ack, h]
@[simp] theorem nak_fine (l lseq : Nat) (s : State) (h : s.Fine W F) : Option.Gives (State.Fine W F) (nak l lseq s) := by simp [nak, h]
@[simp] theorem State.declareFailed_fine (s : State) (p : Nat) (h : s.Fine W F) : (State.declareFailed s p).Fine W F := by
  simp [State.declareFailed, h]
@[simp] theorem State.declare_fine (s : State) (p : Nat) (h : s.Fine W F) : (State.declare s p).Fine W F := by simp [State.declare, h]
@[simp] theorem State.declareAll_fine (s : State) (h : s.Fine W F) : (State.declareAll s).Fine W F := by
  grind [State.declareAll, State.foldl_fine, State.declare_fine]

@[simp] theorem State.reportDown_fine (s : State) (p by_ : Nat) (h : s.Fine W F) : (State.reportDown s p by_).Fine W F := by
  simp [State.reportDown, h]
@[simp] theorem State.linkDown_fine (s : State) (l : Nat) (h : s.Fine W F) : (s.linkDown l).Fine W F := by
  have h1 := State.failLink_fine { s with
    links := sset Link.reset s.links l { Link.reset with peer := (s.link' l).peer, peerPkg := (s.link' l).peerPkg } } l ((state_fine_mk ..).mpr h)
  have h2 : ∀ (t : State) (p q : Nat) (x : Word), t.Fine W F → (if t.isRoot = true then t.reportDown p q else t.sendUp 8 x).Fine W F :=
    fun t p q x ht => State.ite_fine (State.reportDown_fine _ _ _ ht) (State.sendUp_fine _ _ _ ht)
  have h3 : ∀ (t : State) (x : Word), t.Fine W F → (if t.isRoot = true then t else t.sendUp 3 x).Fine W F :=
    fun t x ht => State.ite_fine ht (State.sendUp_fine _ _ _ ht)
  unfold State.linkDown
  simp only
  generalize State.failLink _ l = u at h1 ⊢
  split
  · exact h1
  · next q _ =>
    have h4 := h2 u q.toNat u.pkgNo.toNat (BitVec.ofNat 64 q.toNat) h1
    generalize (if u.isRoot = true then u.reportDown q.toNat u.pkgNo.toNat else u.sendUp 8 (BitVec.ofNat 64 q.toNat)) = v at h4 ⊢
    split
    · exact h3 _ _ ((state_fine_mk ..).mpr h4)
    · exact h4

@[simp] theorem State.takeCtlFlit_fine (s : State) (l : Nat) (f : Flit) (h : s.Fine W F) :
    Option.Gives (State.Fine W F) (s.takeCtlFlit l f) := by
  have ht : ∀ g, ((s.took l 1).modLink l g).Fine W F := fun g => State.modLink_fine _ _ _ (State.took_fine s l 1 h)
  refine Option.ite_gives (Option.gives_some.mpr (State.linkDown_fine _ _ h)) (Option.ite_gives (Option.gives_some.mpr (ht _)) ?_)
  exact Option.ite_gives Option.gives_none (Option.gives_some.mpr (State.modLink_fine _ _ _ (ht _)))

@[simp] theorem State.takeFlit_fine (s : State) (l : Nat) (f : Flit) (h : s.Fine W F) : Option.Gives (State.Fine W F) (s.takeFlit l f) := by
  have ht : ∀ id, (s.tookOn id 1).Fine W F := fun id => State.tookOn_fine s id 1 h
  refine Option.ite_gives (State.takeCtlFlit_fine _ _ _ h) ?_
  split
  · exact Option.gives_some.mpr (State.tellPeer_fine _ _ _ _ (State.took_fine s l 1 h))
  · exact Option.gives_some.mpr (ht _)
  · refine Option.ite_gives Option.gives_none (Option.ite_gives (Option.gives_some.mpr (State.failCirc_fine _ _ _ (ht _)))
      (Option.ite_gives (Option.gives_some.mpr (ht _)) ?_))
    have hk := State.modCirc_fine (s.tookOn (circId l (flitCirc f)) 1) (circId l (flitCirc f))
      (fun y => { y with rxBuf := y.rxBuf ++ [((s.circ (circId l (flitCirc f))).recvNo, s.opened (circId l (flitCirc f)) f)] }) (ht _)
    exact Option.ite_gives (Option.gives_some.mpr hk) (Option.ite_gives Option.gives_none (Option.gives_some.mpr (State.accepted_fine _ _ _ hk)))

@[simp] theorem State.wantResend_fine (s : State) (l : Nat) (h : s.Fine W F) : (State.wantResend s l).Fine W F := by simp [State.wantResend, h]
@[simp] theorem crcFailure_fine (x : FlitIn) (s : State) (h : s.Fine W F) : Option.Gives (State.Fine W F) (crcFailure x s) := by
  have hw : Option.Gives (State.Fine W F) (some (s.wantResend x.link)) := Option.gives_some.mpr (State.wantResend_fine _ _ h)
  refine Option.ite_gives Option.gives_none ?_
  split
  · exact hw
  · exact Option.ite_gives hw (Option.ite_gives Option.gives_none (Option.ite_gives hw (State.takeFlit_fine _ _ _ h)))

@[simp] theorem retrain_fine (l : Nat) (s : State) (h : s.Fine W F) : Option.Gives (State.Fine W F) (retrain l s) := by simp [retrain, h]
@[simp] theorem State.retrainNotice_fine (s : State) (l : Nat) (world : Bool) (h : s.Fine W F) : (State.retrainNotice s l world).Fine W F := by
  simp [State.retrainNotice, h]
@[simp] theorem retrainSuccess_fine (l : Nat) (s : State) (h : s.Fine W F) : Option.Gives (State.Fine W F) (retrainSuccess l s) := by
  grind [retrainSuccess, Option.gives_some, Option.gives_none, State.modLink_fine, State.retrainNotice_fine]

@[simp] theorem retrainTimeout_fine (l : Nat) (s : State) (h : s.Fine W F) : Option.Gives (State.Fine W F) (retrainTimeout l s) :=
  Option.ite_gives (Option.gives_some.mpr (State.linkDown_fine _ _ h)) Option.gives_none

@[simp] theorem State.beginTraining_fine (s : State) (l : Nat) (h : s.Fine W F) : (State.beginTraining s l).Fine W F := by
  simp [State.beginTraining, h]
@[simp] theorem State.endTraining_fine (s : State) (l : Nat) (r : IdRecord) (h : s.Fine W F) : (State.endTraining s l r).Fine W F := by
  simp [State.endTraining, h]
@[simp] theorem linkRecord_fine (l : Nat) (r : IdRecord) (s : State) (h : s.Fine W F) : Option.Gives (State.Fine W F) (linkRecord l r s) := by
  grind [linkRecord, Option.gives_some, Option.gives_none, State.modLink_fine, State.beginTraining_fine, State.endTraining_fine]

@[simp] theorem identityRecord_fine (l : Nat) (r : SecInput) (s : State) (h : s.Fine W F) : Option.Gives (State.Fine W F) (identityRecord l r s) := by
  unfold identityRecord
  split <;> grind [state_fine_mk, fineCores_fields, Option.gives_some, Option.gives_none, linkRecord_fine]

@[simp] theorem relayForward_fine (id : Nat) (f : RelayFlit) (s : State) (h : s.Fine W F) : Option.Gives (State.Fine W F) (relayForward id f s) := by
  grind [relayForward, Option.gives_some, Option.gives_none, State.wakeAll_fine, State.modCirc_fine, State.tookOn_fine]

theorem State.arrive_fine (s : State) (id ends ty : Nat) (p : Packet) {f : State → Circ → State} (h : s.Fine W F)
    (hf : ∀ t x, t.Fine W F → (f t x).Fine W F) : Option.Gives (State.Fine W F) (s.arrive id ends ty p f) :=
  Option.ite_gives Option.gives_none (State.arrival_fine _ _ _ _ _ _ h fun t ht => Option.gives_some.mpr (hf t _ ht))

@[simp] theorem State.reply_fine (s : State) (id : Nat) (p : Packet) (code : Byte) (data : List Byte) (h : s.Fine W F) :
    (State.reply s id p code data).Fine W F := by
  simp [State.reply, h]
@[simp] theorem Applied.reply_fine (a : Applied) (id : Nat) (p : Packet) (h : a.st.Fine W F) : (a.reply id p).Fine W F :=
  State.reply_fine _ _ _ _ _ h

@[simp] theorem write_fine (id : Nat) (p : Packet) (s : State) (h : s.Fine W F) : Option.Gives (State.Fine W F) (write id p s) :=
  Option.ite_gives Option.gives_none (State.arrive_fine _ _ _ _ _ h fun t _ ht =>
    State.ite_fine (State.reply_fine _ _ _ _ _ ht) (Applied.reply_fine _ _ _ (State.applyWrite_fine t _ _ _ _ _ ht)))

@[simp] theorem read_fine (id : Nat) (p : Packet) (s : State) (h : s.Fine W F) : Option.Gives (State.Fine W F) (read id p s) :=
  Option.ite_gives Option.gives_none (State.arrive_fine _ _ _ _ _ h fun t _ ht =>
    State.ite_fine (State.reply_fine _ _ _ _ _ ht) (Applied.reply_fine _ _ _ (State.applyRead_fine t _ _ _ _ _ ht)))

@[simp] theorem atomic_fine (id : Nat) (p : Packet) (s : State) (h : s.Fine W F) : Option.Gives (State.Fine W F) (atomic id p s) := by
  refine Option.ite_gives Option.gives_none (State.arrive_fine _ _ _ _ _ h fun t _ ht => ?_)
  split
  · exact State.ite_fine (State.reply_fine _ _ _ _ _ ht) (Applied.reply_fine _ _ _ (State.applyAtomic_fine t _ _ _ _ _ _ _ ht))
  · exact State.reply_fine _ _ _ _ _ ht

@[simp] theorem flagPacket_fine (op : Byte) (id : Nat) (p : Packet) (s : State) (h : s.Fine W F) :
    Option.Gives (State.Fine W F) (flagPacket op id p s) :=
  Option.ite_gives Option.gives_none (State.arrive_fine _ _ _ _ _ h fun t _ ht =>
    State.ite_fine (State.reply_fine _ _ _ _ _ ht) (Applied.reply_fine _ _ _ (State.applyFlag_fine t _ _ _ _ _ ht)))

@[simp] theorem flag_fine (id : Nat) (p : Packet) (s : State) (h : s.Fine W F) : Option.Gives (State.Fine W F) (flag id p s) :=
  flagPacket_fine 4 id p s h

@[simp] theorem fence_fine (id : Nat) (p : Packet) (s : State) (h : s.Fine W F) : Option.Gives (State.Fine W F) (fence id p s) :=
  flagPacket_fine 5 id p s h

@[simp] theorem kret_fine (id : Nat) (p : Packet) (s : State) (h : s.Fine W F) : Option.Gives (State.Fine W F) (kret id p s) :=
  Option.ite_gives Option.gives_none (State.arrive_fine _ _ _ _ _ h fun _ _ ht => State.ite_fine (State.reply_fine _ _ _ _ _ ht) ht)

@[simp] theorem probe_fine (id : Nat) (p : Packet) (s : State) (h : s.Fine W F) : Option.Gives (State.Fine W F) (probe id p s) :=
  State.arrive_fine _ _ _ _ _ h fun _ _ ht => State.ite_fine (State.modCirc_fine _ _ _ ht) (State.failCirc_fine _ _ _ ht)

@[simp] theorem response_fine (id : Nat) (p : Packet) (s : State) (h : s.Fine W F) : Option.Gives (State.Fine W F) (response id p s) := by
  refine State.arrive_fine _ _ _ _ _ h fun t _ ht => ?_
  split
  · exact State.failCirc_fine _ _ _ ht
  · exact State.ite_fine (State.answer_fine _ _ _ _ _ _ _ ht) (State.failCirc_fine _ _ _ ht)

@[simp] theorem resp_fine (id : Nat) (p : Packet) (s : State) (h : s.Fine W F) : Option.Gives (State.Fine W F) (resp id p s) :=
  Option.ite_gives Option.gives_none (response_fine _ _ _ h)

@[simp] theorem data_fine (id : Nat) (p : Packet) (s : State) (h : s.Fine W F) : Option.Gives (State.Fine W F) (data id p s) :=
  Option.ite_gives (response_fine _ _ _ h) Option.gives_none

@[simp] theorem probeAns_fine (id : Nat) (p : Packet) (s : State) (h : s.Fine W F) : Option.Gives (State.Fine W F) (probeAns id p s) :=
  Option.ite_gives Option.gives_none (State.arrive_fine _ _ _ _ _ h fun _ _ ht =>
    State.ite_fine (State.setWin_fine _ _ _ ht) (State.failCirc_fine _ _ _ ht))

theorem State.ctlArrives_fine (s : State) (l : Nat) (kind : Byte) (m : CtlMsg) {f : State → State} (h : s.Fine W F)
    (hf : ∀ t, t.Fine W F → (f t).Fine W F) : Option.Gives (State.Fine W F) (s.ctlArrives l kind m f) := by
  refine Option.ite_gives Option.gives_none (Option.ite_gives (Option.ite_gives Option.gives_none ?_) ?_)
  · exact Option.gives_some.mpr (State.linkDown_fine _ _ h)
  · exact Option.gives_some.mpr (hf _ (State.modLink_fine _ _ _ (State.took_fine s l _ h)))

theorem State.handleOrPass_fine (s : State) (kind : Byte) (m : CtlMsg) {f : State → State} (h : s.Fine W F)
    (hf : ∀ t, t.Fine W F → (f t).Fine W F) : (s.handleOrPass kind m f).Fine W F :=
  State.ite_fine (hf s h) (State.sendTo_fine _ _ _ h)

@[simp] theorem State.writeKeys_fine (s : State) (pkg z : Nat) (h : s.Fine W F) : (State.writeKeys s pkg z).Fine W F := by
  grind [State.writeKeys, state_fine_mk, fineCores_fields, State.foldl_fine]

@[simp] theorem State.startKeys_fine (s : State) (h : s.Fine W F) : (State.startKeys s).Fine W F := by
  grind [State.startKeys, state_fine_mk, fineCores_fields, State.foldl_fine, State.sendTo_fine]

@[simp] theorem State.useKeys_fine (s : State) (h : s.Fine W F) : (State.useKeys s).Fine W F := by
  grind [State.useKeys, state_fine_mk, fineCores_fields, State.foldl_fine, State.writeKeys_fine]

@[simp] theorem State.setInstance_fine (s : State) (b : List Byte) (h : s.Fine W F) : (s.setInstance b).Fine W F := by
  refine State.ite_fine h ?_
  exact (state_fine_mk ..).mpr (State.ite_fine (State.modIq_fine _ _ _ _ h) h)

@[simp] theorem Core.takeHub_fine (k : Core) (p : List Byte) (h : k.Fine W F) : (k.takeHub p).Fine W F := by
  have hm : ∀ (q : Core) (f : Stage → Stage), q.Fine W F → (∀ t, (f t).state = t.state) → (q.modStage 0 f).Fine W F :=
    fun q f hq hf => Core.modStage_fine hq 0 fun e => by rw [hf] at e; exact e
  unfold Core.takeHub
  simp only
  split
  · refine Core.eret_fine _ ((core_fine_mk ..).mpr ((fineCore_fields _).mpr (hm _ _ ?_ fun _ => rfl)))
    exact (core_fine_mk ..).mpr ((fineCore_fields k).mpr h)
  · refine hm _ _ ?_ fun _ => rfl
    exact (core_fine_mk ..).mpr ((fineCore_fields k).mpr h)

@[simp] theorem State.applyHub_fine (s : State) (p : List Byte) (h : s.Fine W F) : (s.applyHub p).Fine W F := by
  refine State.foldl_fine (State.zero_fine _ _ _ (State.store_fine _ _ _ (State.store_fine _ _ _ h))) (fun t x ht => ?_) _
  exact State.ite_fine (State.modCore_fine ht _ (Core.takeHub_fine _ _ (ht _))) ht

@[simp] theorem State.applyFirst_fine (s : State) (l : List ImgSection) (h : s.Fine W F) : (s.applyFirst l).Fine W F := by
  refine State.foldl_fine (State.foldl_fine h (fun t x ht => ?_) _) (fun t x ht => State.applyHub_fine t _ ht) _
  exact State.foldl_fine ht (fun q b hq => State.setInstance_fine q b hq) _

@[simp] theorem State.releaseFailed_fine (s : State) (h : s.Fine W F) : (State.releaseFailed s).Fine W F := by
  grind [State.releaseFailed, State.foldl_fine, State.releaseCirc_fine]

@[simp] theorem State.applyRest_fine (s : State) (l : List ImgSection) (h : s.Fine W F) : (State.applyRest s l).Fine W F := by
  grind [State.applyRest, State.foldl_fine, State.installCirc_fine, State.submit_fine]

@[simp] theorem State.finishApply_fine (s : State) (h : s.Fine W F) : (State.finishApply s).Fine W F := by simp [State.finishApply, h]
@[simp] theorem State.forwardImage_fine (s : State) (img : List Byte) (child : Nat) (h : s.Fine W F) : (State.forwardImage s img child).Fine W F := by
  grind [State.forwardImage, State.foldl_fine, State.modLink_fine]

@[simp] theorem State.acceptImage_fine (s : State) (img : List Byte) (h : s.Fine W F) : (s.acceptImage img).Fine W F := by
  refine State.finishApply_fine _ (State.useKeys_fine _ (State.startKeys_fine _ (State.applyFirst_fine _ _ (State.releaseFailed_fine _ ?_))))
  have h2 : ∀ kids : List Nat, ∀ t : State, t.Fine W F → (kids.foldl (fun t c => t.forwardImage img c) t).Fine W F :=
    fun kids t ht => State.foldl_fine ht (fun q c hq => State.forwardImage_fine q img c hq) kids
  exact State.ite_fine (h2 _ _ h) (State.sendUp_fine _ _ _ (h2 _ _ h))

@[simp] theorem State.refuseImage_fine (s : State) (link : Option Nat) (img : List Byte) (reason : Nat) (h : s.Fine W F) :
    (State.refuseImage s link img reason).Fine W F := by
  unfold State.refuseImage
  split <;> grind [State.sendCtl_fine, State.sendUp_fine]

@[simp] theorem State.decideImage_fine (s : State) (link : Option Nat) (img : List Byte) (h : s.Fine W F) :
    (s.decideImage link img).Fine W F := by
  unfold State.decideImage
  split
  · exact State.acceptImage_fine _ _ h
  · exact State.refuseImage_fine _ _ _ _ h

@[simp] theorem State.setRx_fine (s : State) (link : Option Nat) (rx : List Byte) (h : s.Fine W F) : (State.setRx s link rx).Fine W F := by
  simp [State.setRx, h]
@[simp] theorem State.takeImage_fine (s : State) (link : Option Nat) (m : CtlMsg) (h : s.Fine W F) : (s.takeImage link m).Fine W F :=
  State.ite_fine (State.decideImage_fine _ _ _ (State.setRx_fine _ _ _ h)) (State.setRx_fine _ _ _ h)

@[simp] theorem img_fine (src : ImgSource) (m : CtlMsg) (s : State) (h : s.Fine W F) : Option.Gives (State.Fine W F) (img src m s) := by
  cases src with
  | link l kind =>
    refine Option.ite_gives (State.ctlArrives_fine _ _ _ _ h fun t ht => State.takeImage_fine _ _ _ ht) ?_
    exact Option.ite_gives (State.ctlArrives_fine _ _ _ _ h fun _ ht => ht) Option.gives_none
  | port => exact Option.ite_gives Option.gives_none (Option.gives_some.mpr (State.takeImage_fine _ _ _ h))

@[simp] theorem State.childAcked_fine (s : State) (p : Nat) (epoch : Word) (h : s.Fine W F) : (State.childAcked s p epoch).Fine W F := by
  simp [State.childAcked, h]
@[simp] theorem State.passUp_fine (s : State) (kind : Byte) (m : CtlMsg) (h : s.Fine W F) : (State.passUp s kind m).Fine W F := by
  grind [State.passUp, State.modLink_fine]

@[simp] theorem imgack_fine (l : Nat) (m : CtlMsg) (s : State) (h : s.Fine W F) : Option.Gives (State.Fine W F) (imgack l m s) :=
  State.ctlArrives_fine _ _ _ _ h fun _ ht => State.passUp_fine _ _ _ (State.childAcked_fine _ _ _ ht)

@[simp] theorem imgnak_fine (l : Nat) (m : CtlMsg) (s : State) (h : s.Fine W F) : Option.Gives (State.Fine W F) (imgnak l m s) :=
  State.ctlArrives_fine _ _ _ _ h fun _ ht => State.passUp_fine _ _ _ ht

@[simp] theorem keyx_fine (l : Nat) (m : CtlMsg) (s : State) (h : s.Fine W F) : Option.Gives (State.Fine W F) (keyx l m s) :=
  State.ctlArrives_fine _ _ _ _ h fun _ ht => State.handleOrPass_fine _ _ _ ht fun _ hq =>
    State.finishApply_fine _ (State.useKeys_fine _ hq)

@[simp] theorem State.peerEnds_fine (s : State) (l : Nat) (kind : Byte) (m : CtlMsg) (reason : Nat) (h : s.Fine W F) :
    Option.Gives (State.Fine W F) (s.peerEnds l kind m reason) :=
  State.ctlArrives_fine _ _ _ _ h fun _ ht => State.failCirc_fine _ _ _ ht

@[simp] theorem fail_fine (l : Nat) (m : CtlMsg) (s : State) (h : s.Fine W F) : Option.Gives (State.Fine W F) (fail l m s) :=
  State.peerEnds_fine _ _ _ _ _ h

@[simp] theorem close_fine (l : Nat) (m : CtlMsg) (s : State) (h : s.Fine W F) : Option.Gives (State.Fine W F) (close l m s) :=
  State.peerEnds_fine _ _ _ _ _ h

@[simp] theorem abort_fine (l : Nat) (m : CtlMsg) (s : State) (h : s.Fine W F) : Option.Gives (State.Fine W F) (abort l m s) :=
  State.ctlArrives_fine _ _ _ _ h fun _ ht => State.handleOrPass_fine _ _ _ ht fun _ hq => hq

@[simp] theorem pkgdown_fine (l : Nat) (m : CtlMsg) (s : State) (h : s.Fine W F) : Option.Gives (State.Fine W F) (pkgdown l m s) := by
  refine State.ctlArrives_fine _ _ _ _ h fun t ht => ?_
  refine State.ite_fine (State.reportDown_fine _ _ _ ht) ?_
  split
  · exact State.modLink_fine _ _ _ ht
  · exact ht

@[simp] theorem State.landed_fine (s : State) (ms : List (Nat × Nat × Nat)) (h : s.Fine W F) : (State.landed s ms).Fine W F := by
  grind [State.landed, State.foldl_fine, State.store_fine]

@[simp] theorem Core.forced_fine (k : Core) (ok : Bool) : (Core.forced k ok).Fine W F := by simp [Core.forced]
@[simp] theorem State.endDebug_fine (s : State) (c : Nat) (k : Core) (h : s.Fine W F) : (State.endDebug s c k).Fine W F := by
  grind [State.endDebug, State.foldl_fine, State.settleHaltq_fine, State.fill_fine]

@[simp] theorem State.dropKiln_fine (s : State) (cores : List Nat) (h : s.Fine W F) : (State.dropKiln s cores).Fine W F := by simp [State.dropKiln, h]
@[simp] theorem State.settleAll_fine (s : State) (i : Byte × Nat) (h : s.Fine W F) : (State.settleAll s i).Fine W F := by
  grind [State.settleAll, State.foldl_fine, State.settleCharge_fine, State.abortCharge_fine]

@[simp] theorem State.quarterReset_fine (s : State) (q : BitVec 2) (h : s.Fine W F) : (State.quarterReset s q).Fine W F := by
  simp [State.quarterReset, h]
@[simp] theorem forcedReset_fine (scope : ResetScope) (s : State) (h : s.Fine W F) : Option.Gives (State.Fine W F) (forcedReset scope s) := by
  refine Option.ite_gives Option.gives_none (Option.gives_some.mpr (State.drainCfg_fine _ _ ?_))
  refine State.foldl_fine (State.log_fine _ _ _ _ _ _ _ _ _ _ _ ?_) (fun t o ht => State.notify_fine _ _ ht) _
  refine State.foldl_fine ?_ (fun t k ht => State.fill_fine _ _ _ ht) _
  refine (state_fine_mk ..).mpr (State.foldl_fine ?_ (fun t c ht => State.endDebug_fine _ _ _ ht) _)
  refine State.foldl_fine ?_ (fun t c ht => State.setCore_fine ht _ (Core.forced_fine _ _)) _
  refine State.foldl_fine ?_ (fun t i ht => State.settleAll_fine _ _ ht) _
  have h3 : ∀ cores : List Nat, ((((cores.foldl (fun t c => t.landed ((t.core c).running.flatMap fun e => copyMoves e.op)) s).releaseEnds
      cores).releaseRoutes cores).dropKiln cores).Fine W F := fun cores =>
    State.dropKiln_fine _ _ (State.releaseRoutes_fine _ _ (State.releaseEnds_fine _ _ (State.foldl_fine h (fun t c ht =>
      State.landed_fine _ _ ht) _)))
  cases scope with
  | quarter q =>
    refine State.foldl_fine (State.quarterReset_fine _ _ (h3 _)) (fun t l ht => ?_) _
    exact State.ite_fine ht (State.linkDown_fine _ _ ht)
  | region x y w hh => exact h3 _

@[simp] theorem State.tryCopy_fine (s : State) (f : List Byte) (h : s.Fine W F) : (State.tryCopy s f).1.Fine W F := by
  grind [State.tryCopy, State.store_fine]

@[simp] theorem Core.atEntry_fine (a : Addr) : (Core.atEntry a).Fine W F := by simp [Core.atEntry]
@[simp] theorem State.bootFrom_fine (s : State) (f : List Byte) (h : s.Fine W F) : (State.bootFrom s f).Fine W F := by
  grind [State.bootFrom, state_fine_mk, fineCores_fields, State.setCore_fine, State.foldl_fine, Core.atEntry_fine]

@[simp] theorem State.bootFail_fine (s : State) (h : s.Fine W F) : (State.bootFail s).Fine W F := by
  grind [State.bootFail, State.core_fine, state_fine_mk, fineCores_fields, core_fine_mk, fineCore_fields, State.modCore_fine, State.foldl_fine]

@[simp] theorem State.cleared_fine (s : State) (off thermtrip : Bool) : (State.cleared s off thermtrip).Fine W F := by
  simp [State.cleared]
@[simp] theorem State.startUp_fine (s : State) (h : s.Fine W F) : (State.startUp s).Fine W F := by
  grind [State.startUp, State.tryCopy_fine, State.bootFrom_fine, State.bootFail_fine]

@[simp] theorem State.restart_fine (s : State) (powerOn : Bool) : (State.restart s powerOn).Fine W F := by simp [State.restart]
@[simp] theorem packageReset_fine (cause : ResetCause) (s : State) (h : s.Fine W F) : Option.Gives (State.Fine W F) (packageReset cause s) := by
  unfold packageReset
  split <;> grind [Option.gives_some, Option.gives_none, debugCtl_fine, State.restart_fine]

@[simp] theorem State.receive_fine (s : State) (f : List Byte) (h : s.Fine W F) : (State.receive s f).Fine W F := by simp [State.receive, h]
@[simp] theorem managementFrame_fine (bytes : Option (List Byte)) (s : State) (h : s.Fine W F) :
    Option.Gives (State.Fine W F) (managementFrame bytes s) := by
  unfold managementFrame
  split <;> grind [state_fine_mk, fineCores_fields, Option.gives_some, Option.gives_none, State.receive_fine]

@[simp] theorem State.i3cSay_fine (s : State) (a : I3cAnswer) (h : s.Fine W F) : (State.i3cSay s a).Fine W F := by simp [State.i3cSay, h]
@[simp] theorem State.i3c_fine (s : State) (w : Word) (h : s.Fine W F) : Option.Gives (State.Fine W F) (State.i3c s w) := by simp [State.i3c, h]
@[simp] theorem status_fine (s : State) (h : s.Fine W F) : Option.Gives (State.Fine W F) (status s) := by simp [status, h]
@[simp] theorem temp_fine (s : State) (h : s.Fine W F) : Option.Gives (State.Fine W F) (temp s) := by simp [temp, h]
@[simp] theorem power_fine (s : State) (h : s.Fine W F) : Option.Gives (State.Fine W F) (power s) := by simp [power, h]
@[simp] theorem pcap_fine (x : I3cWrite) (s : State) (h : s.Fine W F) : Option.Gives (State.Fine W F) (pcap x s) := by
  unfold pcap
  split <;> grind [state_fine_mk, fineCores_fields, Option.gives_some, Option.gives_none, State.i3cSay_fine]

@[simp] theorem idleen_fine (q : BitVec 4) (s : State) (h : s.Fine W F) : Option.Gives (State.Fine W F) (idleen q s) := by simp [idleen, h]
@[simp] theorem i3cReset_fine (s : State) : Option.Gives (State.Fine W F) (i3cReset s) := by simp [i3cReset]
@[simp] theorem off_fine (s : State) : Option.Gives (State.Fine W F) (off s) := by simp [off]
@[simp] theorem State.countQuiet_fine (s : State) (clk : Nat) (h : s.Fine W F) : (State.countQuiet s clk).Fine W F := by simp [State.countQuiet, h]
@[simp] theorem quarterIdle_fine (q : BitVec 2) (s : State) (h : s.Fine W F) : Option.Gives (State.Fine W F) (quarterIdle q s) := by
  simp [quarterIdle, h]
@[simp] theorem quarterWake_fine (q : BitVec 2) (s : State) (h : s.Fine W F) : Option.Gives (State.Fine W F) (quarterWake q s) := by
  simp [quarterWake, h]
@[simp] theorem thermalTrip_fine (q : BitVec 3) (t : BitVec 12) (s : State) (h : s.Fine W F) : Option.Gives (State.Fine W F) (thermalTrip q t s) := by
  grind [thermalTrip, state_fine_mk, fineCores_fields, Option.gives_some, Option.gives_none, State.cleared_fine]

@[simp] theorem throttling_fine (q : BitVec 2) (on : Bool) (s : State) (h : s.Fine W F) : Option.Gives (State.Fine W F) (throttling q on s) := by
  simp [throttling, h]
@[simp] theorem State.telemetryWord_fine (s : State) (h : s.Fine W F) : (State.telemetryWord s).Fine W F := by
  grind [State.telemetryWord, state_fine_mk, fineCores_fields, State.store_fine]

@[simp] theorem telemetryRewrite_fine (s : State) (h : s.Fine W F) : Option.Gives (State.Fine W F) (telemetryRewrite s) := by
  grind [telemetryRewrite, state_fine_mk, fineCores_fields, Option.gives_some, Option.gives_none, State.telemetryWord_fine]

@[simp] theorem State.ldAt_fine (s : State) (sum : Word) (size : Nat) (h : s.Fine W F) : Res.Gives (fun r => r.2.Fine W F) (s.ldAt sum size) := by
  refine Res.gives_bind_any fun pa _ => Res.ite_gives (Res.ite_gives Res.gives_error (Res.gives_ok.mpr h)) ?_
  exact Res.gives_bind (State.ldSpecial_fine _ _ _ _ h) fun r hr => Res.gives_ok.mpr hr

@[simp] theorem State.stAt_fine (s : State) (sum : Word) (size : Nat) (v : Word) (h : s.Fine W F) :
    Res.Gives (State.Fine W F) (State.stAt s sum size v) := by
  grind [State.stAt, Res.gives_ok, Res.gives_bind_any, State.store_fine, State.stSpecial_fine]

@[simp] theorem State.amoAt_fine (s : State) (op : AmoOp) (wide : Bool) (sum x c : Word) (h : s.Fine W F) :
    Res.Gives (fun r => r.2.Fine W F) (s.amoAt op wide sum x c) := by
  refine Res.gives_bind_any fun pa _ => Res.ite_gives Res.gives_error (Res.gives_ok.mpr ?_)
  show State.Fine W F (match _ with | some bs => s.store pa bs | none => s)
  split
  · exact State.store_fine _ _ _ h
  · exact h

end
end Sys2Proof.Machine
end

section
/-! PROOFS. The operations of a bundle keep the invariant: the forms that the instructions are made from. -/

open Sys2Proof Sys2Proof.Machine Sys2Proof.Claims
namespace Sys2Proof.Machine
section
variable {W F : Prop}

/-- The effect of an operation, and the tiles that it begins where it faults, keep the invariant. -/
def SlotOp.Fine (W F : Prop) (o : SlotOp) : Prop :=
  (∀ pre cur, pre.Fine W F → cur.Fine W F → Res.Gives (fun r => r.1.Fine W F) (o.fx pre cur)) ∧
  ∀ pre cur, pre.Fine W F → cur.Fine W F → (o.begins pre cur).Fine W F

/-- An effect that goes on to the next bundle. -/
theorem Res.gives_seq {x : Res State} (h : Res.Gives (State.Fine W F) x) :
    Res.Gives (fun r => r.1.Fine W F) (do let s ← x; .ok (s, Flow.seq)) := Res.gives_bind h fun _ hs => Res.gives_ok.mpr hs

/-- An operation that begins no tile. -/
theorem SlotOp.fine_of_fx {o : SlotOp} (hb : o.begins = fun _ cur => cur)
    (hf : ∀ pre cur, pre.Fine W F → cur.Fine W F → Res.Gives (fun r => r.1.Fine W F) (o.fx pre cur)) : o.Fine W F :=
  ⟨hf, fun _ _ _ hc => by rw [hb]; exact hc⟩

/-! A stop gives nothing. -/

@[simp] theorem Res.gives_waiting {α : Type} {P : α → Prop} : Res.Gives P waiting := Res.gives_error
@[simp] theorem Res.gives_faultWith {α : Type} {P : α → Prop} (c d : Nat) : Res.Gives P (faultWith c d) := Res.gives_error
@[simp] theorem Res.gives_illop {α : Type} {P : α → Prop} (d : Nat) : Res.Gives P (illop d) := Res.gives_error
@[simp] theorem Res.gives_privFault {α : Type} {P : α → Prop} (l : Nat) : Res.Gives P (privFault l) := Res.gives_error
@[simp] theorem Res.gives_segv {α : Type} {P : α → Prop} (d a : Nat) : Res.Gives P (segv d a) := Res.gives_error
@[simp] theorem Res.gives_alignFault {α : Type} {P : α → Prop} (a : Nat) : Res.Gives P (alignFault a) := Res.gives_error
@[simp] theorem Res.gives_eccu {α : Type} {P : α → Prop} (d a : Nat) : Res.Gives P (eccu d a) := Res.gives_error

theorem plainOp_fine {sl : Slot} {u : Uses} {f : State → State → State}
    (hf : ∀ pre cur, pre.Fine W F → cur.Fine W F → (f pre cur).Fine W F) : (plainOp sl u f).Fine W F :=
  ⟨fun pre cur hp hc => Res.gives_ok.mpr (hf pre cur hp hc), fun _ _ _ hc => hc⟩

theorem cOp_fine {g : Guard} {u : Uses} {fx : State → State → Res (State × Flow)}
    (hf : ∀ pre cur, pre.Fine W F → cur.Fine W F → Res.Gives (fun r => r.1.Fine W F) (fx pre cur)) : (cOp g u fx).Fine W F :=
  ⟨hf, fun _ _ _ hc => hc⟩

theorem qOp_fine {u : Uses} {fx : State → State → Res (State × Flow)}
    (hf : ∀ pre cur, pre.Fine W F → cur.Fine W F → Res.Gives (fun r => r.1.Fine W F) (fx pre cur)) : (qOp u fx).Fine W F :=
  ⟨hf, fun _ _ _ hc => hc⟩

theorem vOp_fine {cl : BitVec 4} {u : State → Uses} {fx : State → State → Res State}
    (hf : ∀ pre cur, pre.Fine W F → cur.Fine W F → Res.Gives (State.Fine W F) (fx pre cur)) : (vOp cl u fx).Fine W F :=
  ⟨fun pre cur hp hc => Res.gives_bind_any fun _ _ => Res.gives_seq (hf pre cur hp hc), fun _ _ _ hc => hc⟩

theorem mxOp_fine {pg : PReg} {u : Uses} {fx : State → State → Res State}
    (hf : ∀ pre cur, pre.Fine W F → cur.Fine W F → Res.Gives (State.Fine W F) (fx pre cur)) : (mxOp pg u fx).Fine W F :=
  ⟨fun pre cur hp hc => Res.gives_seq (hf pre cur hp hc), fun _ _ _ hc => hc⟩

theorem enOp_fine {legal : Legal} {level : Nat} {pg : PReg} {u : Uses} {fx : State → State → Res State}
    (hf : ∀ pre cur, pre.Fine W F → cur.Fine W F → Res.Gives (State.Fine W F) (fx pre cur)) : (enOp legal level pg u fx).Fine W F :=
  ⟨fun pre cur hp hc => Res.gives_seq (hf pre cur hp hc), fun _ _ _ hc => hc⟩

theorem dxOp_fine {pg : PReg} {fx : State → State → Res State}
    (hf : ∀ pre cur, pre.Fine W F → cur.Fine W F → Res.Gives (State.Fine W F) (fx pre cur)) : (dxOp pg fx).Fine W F := enOp_fine hf

theorem memOp_fine {sl : Slot} {u : Uses} {fx : State → State → Res State}
    (hf : ∀ pre cur, pre.Fine W F → cur.Fine W F → Res.Gives (State.Fine W F) (fx pre cur)) : (memOp sl u fx).Fine W F :=
  ⟨fun pre cur hp hc => Res.gives_map (hf pre cur hp hc), fun _ _ _ hc => hc⟩

theorem sysrOp_fine (g : Guard) (d : GReg) (n : Nat) (ok : State → Res Unit) : (sysrOp g d n ok).Fine W F :=
  ⟨fun _ _ _ hc => Res.gives_bind_any fun _ _ => Res.gives_bind_any fun _ _ => Res.gives_ok.mpr (State.setG_fine hc _ _), fun _ _ _ hc => hc⟩

theorem Res.orFault_gives {α : Type} {P : α → Prop} {c : Res Unit} {x : Res α} (h : Res.Gives P x) : Res.Gives P (orFault c x) := by
  cases c with
  | ok _ => exact h
  | error e =>
    cases e with
    | wait => exact Res.gives_error
    | trap t =>
      cases x with
      | ok _ => exact Res.gives_error
      | error u =>
        cases u with
        | wait => exact Res.gives_error
        | trap _ => exact Res.gives_error

theorem syswOp_fine {g : Guard} {r : GReg} {n : Nat} {early : Bool} {fx : State → Word → Res (State × Flow)}
    (hf : ∀ cur v, cur.Fine W F → Res.Gives (fun r => r.1.Fine W F) (fx cur v)) : (syswOp g r n early fx).Fine W F :=
  ⟨fun _ cur _ hc => Res.orFault_gives (hf cur _ hc), fun _ _ _ hc => hc⟩

theorem vLanes_fine (h : VHead) (vd : BitVec 8) (srcs : List VSrc) (f : State → List Lane → Lane) (sat : State → List Lane → Bool) :
    (vLanes h vd srcs f sat).Fine W F := vOp_fine fun pre cur _ hc => State.vApply_fine pre cur h vd srcs _ _ hc

theorem vf1_fine (h : VHead) (t : Ty) (r : Rnd) (vd va : BitVec 8) (f : Num → Num) : (vf1 h t r vd va f).Fine W F := vLanes_fine ..
theorem vf2_fine (h : VHead) (t : Ty) (r : Rnd) (vd va vb : BitVec 8) (f : Rnd → Num → Num → Num) : (vf2 h t r vd va vb f).Fine W F :=
  vLanes_fine ..

theorem vf3_fine (h : VHead) (t : Ty) (r : Rnd) (vd va vb vc : BitVec 8) (f : Rnd → Num → Num → Num → Num) :
    (vf3 h t r vd va vb vc f).Fine W F := vLanes_fine ..

theorem vElem_fine (h : VHead) (t : Ty) (r : Rnd) (vd va : BitVec 8) (g : Elem) : (vElem h t r vd va g).Fine W F := vLanes_fine ..
theorem vi1_fine (h : VHead) (t : Ty) (vd va : BitVec 8) (f : Lane → Lane) : (vi1 h t vd va f).Fine W F := vLanes_fine ..
theorem vi2_fine (h : VHead) (t : Ty) (vd va vb : BitVec 8) (f : Lane → Lane → Lane) : (vi2 h t vd va vb f).Fine W F := vLanes_fine ..
theorem vSum_fine (h : VHead) (t : Ty) (sat : Bool) (vd va vb : BitVec 8) (f : Int → Int → Int) : (vSum h t sat vd va vb f).Fine W F :=
  vLanes_fine ..

theorem vShiftI_fine (h : VHead) (t : Ty) (vd va n : BitVec 8) (f : Nat → Lane → Nat → Lane) : (vShiftI h t vd va n f).Fine W F :=
  vi1_fine ..

theorem vShiftV_fine (h : VHead) (t : Ty) (vd va vb : BitVec 8) (f : Nat → Lane → Nat → Lane) : (vShiftV h t vd va vb f).Fine W F :=
  vi2_fine ..

theorem maskOp_fine (cl md : BitVec 4) (srcs : List (BitVec 4)) (f : List Mask → Mask) : (maskOp cl md srcs f).Fine W F :=
  vOp_fine fun _ _ _ hc => Res.gives_bind_any fun _ _ => Res.gives_ok.mpr (State.foldl_fine hc (fun t _ ht => State.setMask_fine t _ _ _ ht) _)

theorem vLoad_fine (h : VHead) (vd : BitVec 8) (base : State → Res Unit) (addr : State → Res (Nat → Nat → Word)) :
    (vLoad h vd base addr).Fine W F := by
  refine vOp_fine fun pre cur _ hc => ?_
  refine Res.gives_bind_any fun _ _ => Res.gives_bind_any fun _ _ => Res.gives_bind_any fun _ _ => Res.gives_bind_any fun _ _ => ?_
  exact Res.gives_bind_any fun _ _ => Res.gives_bind_any fun _ _ => State.putLanes_fine _ _ _ _ _ hc

theorem vStore_fine (h : VHead) (vd : BitVec 8) (base : State → Res Unit) (addr : State → Res (Nat → Nat → Word)) :
    (vStore h vd base addr).Fine W F := by
  refine vOp_fine fun pre cur _ hc => ?_
  refine Res.gives_bind_any fun _ _ => Res.gives_bind_any fun _ _ => Res.gives_bind_any fun _ _ => Res.gives_bind_any fun _ _ => ?_
  exact Res.gives_bind_any fun _ _ => Res.gives_ok.mpr (State.foldl_fine hc (fun t _ ht => State.store_fine t _ _ ht) _)

theorem vPermute_fine (h : VHead) (vd : BitVec 8) (srcs : List VSrc) (f : State → Nat → Nat → List VReg → Lane) :
    (vPermute h vd srcs f).Fine W F := by
  refine vOp_fine fun pre cur _ hc => Res.gives_bind_any fun _ _ => Res.gives_foldlM (fun t c ht => ?_) _ hc
  exact Res.gives_bind_any fun _ _ => Res.gives_bind_any fun _ _ => Res.gives_ok.mpr (State.setV_fine t _ _ _ ht)

theorem sysOp_fine {level : Nat} {pg : PReg} {check : State → State → Res (State → State × Word)}
    (hf : ∀ pre cur, pre.Fine W F → cur.Fine W F → Res.Gives (fun act => ∀ s, s.Fine W F → (act s).1.Fine W F) (check pre cur)) :
    (sysOp level pg check).Fine W F := by
  refine enOp_fine fun pre cur hp hc => Res.gives_bind_any fun _ _ => Res.gives_bind (hf pre cur hp hc) fun act ha => ?_
  exact Res.gives_ok.mpr (State.fill_fine _ _ _ (ha _ (State.reserve_fine _ _ hc)))

theorem cfgOp_fine (pg : PReg) (cmd : State → State → Res (RqRef → CfgCmd)) : (cfgOp pg cmd).Fine W F :=
  enOp_fine fun _ _ _ hc => Res.gives_bind_any fun _ _ => Res.gives_bind_any fun _ _ =>
    Res.gives_ok.mpr (State.submit_fine _ _ (State.reserve_fine _ _ hc))

theorem dbgOp_fine {pg : PReg} {ga : GReg} {act : Nat → Nat → RqRef → State → State}
    (hf : ∀ c t r s, s.Fine W F → (act c t r s).Fine W F) : (dbgOp pg ga act).Fine W F :=
  enOp_fine fun _ _ _ hc => Res.gives_bind_any fun _ _ => Res.gives_bind_any fun _ _ => Res.gives_bind_any fun _ _ =>
    Res.gives_ok.mpr (hf _ _ _ _ (State.reserve_fine _ _ hc))

theorem op2_fine (sl : Slot) (f : Word → Word) (d a : GReg) : (op2 sl f d a).Fine W F := plainOp_fine fun _ _ _ hc => State.setG_fine hc _ _
theorem op3_fine (sl : Slot) (f : Word → Word → Word) (d a b : GReg) : (op3 sl f d a b).Fine W F :=
  plainOp_fine fun _ _ _ hc => State.setG_fine hc _ _

theorem opP_fine (sl : Slot) (pd : PReg) (f : State → Bool) : (opP sl pd f).Fine W F := plainOp_fine fun _ _ _ hc => State.setP_fine hc _ _
theorem fop3_fine (sl : Slot) (f : Rnd → Num → Num → Num) (d a b : GReg) (r : Rnd) : (fop3 sl f d a b r).Fine W F :=
  plainOp_fine fun _ _ _ hc => State.setG_fine hc _ _

end
end Sys2Proof.Machine
end

section
/-! PROOFS. The C slot, the queue instructions and the moves as forms that keep the invariant. -/

open Sys2Proof Sys2Proof.Machine Sys2Proof.Claims
namespace Sys2Proof.Machine
section
variable {W F : Prop}

@[simp] theorem opBr_fine (g : Guard) (disp : BitVec 22) : (opBr g disp).Fine W F := cOp_fine fun _ _ _ hc => by simp [hc]
@[simp] theorem opBrr_fine (g : Guard) (t : GReg) : (opBrr g t).Fine W F := cOp_fine fun _ _ _ hc => by simp [hc]
@[simp] theorem opCall_fine (g : Guard) (disp : BitVec 22) : (opCall g disp).Fine W F := cOp_fine fun _ _ _ hc => by simp [hc]
@[simp] theorem opCallr_fine (g : Guard) (t : GReg) : (opCallr g t).Fine W F := cOp_fine fun _ _ _ hc => by simp [hc]
@[simp] theorem opRet_fine (g : Guard) : (opRet g).Fine W F := cOp_fine fun _ _ _ hc => by simp [hc]
@[simp] theorem opLoop_fine (g : Guard) (c : GReg) (len : BitVec 12) : (opLoop g c len).Fine W F := by
  refine cOp_fine fun pre cur _ hc => ?_
  by_cases hlt : (2 ^ 32 ≤ (pre.g c).toNat || !pre.bodyOk len) = true
  · rw [if_pos hlt]
    exact Res.gives_illop _
  rw [if_neg hlt]
  by_cases hz : pre.g c = 0
  · rw [if_pos hz]
    exact Res.gives_ok.mpr hc
  rw [if_neg hz]
  split
  · exact Res.gives_illop _
  · refine Res.gives_ok.mpr (State.setLoop_fine hc _ fun _ h0 => absurd ?_ hz)
    simp only [Bool.or_eq_true, decide_eq_true_eq, not_or] at hlt
    have h1 : ((pre.g c).setWidth 32).toNat = 0 := congrArg BitVec.toNat h0
    rw [BitVec.toNat_setWidth, Nat.mod_eq_of_lt (by omega)] at h1
    exact BitVec.eq_of_toNat_eq h1

@[simp] theorem opHalt_fine (g : Guard) : (opHalt g).Fine W F := by
  refine SlotOp.fine_of_fx rfl fun pre cur _ hc => ?_
  exact Res.ite_gives (Res.gives_ok.mpr (State.modMe_fine hc (hc _))) (Res.gives_ok.mpr hc)

@[simp] theorem opTrap_fine (g : Guard) (code : BitVec 8) : (opTrap g code).Fine W F := cOp_fine fun _ _ _ hc => by simp [hc]
@[simp] theorem opBrk_fine (g : Guard) (code : BitVec 16) : (opBrk g code).Fine W F := cOp_fine fun _ _ _ _ => by simp
@[simp] theorem opEret_fine (g : Guard) : (opEret g).Fine W F := by
  refine SlotOp.fine_of_fx rfl fun pre cur _ hc => ?_
  refine Res.ite_gives (Res.gives_privFault _) (Res.ite_gives (Res.gives_privFault _) (Res.ite_gives (Res.gives_alignFault _) ?_))
  exact Res.gives_ok.mpr (State.modMe_fine hc (Core.eret_fine _ (hc _)))

@[simp] theorem opIdle_fine (g : Guard) : (opIdle g).Fine W F := SlotOp.fine_of_fx rfl fun pre cur _ hc => by simp [opIdle, cOp, hc]
@[simp] theorem opFireEnd_fine (g : Guard) : (opFireEnd g).Fine W F := SlotOp.fine_of_fx rfl fun pre cur _ hc => by simp [opFireEnd, cOp, hc]
@[simp] theorem opFireNext_fine (g : Guard) : (opFireNext g).Fine W F := by
  refine SlotOp.fine_of_fx rfl fun pre cur _ hc => ?_
  simp only [opFireNext, cOp]
  have h1 := State.closeFiring_fine cur cur.focus cur.stg true hc
  generalize cur.closeFiring cur.focus cur.stg true = closed at h1 ⊢
  refine Res.gives_bind_any fun _ _ => Res.gives_bind_any fun _ _ => ?_
  refine Res.ite_gives (Res.gives_ok.mpr (State.startHub_fine _ _ h1)) (Res.gives_ok.mpr ?_)
  exact State.modCore_fine h1 _ (Core.modStage_fine (h1 _) _ fun e => e)

/-- The copies that a split makes of what a stage holds. -/
theorem Ctx.splitBanks_fine {x : Ctx} (h : x.Fine W) (starts : List Addr) (now : Nat) : FineBanks W (some (x.splitBanks starts now)) := by
  intro i
  show Stream.Fine W (sget Stream.reset (x.splitBanks starts now) i)
  by_cases hi : i < 4
  · rw [Ctx.splitBanks_bank x starts now i hi]
    intro hw
    obtain ⟨h1, h2, h3⟩ := h.1 hw
    refine ⟨?_, h2, h3⟩
    rw [sget_filter]
    rfl
  · have key := sget_foldl_sset Stream.reset [] 0 4 i fun j =>
      { g := x.g.filter fun e => banked e.1, p := x.p, loops := x.loops, pc := starts.getD j 0, since := now, joined := false }
    simp only [Nat.zero_add, hi, and_false, if_false] at key
    exact cast (congrArg (Stream.Fine W) key.symm) stream_fine_reset

@[simp] theorem opSplit_fine (g : Guard) (r : GReg) : (opSplit g r).Fine W F := by
  refine SlotOp.fine_of_fx rfl fun pre cur _ hc => Res.gives_ok.mpr ((state_fine_mk ..).mpr (State.modCtx_fine hc fun hx => ?_))
  exact ⟨hx.1, Ctx.splitBanks_fine hx _ _⟩

@[simp] theorem opJoin_fine (g : Guard) : (opJoin g).Fine W F := by
  refine SlotOp.fine_of_fx rfl fun pre cur _ hc => ?_
  exact Res.gives_ok.mpr (State.modCtx_fine hc fun hx => hx.modBank (fun _ hs => (stream_fine_mk ..).mpr hs) _)

@[simp] theorem opBarGrp_fine (g : Guard) : (opBarGrp g).Fine W F := by
  refine SlotOp.fine_of_fx rfl fun pre cur _ hc => ?_
  exact Res.ite_gives (Res.gives_ok.mpr (State.modStage_fine (State.arriveGroup_fine _ hc) fun e => e)) (Res.gives_ok.mpr hc)

@[simp] theorem opCfArmReg_fine (g : Guard) (cf : BitVec 6) (t : GReg) : (opCfArmReg g cf t).Fine W F :=
  cOp_fine fun _ _ _ hc => by simp [hc]
@[simp] theorem opCfArmImm_fine (g : Guard) (cf : BitVec 6) (imm : BitVec 15) : (opCfArmImm g cf imm).Fine W F :=
  cOp_fine fun _ _ _ hc => by simp [hc]
@[simp] theorem opCfWaitAny_fine (g : Guard) (d m : GReg) : (opCfWaitAny g d m).Fine W F := by
  refine cOp_fine fun pre cur _ hc => Res.ite_gives (Res.gives_illop _) (Res.ite_gives Res.gives_waiting (Res.gives_ok.mpr ?_))
  exact State.setG_fine (State.modMe_fine hc (Core.modFlag_fine _ (pre.me.firstReady (pre.g m)) Flag.consume (hc _))) d _

@[simp] theorem opCfWaitAll_fine (g : Guard) (d m : GReg) : (opCfWaitAll g d m).Fine W F := by
  refine cOp_fine fun pre cur _ hc => Res.ite_gives (Res.gives_illop _) (Res.ite_gives Res.gives_waiting (Res.gives_ok.mpr ?_))
  exact State.setG_fine (State.modMe_fine hc (Core.consumeAll_fine _ _ (hc _))) _ _

@[simp] theorem opCfFfr_fine (g : Guard) (d m : GReg) : (opCfFfr g d m).Fine W F := cOp_fine fun _ _ _ hc => by simp [hc]
@[simp] theorem opCfStat_fine (g : Guard) (cf : BitVec 6) (d : GReg) : (opCfStat g cf d).Fine W F := cOp_fine fun _ _ _ hc => by simp [hc]
@[simp] theorem opSysr_fine (g : Guard) (d : GReg) (num : BitVec 12) : (opSysr g d num).Fine W F := sysrOp_fine ..
@[simp] theorem opSysw_fine (g : Guard) (r : GReg) (num : BitVec 12) : (opSysw g r num).Fine W F :=
  syswOp_fine fun _ _ hc => Res.gives_map (State.sysWrite_fine _ _ _ hc)

@[simp] theorem opCfErrWrite_fine (g : Guard) (r : GReg) : (opCfErrWrite g r).Fine W F :=
  syswOp_fine fun _ _ hc => Res.gives_ok.mpr (State.modMe_fine hc (Core.clearErr_fine _ _ (hc _)))

@[simp] theorem opCoreRmodeWrite_fine (g : Guard) (r : GReg) : (opCoreRmodeWrite g r).Fine W F := syswOp_fine fun _ _ hc => by simp [hc]
@[simp] theorem opCoreSatRead_fine (g : Guard) (d : GReg) : (opCoreSatRead g d).Fine W F := sysrOp_fine ..
@[simp] theorem opLoopCntWrite_fine (g : Guard) (r : GReg) (j : BitVec 2) : (opLoopCntWrite g r j).Fine W F := syswOp_fine fun _ _ hc => by simp [hc]
@[simp] theorem opLoopStartWrite_fine (g : Guard) (r : GReg) (j : BitVec 2) : (opLoopStartWrite g r j).Fine W F :=
  syswOp_fine fun _ _ hc => by simp [hc]
@[simp] theorem opCycCmpWrite_fine (g : Guard) (r : GReg) : (opCycCmpWrite g r).Fine W F := syswOp_fine fun _ _ hc => by simp [hc]
@[simp] theorem opHubStatusWrite_fine (g : Guard) (r : GReg) : (opHubStatusWrite g r).Fine W F := syswOp_fine fun _ _ hc => by simp [hc]
@[simp] theorem opQpop_fine (d : GReg) (iq : BitVec 4) (stall t : Bool) : (opQpop d iq stall t).Fine W F := by
  refine ⟨fun pre cur _ hc => Res.gives_bind_any fun _ _ => ?_, fun _ _ _ hc => State.beginsPop_fine _ _ _ hc⟩
  refine State.qRun_fine _ _ _ _ hc fun e => Res.gives_bind (State.beginPop_fine _ _ hc) fun s hs => ?_
  exact Res.gives_ok.mpr (State.setG_fine (State.popWord_fine _ _ _ _ hs) _ _)

@[simp] theorem opQpush_fine (r : GReg) (oq : BitVec 4) (stall t : Bool) : (opQpush r oq stall t).Fine W F := by
  refine ⟨fun pre cur _ hc => Res.gives_bind_any fun _ _ => ?_, fun _ _ _ hc => State.beginsPush_fine _ _ _ hc⟩
  refine State.qRun_fine _ _ _ _ hc fun _ => Res.gives_bind (State.openTile_fine _ _ _ _ hc) fun s hs => Res.gives_ok.mpr ?_
  have h2 := State.appendWords_fine s oq.toNat [pre.g r] hs
  exact State.ite_fine (State.closeTile_fine _ _ h2) h2

@[simp] theorem opQpeek_fine (d : GReg) (iq : BitVec 4) (stall : Bool) (beat : BitVec 6) (w : BitVec 3) : (opQpeek d iq stall beat w).Fine W F :=
  qOp_fine fun _ _ _ hc => Res.gives_bind_any fun _ _ => State.qRun_fine _ _ _ _ hc fun _ => Res.gives_ok.mpr (State.setG_fine hc _ _)

@[simp] theorem opQhead_fine (d : GReg) (iq : BitVec 4) (stall : Bool) (w : BitVec 3) : (opQhead d iq stall w).Fine W F :=
  qOp_fine fun _ _ _ hc => Res.gives_bind_any fun _ _ => State.qRun_fine _ _ _ _ hc fun _ => Res.gives_ok.mpr (State.setG_fine hc _ _)

@[simp] theorem opQskip_fine (iq : BitVec 4) (stall : Bool) : (opQskip iq stall).Fine W F := by
  refine ⟨fun pre cur _ hc => Res.gives_bind_any fun _ _ => State.qRun_fine _ _ _ _ hc fun e => ?_, fun _ _ _ hc => State.beginsPop_fine _ _ _ hc⟩
  refine Res.ite_gives (Res.gives_ok.mpr (State.takeHead_fine _ _ hc)) ?_
  exact Res.gives_bind (State.beginPop_fine _ _ hc) fun s hs => Res.gives_ok.mpr (State.takeHead_fine _ _ hs)

@[simp] theorem opQmark_fine (r : GReg) (oq : BitVec 4) (stall : Bool) (k : MarkKind) : (opQmark r oq stall k).Fine W F := by
  have hq : ∀ pre cur : State, cur.Fine W F → Res.Gives (fun r => r.1.Fine W F) (do
      need (pre.oq pre.focus oq.toNat).atHead (illop 0x4A)
      cur.qRun stall (pre.creditOk oq.toNat) fun _ =>
        .ok (cur.pushEntry cur.focus oq.toNat (mkMarker (8 + k.code.toNat) pre.ctx.charge ((pre.g r).extractLsb' 0 32)))) :=
    fun pre cur hc => Res.gives_bind_any fun _ _ =>
      State.qRun_fine _ _ _ _ hc fun _ => Res.gives_ok.mpr (State.pushEntry_fine _ _ _ _ hc)
  refine qOp_fine fun pre cur _ hc => Res.gives_bind_any fun _ _ => Res.ite_gives ?_ (hq pre cur hc)
  exact Res.gives_bind_any fun _ _ => hq pre cur hc

theorem opQcopy_act_fine (pre cur : State) (iq oq : BitVec 4) (stall : Bool) (hc : cur.Fine W F) :
    Res.Gives (fun r => r.1.Fine W F) (cur.qRun stall (pre.copyOk iq.toNat oq.toNat) fun e => do
        let s ← if e.isMarker then Except.ok cur else (do
          cur.popRate iq.toNat
          cur.pushRate oq.toNat
          Except.ok ((cur.countPop cur.focus iq.toNat).modOq cur.focus oq.toNat fun x => { x with pushed := x.pushed + 1 }))
        .ok ((s.takeHead iq.toNat).pushEntry s.focus oq.toNat e)) := by
  refine State.qRun_fine _ _ _ _ hc fun e => ?_
  refine Res.ite_gives (Res.gives_ok.mpr (State.pushEntry_fine _ _ _ _ (State.takeHead_fine _ _ hc))) ?_
  refine Res.gives_bind (P := State.Fine W F) ?_ fun s hs => Res.gives_ok.mpr (State.pushEntry_fine _ _ _ _ (State.takeHead_fine _ _ hs))
  refine Res.gives_bind_any fun _ _ => Res.gives_bind_any fun _ _ => Res.gives_ok.mpr ?_
  exact State.modOq_fine _ _ _ _ (State.countPop_fine _ _ _ hc)

@[simp] theorem opQcopy_fine (iq oq : BitVec 4) (stall : Bool) : (opQcopy iq oq stall).Fine W F := by
  refine ⟨fun pre cur _ hc => ?_, fun _ _ _ hc => State.ite_fine (State.beginsPush_fine _ _ _ (State.beginsPop_fine _ _ _ hc)) hc⟩
  have hq := opQcopy_act_fine pre cur iq oq stall hc
  refine Res.gives_bind_any fun _ _ => Res.gives_bind_any fun _ _ => ?_
  have hw : ∀ x y : Res Unit, Res.Gives (fun r : State × Flow => r.1.Fine W F) (do x; y; cur.qRun stall (pre.copyOk iq.toNat oq.toNat) _) :=
    fun x y => Res.gives_bind_any fun _ _ => Res.gives_bind_any fun _ _ => hq
  exact Res.ite_gives (Res.gives_bind_any fun _ _ => Res.ite_gives (hw _ _) (hw _ _)) (Res.gives_bind_any fun _ _ => Res.ite_gives (hw _ _) (hw _ _))

@[simp] theorem opQfree_fine (d : GReg) (oq : BitVec 4) : (opQfree d oq).Fine W F := qOp_fine fun _ _ _ hc => by simp [hc]
@[simp] theorem opQavail_fine (d : GReg) (iq : BitVec 4) : (opQavail d iq).Fine W F := qOp_fine fun _ _ _ hc => by simp [hc]
@[simp] theorem opQstat_fine (d : GReg) (port : BitVec 5) : (opQstat d port).Fine W F := by
  refine qOp_fine fun _ _ _ hc => Res.ite_gives ?_ ?_
  · exact Res.gives_bind_any fun _ _ => Res.gives_ok.mpr (State.setG_fine hc _ _)
  · exact Res.gives_bind_any fun _ _ => Res.gives_ok.mpr (State.setG_fine hc _ _)

@[simp] theorem opEpop_fine (d : GReg) (e : BitVec 5) (stall : Bool) : (opEpop d e stall).Fine W F :=
  qOp_fine fun _ _ _ hc => State.qRun_fine _ _ _ _ hc fun _ => Res.gives_ok.mpr (State.setG_fine (State.freeResult_fine _ _ _ hc) _ _)

@[simp] theorem opMov_fine (d a : GReg) : (opMov d a).Fine W F := plainOp_fine fun _ _ _ hc => by simp [hc]
@[simp] theorem opMovp_fine (pd pa : PReg) (neg : Bool) : (opMovp pd pa neg).Fine W F := plainOp_fine fun _ _ _ hc => by simp [hc]
end
end Sys2Proof.Machine
end

section
/-! PROOFS. The vector and matrix instructions as forms that keep the invariant. -/

open Sys2Proof Sys2Proof.Machine Sys2Proof.Claims
namespace Sys2Proof.Machine
section
variable {W F : Prop}

@[simp] theorem opVadd_fine (h : VHead) (t : Ty) (r : Rnd) (vd va vb : BitVec 8) : (opVadd h t r vd va vb).Fine W F := vf2_fine ..
@[simp] theorem opVsub_fine (h : VHead) (t : Ty) (r : Rnd) (vd va vb : BitVec 8) : (opVsub h t r vd va vb).Fine W F := vf2_fine ..
@[simp] theorem opVmul_fine (h : VHead) (t : Ty) (r : Rnd) (vd va vb : BitVec 8) : (opVmul h t r vd va vb).Fine W F := vf2_fine ..
@[simp] theorem opVdiv_fine (h : VHead) (t : Ty) (r : Rnd) (vd va vb : BitVec 8) : (opVdiv h t r vd va vb).Fine W F := vf2_fine ..
@[simp] theorem opVfma_fine (h : VHead) (t : Ty) (r : Rnd) (vd va vb vc : BitVec 8) : (opVfma h t r vd va vb vc).Fine W F := vf3_fine ..
@[simp] theorem opVfms_fine (h : VHead) (t : Ty) (r : Rnd) (vd va vb vc : BitVec 8) : (opVfms h t r vd va vb vc).Fine W F := vf3_fine ..
@[simp] theorem opVfnma_fine (h : VHead) (t : Ty) (r : Rnd) (vd va vb vc : BitVec 8) : (opVfnma h t r vd va vb vc).Fine W F := vf3_fine ..
@[simp] theorem opVmin_fine (h : VHead) (t : Ty) (vd va vb : BitVec 8) : (opVmin h t vd va vb).Fine W F := vf2_fine ..
@[simp] theorem opVmax_fine (h : VHead) (t : Ty) (vd va vb : BitVec 8) : (opVmax h t vd va vb).Fine W F := vf2_fine ..
@[simp] theorem opVabs_fine (h : VHead) (t : Ty) (vd va : BitVec 8) : (opVabs h t vd va).Fine W F := vi1_fine ..
@[simp] theorem opVneg_fine (h : VHead) (t : Ty) (vd va : BitVec 8) : (opVneg h t vd va).Fine W F := vi1_fine ..
@[simp] theorem opVcopysign_fine (h : VHead) (t : Ty) (vd va vb : BitVec 8) : (opVcopysign h t vd va vb).Fine W F := vi2_fine ..
@[simp] theorem opVsqrt_fine (h : VHead) (t : Ty) (r : Rnd) (vd va : BitVec 8) : (opVsqrt h t r vd va).Fine W F := vf1_fine ..
@[simp] theorem opVrcp_fine (h : VHead) (t : Ty) (r : Rnd) (vd va : BitVec 8) : (opVrcp h t r vd va).Fine W F := vf1_fine ..
@[simp] theorem opVrsq_fine (h : VHead) (t : Ty) (r : Rnd) (vd va : BitVec 8) : (opVrsq h t r vd va).Fine W F := vf1_fine ..
@[simp] theorem opVexp2_fine (h : VHead) (t : Ty) (r : Rnd) (vd va : BitVec 8) : (opVexp2 h t r vd va).Fine W F := vElem_fine ..
@[simp] theorem opVlog2_fine (h : VHead) (t : Ty) (r : Rnd) (vd va : BitVec 8) : (opVlog2 h t r vd va).Fine W F := vElem_fine ..
@[simp] theorem opVsin_fine (h : VHead) (t : Ty) (r : Rnd) (vd va : BitVec 8) : (opVsin h t r vd va).Fine W F := vElem_fine ..
@[simp] theorem opVcos_fine (h : VHead) (t : Ty) (r : Rnd) (vd va : BitVec 8) : (opVcos h t r vd va).Fine W F := vElem_fine ..
@[simp] theorem opVtanh_fine (h : VHead) (t : Ty) (r : Rnd) (vd va : BitVec 8) : (opVtanh h t r vd va).Fine W F := vElem_fine ..
@[simp] theorem opViadd_fine (h : VHead) (t : Ty) (sat : Bool) (vd va vb : BitVec 8) : (opViadd h t sat vd va vb).Fine W F := vSum_fine ..
@[simp] theorem opVisub_fine (h : VHead) (t : Ty) (sat : Bool) (vd va vb : BitVec 8) : (opVisub h t sat vd va vb).Fine W F := vSum_fine ..
@[simp] theorem opVimul_fine (h : VHead) (t : Ty) (vd va vb : BitVec 8) : (opVimul h t vd va vb).Fine W F := vi2_fine ..
@[simp] theorem opVimulh_fine (h : VHead) (t : Ty) (vd va vb : BitVec 8) : (opVimulh h t vd va vb).Fine W F := vi2_fine ..
@[simp] theorem opVimin_fine (h : VHead) (t : Ty) (vd va vb : BitVec 8) : (opVimin h t vd va vb).Fine W F := vi2_fine ..
@[simp] theorem opVimax_fine (h : VHead) (t : Ty) (vd va vb : BitVec 8) : (opVimax h t vd va vb).Fine W F := vi2_fine ..
@[simp] theorem opVand_fine (h : VHead) (t : Ty) (vd va vb : BitVec 8) : (opVand h t vd va vb).Fine W F := vi2_fine ..
@[simp] theorem opVor_fine (h : VHead) (t : Ty) (vd va vb : BitVec 8) : (opVor h t vd va vb).Fine W F := vi2_fine ..
@[simp] theorem opVxor_fine (h : VHead) (t : Ty) (vd va vb : BitVec 8) : (opVxor h t vd va vb).Fine W F := vi2_fine ..
@[simp] theorem opVnot_fine (h : VHead) (t : Ty) (vd va : BitVec 8) : (opVnot h t vd va).Fine W F := vi1_fine ..
@[simp] theorem opVshlImm_fine (h : VHead) (t : Ty) (vd va n : BitVec 8) : (opVshlImm h t vd va n).Fine W F := vShiftI_fine ..
@[simp] theorem opVshlVb_fine (h : VHead) (t : Ty) (vd va vb : BitVec 8) : (opVshlVb h t vd va vb).Fine W F := vShiftV_fine ..
@[simp] theorem opVshrImm_fine (h : VHead) (t : Ty) (vd va n : BitVec 8) : (opVshrImm h t vd va n).Fine W F := vShiftI_fine ..
@[simp] theorem opVshrVb_fine (h : VHead) (t : Ty) (vd va vb : BitVec 8) : (opVshrVb h t vd va vb).Fine W F := vShiftV_fine ..
@[simp] theorem opVsarImm_fine (h : VHead) (t : Ty) (vd va n : BitVec 8) : (opVsarImm h t vd va n).Fine W F := vShiftI_fine ..
@[simp] theorem opVsarVb_fine (h : VHead) (t : Ty) (vd va vb : BitVec 8) : (opVsarVb h t vd va vb).Fine W F := vShiftV_fine ..
@[simp] theorem opVbext_fine (h : VHead) (t : Ty) (vd va : BitVec 8) (pos : BitVec 5) (len1 : BitVec 3) : (opVbext h t vd va pos len1).Fine W F :=
  vi1_fine ..
@[simp] theorem opVfsh_fine (h : VHead) (t : Ty) (vd va vb n : BitVec 8) : (opVfsh h t vd va vb n).Fine W F := vi2_fine ..
@[simp] theorem opVpopc_fine (h : VHead) (t : Ty) (vd va : BitVec 8) : (opVpopc h t vd va).Fine W F := vi1_fine ..
@[simp] theorem opVclz_fine (h : VHead) (t : Ty) (vd va : BitVec 8) : (opVclz h t vd va).Fine W F := vi1_fine ..
@[simp] theorem opVsatn_fine (h : VHead) (t u : Ty) (vd va : BitVec 8) : (opVsatn h t u vd va).Fine W F := vLanes_fine ..
@[simp] theorem opVcmp_fine (cc : VcmpCc) (h : VHead) (t : Ty) (md : BitVec 4) (va vb : BitVec 8) : (opVcmp cc h t md va vb).Fine W F := by
  refine vOp_fine fun pre cur _ hc => Res.gives_bind_any fun _ _ => Res.gives_bind_any fun _ _ => Res.gives_foldlM (fun t c ht => ?_) _ hc
  exact Res.gives_bind_any fun _ _ => Res.gives_bind_any fun _ _ => Res.gives_ok.mpr (State.setMask_fine t _ _ _ ht)

@[simp] theorem opVsel_fine (h : VHead) (vd va vb : BitVec 8) (mc : BitVec 4) : (opVsel h vd va vb mc).Fine W F := by
  refine vOp_fine fun pre cur _ hc => Res.gives_bind_any fun _ _ => Res.gives_bind_any fun _ _ => Res.gives_foldlM (fun t c ht => ?_) _ hc
  exact Res.gives_bind_any fun _ _ => Res.gives_bind_any fun _ _ => Res.gives_bind_any fun _ _ => Res.gives_ok.mpr (State.setV_fine t _ _ _ ht)

@[simp] theorem opMand_fine (cl : BitVec 4) (md ma mb : BitVec 4) : (opMand cl md ma mb).Fine W F := maskOp_fine ..
@[simp] theorem opMor_fine (cl : BitVec 4) (md ma mb : BitVec 4) : (opMor cl md ma mb).Fine W F := maskOp_fine ..
@[simp] theorem opMxor_fine (cl : BitVec 4) (md ma mb : BitVec 4) : (opMxor cl md ma mb).Fine W F := maskOp_fine ..
@[simp] theorem opMnot_fine (cl : BitVec 4) (md ma : BitVec 4) : (opMnot cl md ma).Fine W F := maskOp_fine ..
@[simp] theorem opMpopc_fine (cl : BitVec 4) (md ma : BitVec 4) : (opMpopc cl md ma).Fine W F := maskOp_fine ..
@[simp] theorem opMfirst_fine (cl : BitVec 4) (md ma : BitVec 4) : (opMfirst cl md ma).Fine W F := maskOp_fine ..
@[simp] theorem opMset_fine (cl : BitVec 4) (md : BitVec 4) (code : BitVec 8) : (opMset cl md code).Fine W F := maskOp_fine ..
@[simp] theorem opVcvt_fine (h : VHead) (t u : Ty) (r : Rnd) (vd va : BitVec 8) : (opVcvt h t u r vd va).Fine W F := vLanes_fine ..
@[simp] theorem opVpack_fine (h : VHead) (t : Ty) (vd va vb : BitVec 8) : (opVpack h t vd va vb).Fine W F := vLanes_fine ..
@[simp] theorem opVunpack_fine (h : VHead) (t : Ty) (hi : Bool) (vd va : BitVec 8) : (opVunpack h t hi vd va).Fine W F := vLanes_fine ..
@[simp] theorem opVscale_fine (h : VHead) (t q : Ty) (vd va : BitVec 8) : (opVscale h t q vd va).Fine W F := by
  refine vOp_fine fun pre cur _ hc => Res.gives_bind_any fun _ _ => Res.gives_foldlM (fun t c ht => ?_) _ hc
  exact Res.gives_bind_any fun _ _ => Res.gives_bind_any fun _ _ => Res.gives_ok.mpr (State.setSat_fine _ _ (State.setV_fine t _ _ _ ht))

@[simp] theorem opVquant_fine (h : VHead) (t q : Ty) (r : Rnd) (vd va vb : BitVec 8) : (opVquant h t q r vd va vb).Fine W F := vLanes_fine ..
@[simp] theorem opVdeq_fine (h : VHead) (t q : Ty) (r : Rnd) (vd va vb : BitVec 8) : (opVdeq h t q r vd va vb).Fine W F := vLanes_fine ..
@[simp] theorem opVld_fine (h : VHead) (vd : BitVec 8) (ga : GReg) (off : BitVec 8) : (opVld h vd ga off).Fine W F := vLoad_fine ..
@[simp] theorem opVst_fine (h : VHead) (vd : BitVec 8) (ga : GReg) (off : BitVec 8) : (opVst h vd ga off).Fine W F := vStore_fine ..
@[simp] theorem opVlds_fine (h : VHead) (vd : BitVec 8) (ga gb : GReg) : (opVlds h vd ga gb).Fine W F := vLoad_fine ..
@[simp] theorem opVsts_fine (h : VHead) (vd : BitVec 8) (ga gb : GReg) : (opVsts h vd ga gb).Fine W F := vStore_fine ..
@[simp] theorem opVgather_fine (h : VHead) (vd : BitVec 8) (ga : GReg) (vb : BitVec 8) : (opVgather h vd ga vb).Fine W F := vLoad_fine ..
@[simp] theorem opVscatter_fine (h : VHead) (vd : BitVec 8) (ga : GReg) (vb : BitVec 8) : (opVscatter h vd ga vb).Fine W F := vStore_fine ..
@[simp] theorem opVldb_fine (h : VHead) (vd : BitVec 8) (ga : GReg) : (opVldb h vd ga).Fine W F := vLoad_fine ..
@[simp] theorem opVrget_fine (h : VHead) (vd va vb : BitVec 8) : (opVrget h vd va vb).Fine W F :=
  vOp_fine fun _ _ _ hc => Res.gives_bind_any fun _ _ => Res.gives_bind_any fun _ _ => State.putLanes_fine _ _ _ _ _ hc

@[simp] theorem opVrput_fine (h : VHead) (vd va vb : BitVec 8) : (opVrput h vd va vb).Fine W F := by
  refine vOp_fine fun pre cur _ hc => Res.gives_bind_any fun _ _ => Res.gives_foldlM (fun t c ht => ?_) _ hc
  refine Res.gives_bind_any fun _ _ => Res.gives_bind_any fun _ _ => Res.gives_bind_any fun _ _ => Res.gives_foldlM (fun u l hu => ?_) _ ht
  exact Res.gives_bind_any fun _ _ => Res.gives_ok.mpr (State.setV_fine u _ _ _ hu)

@[simp] theorem opVperm_fine (h : VHead) (vd va vb : BitVec 8) : (opVperm h vd va vb).Fine W F := vPermute_fine ..
@[simp] theorem opVshuf_fine (h : VHead) (p : ShufPat) (vd va vb : BitVec 8) : (opVshuf h p vd va vb).Fine W F := vPermute_fine ..
@[simp] theorem opVrotl_fine (h : VHead) (vd va : BitVec 8) (n : BitVec 7) : (opVrotl h vd va n).Fine W F := vPermute_fine ..
@[simp] theorem opVxcl_fine (h : VHead) (vd va : BitVec 8) (gb : GReg) : (opVxcl h vd va gb).Fine W F := by
  refine SlotOp.fine_of_fx rfl fun pre cur _ hc => Res.gives_bind_any fun _ _ => Res.gives_bind_any fun _ _ => Res.gives_seq ?_
  refine Res.gives_foldlM (fun t c ht => ?_) _ hc
  exact Res.gives_bind_any fun _ _ => Res.gives_bind_any fun _ _ => Res.gives_ok.mpr (State.setV_fine t _ _ _ ht)

@[simp] theorem opVmovs_fine (h : VHead) (vd : BitVec 8) (gb : GReg) : (opVmovs h vd gb).Fine W F := vPermute_fine ..
@[simp] theorem opVbcast_fine (h : VHead) (vd va : BitVec 8) (gb : GReg) : (opVbcast h vd va gb).Fine W F := by
  refine vOp_fine fun pre cur _ hc => Res.gives_bind_any fun _ _ => Res.gives_foldlM (fun t c ht => ?_) _ hc
  exact Res.gives_bind_any fun _ _ => Res.gives_bind_any fun _ _ => Res.gives_ok.mpr (State.setV_fine t _ _ _ ht)

@[simp] theorem opVzero_fine (h : VHead) (vd : BitVec 8) : (opVzero h vd).Fine W F := vPermute_fine ..
@[simp] theorem opKset_fine (cl : BitVec 4) (kd : BitVec 3) (gb : GReg) (e : BitVec 8) : (opKset cl kd gb e).Fine W F :=
  vOp_fine fun _ _ _ hc => Res.gives_foldlM (fun t _ ht => Res.ite_gives (Res.gives_illop _) (Res.gives_ok.mpr (State.setK_fine t _ _ _ ht))) _ hc

@[simp] theorem opVred_fine (h : VHead) (op : RedOp) (t : Ty) (r : Rnd) (vd va : BitVec 8) : (opVred h op t r vd va).Fine W F :=
  vOp_fine fun _ _ _ hc => Res.gives_bind_any fun _ _ => Res.gives_bind_any fun _ _ => State.putAll_fine _ _ _ _ _ hc

@[simp] theorem opVargmax_fine (h : VHead) (t : Ty) (vd va : BitVec 8) : (opVargmax h t vd va).Fine W F :=
  vOp_fine fun _ _ _ hc => Res.gives_bind_any fun _ _ => Res.gives_bind_any fun _ _ => State.putAll_fine _ _ _ _ _ hc

@[simp] theorem opVscan_fine (h : VHead) (op : ScanOp) (t : Ty) (r : Rnd) (vd va : BitVec 8) : (opVscan h op t r vd va).Fine W F :=
  vOp_fine fun _ _ _ hc => Res.gives_bind_any fun _ _ => Res.gives_bind_any fun _ _ => State.putLanes_fine _ _ _ _ _ hc

@[simp] theorem opViota_fine (h : VHead) (vd : BitVec 8) : (opViota h vd).Fine W F := vOp_fine fun _ _ _ hc => by simp [hc]
@[simp] theorem opVcmprSt_fine (h : VHead) (t : Ty) (nf : Bool) (vd : BitVec 8) (ga gb : GReg) : (opVcmprSt h t nf vd ga gb).Fine W F := by
  refine vOp_fine fun pre cur _ hc => Res.gives_bind_any fun _ _ => Res.gives_bind_any fun _ _ => Res.gives_bind_any fun _ _ => ?_
  refine Res.ite_gives (Res.ite_gives (Res.gives_ok.mpr (State.setP_fine hc _ _)) (Res.gives_faultWith _ _)) ?_
  exact Res.gives_bind (State.writeChecked_fine _ _ _ hc) fun s hs => Res.gives_ok.mpr (State.ite_fine (State.setP_fine hs _ _) hs)

@[simp] theorem opVexpdLd_fine (h : VHead) (t : Ty) (vd : BitVec 8) (ga : GReg) : (opVexpdLd h t vd ga).Fine W F := by
  refine vOp_fine fun pre cur _ hc => Res.gives_bind_any fun _ _ => Res.gives_bind_any fun _ _ => Res.gives_bind_any fun _ _ => ?_
  refine Res.gives_bind_any fun _ _ => Res.gives_bind_any fun _ _ => Res.gives_bind_any fun _ _ => Res.gives_bind_any fun _ _ => ?_
  exact Res.gives_bind_any fun _ _ => State.putLanes_fine _ _ _ _ _ hc

@[simp] theorem opVqpop_fine (h : VHead) (vd : BitVec 8) (ga : GReg) : (opVqpop h vd ga).Fine W F := by
  refine ⟨fun pre cur _ hc => Res.gives_bind_any fun _ _ => Res.gives_seq ?_, fun _ _ _ hc => State.beginsPop_fine _ _ _ hc⟩
  refine Res.gives_bind_any fun _ _ => Res.gives_bind_any fun _ _ => Res.gives_bind_any fun _ _ => Res.gives_bind_any fun _ _ => ?_
  refine Res.gives_bind_any fun e _ => Res.gives_bind (State.beginPop_fine _ _ hc) fun s hs => Res.gives_ok.mpr (State.takeHead_fine _ _ ?_)
  exact State.foldl_fine hs (fun t j ht => State.setV_fine t _ _ _ ht) _

/-- What a vqpush does once it no longer waits. -/
theorem vqpush_act_fine (pre cur : State) (h : VHead) (t : Ty) (close : Bool) (vd : BitVec 8) (n rows : Nat) (hc : cur.Fine W F) :
    Res.Gives (State.Fine W F) (do
      let regs ← pre.rowRegs h vd
      need (1 ≤ rows && rows ≤ 16) (illop 0x0B)
      pre.vpushOk n t.code.toNat rows
      let s ← cur.openTile n true (mkHead 0 t.code.toNat 0 128 0 pre.ctx.charge 0 0 0)
      let s2 := s.appendWords n (pre.pushRows regs rows)
      .ok (if close then s2.closeTile n else s2)) := by
  refine Res.gives_bind_any fun regs _ => Res.gives_bind_any fun _ _ => Res.gives_bind_any fun _ _ => ?_
  refine Res.gives_bind (State.openTile_fine _ _ _ _ hc) fun s hs => Res.gives_ok.mpr ?_
  have h2 := State.appendWords_fine s n (pre.pushRows regs rows) hs
  exact State.ite_fine (State.closeTile_fine _ _ h2) h2

@[simp] theorem opVqpush_fine (h : VHead) (t : Ty) (close : Bool) (vd : BitVec 8) (ga gb : GReg) : (opVqpush h t close vd ga gb).Fine W F := by
  refine ⟨fun pre cur _ hc => Res.gives_bind_any fun _ _ => Res.gives_seq ?_, fun _ _ _ hc => State.beginsPush_fine _ _ _ hc⟩
  have ha := vqpush_act_fine pre cur h t close vd (pre.portNo ga - 16) (fld (pre.g gb).toNat 0 5) hc
  refine Res.gives_bind_any fun _ _ => Res.gives_bind_any fun _ _ => ?_
  exact Res.ite_gives (Res.gives_bind_any fun _ _ => ha) (Res.gives_bind_any fun _ _ => ha)

@[simp] theorem opMbatLd_fine (pg : PReg) (bat : Bool) (src : ASel) (t : Ty) (form : BatForm) : (opMbatLd pg bat src t form).Fine W F := by
  refine mxOp_fine fun pre cur _ hc => Res.gives_bind_any fun _ _ => Res.gives_bind_any fun _ _ => ?_
  refine Res.gives_bind (State.readSource_fine _ _ _ _ hc) fun x hx => Res.gives_bind_any fun _ _ => Res.gives_ok.mpr ?_
  exact State.modMe_fine hx (Core.enter_fine _ _ (Core.setBat_fine _ _ _ (hx _)))

@[simp] theorem opMbatSel_fine (pg : PReg) (bat : Bool) : (opMbatSel pg bat).Fine W F :=
  mxOp_fine fun _ _ _ hc => Res.gives_bind_any fun _ _ => Res.gives_ok.mpr (State.modMe_fine hc (hc _))

@[simp] theorem opMscale_fine (pg : PReg) (bat : Bool) (src : ASel) : (opMscale pg bat src).Fine W F := by
  refine mxOp_fine fun pre cur _ hc => Res.gives_bind_any fun _ _ => Res.gives_bind_any fun _ _ => ?_
  split
  · exact Res.gives_illop _
  · refine Res.gives_bind (State.readSource_fine _ _ _ _ hc) fun x hx => Res.gives_ok.mpr ?_
    exact State.modMe_fine hx (Core.enter_fine _ _ (Core.setBat_fine _ _ _ (hx _)))

theorem State.passFromIq_fine (pre cur : State) (n m : Nat) (ta : Ty) (h : cur.Fine W F) :
    Res.Gives (fun x => x.st.Fine W F) (pre.passFromIq cur n m ta) := by
  refine Res.gives_bind_any fun e _ => ?_
  split
  · exact Res.gives_illop _
  · exact Res.gives_bind (State.beginPop_fine _ _ h) fun s hs => Res.gives_ok.mpr (State.takeHead_fine _ _ hs)

theorem State.passFromMem_fine (pre cur : State) (src : ASel) (m : Nat) (h : cur.Fine W F) :
    Res.Gives (fun x => x.st.Fine W F) (pre.passFromMem cur src m) :=
  Res.gives_bind (State.readSource_fine _ _ _ _ h) fun _ hx => Res.gives_ok.mpr hx

@[simp] theorem opMma_fine (pg : PReg) (ac : BitVec 4) (bat : Bool) (src : ASel) (rows : BitVec 8) (ta tb : Ty) (set : Bool) :
    (opMma pg ac bat src rows ta tb set).Fine W F := by
  refine ⟨fun pre cur _ hc => Res.gives_seq ?_, fun _ _ _ hc => ASel.begins_fine _ _ _ hc⟩
  refine Res.gives_bind_any fun _ _ => Res.gives_bind_any fun _ _ => Res.gives_bind_any fun _ _ => Res.gives_bind_any fun _ _ => ?_
  refine Res.gives_bind_any fun _ _ => Res.gives_bind_any fun _ _ => Res.gives_bind (P := fun x : PassSource => x.st.Fine W F) ?_ fun x hx => ?_
  · split
    · exact State.passFromIq_fine _ _ _ _ _ hc
    · exact State.passFromMem_fine _ _ _ _ hc
  · refine Res.gives_bind_any fun _ _ => Res.gives_bind_any fun _ _ => Res.gives_ok.mpr (State.modMe_fine hx ?_)
    exact (core_fine_mk ..).mpr (Core.enter_fine x.st.me _ (hx _))

@[simp] theorem clearTile_fine (pg : PReg) (ac : BitVec 4) (mask : BitVec 16) : (clearTile pg ac mask).Fine W F :=
  mxOp_fine fun _ _ _ hc => Res.gives_bind_any fun _ _ => Res.gives_bind_any fun _ _ =>
    Res.gives_ok.mpr (State.modMe_fine hc (Core.clearRows_fine _ _ _ (hc _)))

@[simp] theorem opMacClr_fine (pg : PReg) (ac : BitVec 4) : (opMacClr pg ac).Fine W F := clearTile_fine ..
@[simp] theorem opMrows_fine (pg : PReg) (ac : BitVec 4) (mask : BitVec 16) : (opMrows pg ac mask).Fine W F := clearTile_fine ..
@[simp] theorem accReadOp_fine (pg : PReg) (ac : BitVec 4) (dst : DSel) (rows : BitVec 8) (t : Ty) (r : Rnd) (quant sc bad : Bool) :
    (accReadOp pg ac dst rows t r quant sc bad).Fine W F := by
  refine ⟨fun pre cur _ hc => Res.gives_seq ?_, fun _ _ _ hc => DSel.begins_fine _ _ _ hc⟩
  refine Res.gives_bind_any fun _ _ => Res.gives_bind_any fun _ _ => Res.gives_bind (State.readDst_fine _ _ _ _ _ _ hc) fun d hd => ?_
  exact Res.gives_ok.mpr (State.modMe_fine hd (Core.enter_fine _ _ (hd _)))

@[simp] theorem opMacRd_fine (pg : PReg) (ac : BitVec 4) (dst : DSel) (rows : BitVec 8) (t : Ty) (r : Rnd) : (opMacRd pg ac dst rows t r).Fine W F :=
  accReadOp_fine ..
@[simp] theorem opMacRdq_fine (pg : PReg) (ac : BitVec 4) (dst : DSel) (rows : BitVec 8) (q : Ty) (r : Rnd) (sc : Bool) :
    (opMacRdq pg ac dst rows q r sc).Fine W F :=
  accReadOp_fine ..
@[simp] theorem opMwait_fine (pg : PReg) (ac : BitVec 4) : (opMwait pg ac).Fine W F := mxOp_fine fun _ _ _ hc => by simp [hc]
@[simp] theorem opMstat_fine (pg : PReg) (ac : BitVec 4) (vd : BitVec 7) : (opMstat pg ac vd).Fine W F :=
  mxOp_fine fun _ _ _ hc => Res.gives_bind_any fun _ _ => Res.gives_bind_any fun _ _ => Res.gives_bind_any fun _ _ =>
    Res.gives_ok.mpr (State.modMe_fine hc (Core.putWide_fine _ _ _ (hc _)))

end
end Sys2Proof.Machine
end

section
/-! PROOFS. The engine, Kiln, configuration and scalar instructions as forms that keep the invariant. -/

open Sys2Proof Sys2Proof.Machine Sys2Proof.Claims
namespace Sys2Proof.Machine
section
variable {W F : Prop}

@[simp] theorem opDxCopy_fine (pg : PReg) (cf : BitVec 6) (ga gb gc : GReg) : (opDxCopy pg cf ga gb gc).Fine W F := by
  refine dxOp_fine fun pre cur hp hc => ?_
  refine Res.gives_bind_any fun _ _ => Res.gives_bind_any fun _ _ => Res.gives_bind_any fun _ _ => Res.gives_bind_any fun _ _ => ?_
  exact Res.gives_bind_any fun _ _ => Res.gives_ok.mpr (State.enter_fine _ _ _ _ _ hc)

@[simp] theorem opDxPat_fine (pg : PReg) (cf : BitVec 6) (ga gb gc : GReg) : (opDxPat pg cf ga gb gc).Fine W F := by
  refine dxOp_fine fun pre cur hp hc => Res.gives_bind_any fun _ _ => Res.gives_bind_any fun _ _ => ?_
  refine Res.ite_gives (Res.gives_ok.mpr (State.enter_fine _ _ _ _ _ hc)) ?_
  refine Res.gives_bind_any fun _ _ => Res.gives_bind_any fun _ _ => Res.gives_bind_any fun _ _ => ?_
  exact Res.gives_ok.mpr (State.enter_fine _ _ _ _ _ hc)

@[simp] theorem opDxGat_fine (pg : PReg) (cf : BitVec 6) (ga gb gc : GReg) (fsh : BitVec 5) (n : BitVec 9) :
    (opDxGat pg cf ga gb gc fsh n).Fine W F := by
  refine dxOp_fine fun pre cur hp hc => ?_
  exact Res.gives_bind_any fun _ _ => Res.gives_bind_any fun _ _ => Res.gives_bind_any fun _ _ => Res.gives_ok.mpr (State.enter_fine _ _ _ _ _ hc)

@[simp] theorem opDxSct_fine (pg : PReg) (cf : BitVec 6) (ga gb gc : GReg) (fsh : BitVec 5) (n : BitVec 9) :
    (opDxSct pg cf ga gb gc fsh n).Fine W F := by
  refine dxOp_fine fun pre cur hp hc => ?_
  exact Res.gives_bind_any fun _ _ => Res.gives_bind_any fun _ _ => Res.gives_bind_any fun _ _ => Res.gives_ok.mpr (State.enter_fine _ _ _ _ _ hc)

@[simp] theorem opDxStream_fine (pg : PReg) (cf : BitVec 6) (ga gb : GReg) (sp : BitVec 2) (bg8 : Bool) :
    (opDxStream pg cf ga gb sp bg8).Fine W F := by
  refine enOp_fine fun pre cur hp hc => ?_
  exact Res.gives_bind_any fun _ _ => Res.gives_bind_any fun _ _ => Res.gives_bind_any fun _ _ => Res.gives_bind_any fun _ _ => Res.ite_gives
    (Res.gives_ok.mpr (State.enter_fine _ _ _ _ _ hc)) (Res.gives_ok.mpr (State.modMe_fine hc (hc _)))

@[simp] theorem opDxDrain_fine (pg : PReg) : (opDxDrain pg).Fine W F := by
  refine dxOp_fine fun pre cur hp hc => ?_
  exact Res.gives_bind_any fun _ _ => Res.gives_ok.mpr (State.enter_fine _ _ _ _ _ (State.reserve_fine _ _ hc))

@[simp] theorem opCfAdd_fine (pg : PReg) (cf : BitVec 6) (imm : BitVec 32) : (opCfAdd pg cf imm).Fine W F := by
  refine dxOp_fine fun pre cur hp hc => ?_
  exact Res.gives_bind_any fun _ _ => Res.gives_bind_any fun _ _ => Res.gives_ok.mpr
    (State.ite_fine (State.enter_fine _ _ _ _ _ hc) (State.modMe_fine hc (Core.modFlag_fine _ _ _ (hc _))))

@[simp] theorem fenceOp_fine (pg : PReg) : (fenceOp pg).Fine W F := dxOp_fine fun _ _ _ hc => by simp [hc]
@[simp] theorem opFenceCore_fine (pg : PReg) : (opFenceCore pg).Fine W F := fenceOp_fine ..
@[simp] theorem opFencePkg_fine (pg : PReg) : (opFencePkg pg).Fine W F := fenceOp_fine ..
@[simp] theorem opFenceDom_fine (pg : PReg) : (opFenceDom pg).Fine W F := fenceOp_fine ..
@[simp] theorem opRst_fine (pg : PReg) (cf : BitVec 6) (ga gb gc : GReg) : (opRst pg cf ga gb gc).Fine W F := by
  refine dxOp_fine fun pre cur hp hc => ?_
  exact Res.gives_bind_any fun _ _ => Res.gives_bind_any fun _ _ => Res.gives_bind_any fun _ _ => Res.gives_bind_any fun _ _ => Res.gives_ok.mpr
    (State.enter_fine _ _ _ _ _ hc)

@[simp] theorem opRld_fine (pg : PReg) (cf : BitVec 6) (ga gb gc : GReg) : (opRld pg cf ga gb gc).Fine W F := by
  refine dxOp_fine fun pre cur hp hc => ?_
  exact Res.gives_bind_any fun _ _ => Res.gives_bind_any fun _ _ => Res.gives_bind_any fun _ _ => Res.gives_bind_any fun _ _ => Res.gives_ok.mpr
    (State.enter_fine _ _ _ _ _ hc)

@[simp] theorem opRldIq_fine (pg : PReg) (cf : BitVec 6) (ga gb gc : GReg) : (opRldIq pg cf ga gb gc).Fine W F := by
  refine dxOp_fine fun pre cur hp hc => ?_
  refine Res.gives_bind_any fun _ _ => Res.gives_bind_any fun _ _ => Res.gives_bind_any fun _ _ => Res.gives_bind_any fun _ _ => ?_
  exact Res.gives_bind_any fun _ _ => Res.gives_ok.mpr (State.enter_fine _ _ _ _ _ hc)

@[simp] theorem opRamo_fine (pg : PReg) (cf : BitVec 6) (ga gb gc : GReg) (op : RamoOp) (wide : Bool) : (opRamo pg cf ga gb gc op wide).Fine W F := by
  refine dxOp_fine fun pre cur hp hc => ?_
  refine Res.gives_bind_any fun _ _ => Res.gives_bind_any fun _ _ => Res.gives_bind_any fun _ _ => Res.gives_bind_any fun _ _ => ?_
  exact Res.gives_bind_any fun _ _ => Res.gives_ok.mpr (State.enter_fine _ _ _ _ _ hc)

@[simp] theorem remoteAdd_fine (kind : RemKind) (pg : PReg) (cf : BitVec 6) (ga gb : GReg) : (remoteAdd kind pg cf ga gb).Fine W F := by
  refine dxOp_fine fun pre cur hp hc => ?_
  exact Res.gives_bind_any fun _ _ => Res.gives_bind_any fun _ _ => Res.gives_ok.mpr (State.enter_fine _ _ _ _ _ hc)

@[simp] theorem opRcfAdd_fine (pg : PReg) (cf : BitVec 6) (ga gb : GReg) : (opRcfAdd pg cf ga gb).Fine W F := remoteAdd_fine ..
@[simp] theorem opFenceF_fine (pg : PReg) (cf : BitVec 6) (ga gb : GReg) : (opFenceF pg cf ga gb).Fine W F := remoteAdd_fine ..
@[simp] theorem opKilnAdmit_fine (pg : PReg) (ga : GReg) : (opKilnAdmit pg ga).Fine W F := by
  refine sysOp_fine fun pre cur hp hc => ?_
  exact Res.gives_bind_any fun _ _ => Res.gives_ok.mpr fun t ht => State.admitReq_fine _ _ _ ht

@[simp] theorem opKilnStep_fine (pg : PReg) (iq : BitVec 4) (inst : BitVec 3) : (opKilnStep pg iq inst).Fine W F := by
  refine enOp_fine fun pre cur _ hc => Res.gives_bind_any fun _ _ => ?_
  split
  · exact Res.gives_illop _
  · exact Res.gives_bind_any fun _ _ => Res.gives_ok.mpr ((state_fine_mk ..).mpr (State.reserve_fine _ _ hc))

@[simp] theorem opKilnRet_fine (pg : PReg) (cf : BitVec 6) (ga gb : GReg) (inst : BitVec 3) : (opKilnRet pg cf ga gb inst).Fine W F := by
  refine enOp_fine fun pre cur hp hc => ?_
  refine Res.gives_bind_any fun _ _ => Res.gives_bind_any fun _ _ => Res.gives_bind_any fun _ _ => Res.gives_bind_any fun _ _ => ?_
  have he : ∀ eng flag op, (cur.enter pre eng flag op).Fine W F := fun eng flag op => State.enter_fine cur pre eng flag op hc
  exact Res.ite_gives (Res.gives_ok.mpr ((state_fine_mk ..).mpr (he _ _ _))) (Res.gives_ok.mpr (he _ _ _))

@[simp] theorem opKilnRd_fine (pg : PReg) (ga gb : GReg) : (opKilnRd pg ga gb).Fine W F := by
  refine sysOp_fine fun pre cur hp hc => ?_
  exact Res.gives_bind_any fun _ _ => Res.gives_bind_any fun _ _ => Res.gives_ok.mpr fun t ht => by
    split
    · exact ht
    · exact State.store_fine _ _ _ ht

@[simp] theorem opKilnCancel_fine (pg : PReg) (ga : GReg) : (opKilnCancel pg ga).Fine W F := by
  refine sysOp_fine fun pre cur hp hc => ?_
  exact Res.gives_bind_any fun _ _ => Res.gives_ok.mpr fun t ht => State.cancel_fine _ _ _ ht

@[simp] theorem opKilnEvict_fine (pg : PReg) (ga : GReg) : (opKilnEvict pg ga).Fine W F := by
  refine sysOp_fine fun pre cur hp hc => ?_
  exact Res.gives_bind_any fun _ _ => Res.gives_ok.mpr fun t ht => State.evictCmd_fine _ _ _ ht

@[simp] theorem opKilnAbort_fine (pg : PReg) (ga : GReg) (fail all : Bool) : (opKilnAbort pg ga fail all).Fine W F := by
  refine sysOp_fine fun pre cur hp hc => ?_
  exact Res.gives_bind_any fun _ _ => Res.gives_ok.mpr fun t ht => State.abortCmd_fine _ _ _ _ _ _ ht

@[simp] theorem opCfgLoad_fine (pg : PReg) (ga gb gc : GReg) : (opCfgLoad pg ga gb gc).Fine W F := cfgOp_fine ..
@[simp] theorem opCfgCommit_fine (pg : PReg) (ga : GReg) (start : Bool) : (opCfgCommit pg ga start).Fine W F := cfgOp_fine ..
@[simp] theorem opCfgAbort_fine (pg : PReg) (ga : GReg) : (opCfgAbort pg ga).Fine W F := by
  refine enOp_fine fun pre cur _ hc => Res.gives_bind_any fun _ _ => Res.gives_bind_any fun _ _ => ?_
  have hr := State.reserve_fine cur 2 hc
  exact Res.ite_gives (Res.gives_ok.mpr (State.fill_fine _ _ _ hr)) (Res.gives_ok.mpr (State.submit_fine _ _ hr))

@[simp] theorem opCfgTok_fine (pg : PReg) (ga : GReg) : (opCfgTok pg ga).Fine W F := by
  refine enOp_fine fun pre cur _ hc => Res.gives_bind_any fun _ _ => Res.gives_bind_any fun _ _ => ?_
  have hr := State.reserve_fine cur 2 hc
  exact Res.ite_gives (Res.gives_ok.mpr (State.fill_fine _ _ _ hr)) (Res.gives_ok.mpr (State.submit_fine _ _ hr))

@[simp] theorem opSegSet_fine (pg : PReg) (n : BitVec 4) (ga gb : GReg) : (opSegSet pg n ga gb).Fine W F := by
  refine enOp_fine fun pre cur hp hc => ?_
  exact Res.gives_bind_any fun _ _ => Res.gives_bind_any fun _ _ => Res.gives_bind_any fun _ _ => Res.gives_bind_any fun _ _ => Res.gives_ok.mpr
    (State.modCore_fine (State.wake_fine _ _ hc) _ (State.wake_fine cur _ hc _))

@[simp] theorem opWinSet_fine (pg : PReg) (w : BitVec 8) (ga gb gc : GReg) : (opWinSet pg w ga gb gc).Fine W F := by
  refine enOp_fine fun pre cur hp hc => ?_
  exact Res.gives_bind_any fun _ _ => Res.gives_bind_any fun _ _ => Res.gives_bind_any fun _ _ => Res.gives_ok.mpr (State.setWin_fine _ _ _ hc)

@[simp] theorem opWinRevoke_fine (pg : PReg) (w : BitVec 8) : (opWinRevoke pg w).Fine W F := by
  refine enOp_fine fun pre cur _ hc => Res.gives_bind_any fun _ _ => ?_
  have hr := State.reserve_fine cur 2 hc
  have hf : ∀ v, Res.Gives (State.Fine W F) (.ok ((cur.reserve 2).1.fill (cur.reserve 2).2 v)) := fun v =>
    Res.gives_ok.mpr (State.fill_fine _ _ _ hr)
  exact Res.ite_gives (hf _) (Res.ite_gives (hf _) (Res.ite_gives (hf _) (Res.gives_ok.mpr (State.beginRevoke_fine _ _ _ hr))))

@[simp] theorem opCircBind_fine (pg : PReg) (ga : GReg) : (opCircBind pg ga).Fine W F := by
  refine sysOp_fine fun pre cur hp hc => ?_
  exact Res.gives_bind_any fun _ _ => Res.gives_ok.mpr fun t ht => by
    split
    · exact ht
    · exact State.installCirc_fine _ _ ht

@[simp] theorem opCircBindRel_fine (pg : PReg) (ga : GReg) : (opCircBindRel pg ga).Fine W F := by
  refine sysOp_fine fun pre cur hp hc => ?_
  exact Res.gives_bind_any fun _ _ => Res.gives_ok.mpr fun t ht => by
    simp only
    split
    · exact ht
    · split
      · exact ht
      · exact State.releaseCirc_fine _ _ ht

@[simp] theorem opEventPop_fine (pg : PReg) (ga : GReg) : (opEventPop pg ga).Fine W F := by
  refine sysOp_fine fun pre cur hp hc => ?_
  exact Res.gives_bind_any fun _ _ => Res.gives_ok.mpr fun t ht => State.popNotice_fine _ _ _ ht

@[simp] theorem opLogRd_fine (pg : PReg) (ga gb : GReg) : (opLogRd pg ga gb).Fine W F := by
  refine sysOp_fine fun pre cur hp hc => ?_
  exact Res.gives_bind_any fun _ _ => Res.gives_ok.mpr fun t ht => State.store_fine _ _ _ ht

@[simp] theorem opDbgCtlHalt_fine (pg : PReg) (ga : GReg) : (opDbgCtlHalt pg ga).Fine W F := dbgOp_fine dbgHalt_fine
@[simp] theorem opDbgCtlHaltq_fine (pg : PReg) (ga : GReg) : (opDbgCtlHaltq pg ga).Fine W F := dbgOp_fine dbgHaltq_fine
@[simp] theorem opDbgCtlRun_fine (pg : PReg) (ga : GReg) : (opDbgCtlRun pg ga).Fine W F := dbgOp_fine dbgRun_fine
@[simp] theorem opDbgCtlStep_fine (pg : PReg) (ga : GReg) : (opDbgCtlStep pg ga).Fine W F := dbgOp_fine dbgStep_fine
@[simp] theorem opDbgCtlResume_fine (pg : PReg) (ga : GReg) : (opDbgCtlResume pg ga).Fine W F := dbgOp_fine dbgResume_fine
@[simp] theorem opDbgCtlSkip_fine (pg : PReg) (ga : GReg) : (opDbgCtlSkip pg ga).Fine W F := dbgOp_fine dbgSkip_fine
@[simp] theorem opDbgCtlAbort_fine (pg : PReg) (ga : GReg) : (opDbgCtlAbort pg ga).Fine W F := dbgOp_fine dbgAbort_fine
@[simp] theorem opAdd_fine (sl : Slot) (d a b : GReg) : (opAdd sl d a b).Fine W F := op3_fine ..
@[simp] theorem opSub_fine (sl : Slot) (d a b : GReg) : (opSub sl d a b).Fine W F := op3_fine ..
@[simp] theorem opAnd_fine (sl : Slot) (d a b : GReg) : (opAnd sl d a b).Fine W F := op3_fine ..
@[simp] theorem opOr_fine (sl : Slot) (d a b : GReg) : (opOr sl d a b).Fine W F := op3_fine ..
@[simp] theorem opXor_fine (sl : Slot) (d a b : GReg) : (opXor sl d a b).Fine W F := op3_fine ..
@[simp] theorem opShl_fine (sl : Slot) (d a b : GReg) : (opShl sl d a b).Fine W F := op3_fine ..
@[simp] theorem opShr_fine (sl : Slot) (d a b : GReg) : (opShr sl d a b).Fine W F := op3_fine ..
@[simp] theorem opSar_fine (sl : Slot) (d a b : GReg) : (opSar sl d a b).Fine W F := op3_fine ..
@[simp] theorem opRotl_fine (sl : Slot) (d a b : GReg) : (opRotl sl d a b).Fine W F := op3_fine ..
@[simp] theorem opSlt_fine (sl : Slot) (d a b : GReg) : (opSlt sl d a b).Fine W F := op3_fine ..
@[simp] theorem opSltn_fine (sl : Slot) (d a b : GReg) : (opSltn sl d a b).Fine W F := op3_fine ..
@[simp] theorem opSeq_fine (sl : Slot) (d a b : GReg) : (opSeq sl d a b).Fine W F := op3_fine ..
@[simp] theorem opMin_fine (sl : Slot) (d a b : GReg) : (opMin sl d a b).Fine W F := op3_fine ..
@[simp] theorem opMax_fine (sl : Slot) (d a b : GReg) : (opMax sl d a b).Fine W F := op3_fine ..
@[simp] theorem opMinn_fine (sl : Slot) (d a b : GReg) : (opMinn sl d a b).Fine W F := op3_fine ..
@[simp] theorem opMaxn_fine (sl : Slot) (d a b : GReg) : (opMaxn sl d a b).Fine W F := op3_fine ..
@[simp] theorem opMul_fine (sl : Slot) (d a b : GReg) : (opMul sl d a b).Fine W F := op3_fine ..
@[simp] theorem opMulh_fine (sl : Slot) (d a b : GReg) : (opMulh sl d a b).Fine W F := op3_fine ..
@[simp] theorem opMulhn_fine (sl : Slot) (d a b : GReg) : (opMulhn sl d a b).Fine W F := op3_fine ..
@[simp] theorem opDiv_fine (sl : Slot) (d a b : GReg) : (opDiv sl d a b).Fine W F := op3_fine ..
@[simp] theorem opDivn_fine (sl : Slot) (d a b : GReg) : (opDivn sl d a b).Fine W F := op3_fine ..
@[simp] theorem opRem_fine (sl : Slot) (d a b : GReg) : (opRem sl d a b).Fine W F := op3_fine ..
@[simp] theorem opRemn_fine (sl : Slot) (d a b : GReg) : (opRemn sl d a b).Fine W F := op3_fine ..
@[simp] theorem opClz_fine (sl : Slot) (d a : GReg) : (opClz sl d a).Fine W F := op2_fine ..
@[simp] theorem opCtz_fine (sl : Slot) (d a : GReg) : (opCtz sl d a).Fine W F := op2_fine ..
@[simp] theorem opPopc_fine (sl : Slot) (d a : GReg) : (opPopc sl d a).Fine W F := op2_fine ..
@[simp] theorem opBswap_fine (sl : Slot) (d a : GReg) : (opBswap sl d a).Fine W F := op2_fine ..
@[simp] theorem opSxt_fine (sl : Slot) (d a : GReg) (w : ExtW) : (opSxt sl d a w).Fine W F := op2_fine ..
@[simp] theorem opZxt_fine (sl : Slot) (d a : GReg) (w : ExtW) : (opZxt sl d a w).Fine W F := op2_fine ..
@[simp] theorem opFshl_fine (sl : Slot) (d a b : GReg) : (opFshl sl d a b).Fine W F := plainOp_fine fun _ _ _ hc => State.setG_fine hc _ _
@[simp] theorem opFshr_fine (sl : Slot) (d a b : GReg) : (opFshr sl d a b).Fine W F := plainOp_fine fun _ _ _ hc => State.setG_fine hc _ _
@[simp] theorem opBext_fine (sl : Slot) (d a : GReg) (pos len1 : BitVec 6) : (opBext sl d a pos len1).Fine W F := op2_fine ..
@[simp] theorem opBins_fine (sl : Slot) (d a : GReg) (pos len1 : BitVec 6) : (opBins sl d a pos len1).Fine W F :=
  plainOp_fine fun _ _ _ hc => State.setG_fine hc _ _
@[simp] theorem opAddi_fine (sl : Slot) (d a : GReg) (imm : BitVec 16) : (opAddi sl d a imm).Fine W F := op2_fine ..
@[simp] theorem opAndi_fine (sl : Slot) (d a : GReg) (imm : BitVec 16) : (opAndi sl d a imm).Fine W F := op2_fine ..
@[simp] theorem opOri_fine (sl : Slot) (d a : GReg) (imm : BitVec 16) : (opOri sl d a imm).Fine W F := op2_fine ..
@[simp] theorem opXori_fine (sl : Slot) (d a : GReg) (imm : BitVec 16) : (opXori sl d a imm).Fine W F := op2_fine ..
@[simp] theorem opShli_fine (sl : Slot) (d a : GReg) (n : BitVec 6) : (opShli sl d a n).Fine W F := op2_fine ..
@[simp] theorem opShri_fine (sl : Slot) (d a : GReg) (n : BitVec 6) : (opShri sl d a n).Fine W F := op2_fine ..
@[simp] theorem opSari_fine (sl : Slot) (d a : GReg) (n : BitVec 6) : (opSari sl d a n).Fine W F := op2_fine ..
@[simp] theorem opRotli_fine (sl : Slot) (d a : GReg) (n : BitVec 6) : (opRotli sl d a n).Fine W F := op2_fine ..
@[simp] theorem opLih_fine (sl : Slot) (d a : GReg) (imm : BitVec 16) : (opLih sl d a imm).Fine W F := op2_fine ..
@[simp] theorem opLimm_fine (sl : Slot) (d : GReg) (imm : BitVec 53) : (opLimm sl d imm).Fine W F :=
  plainOp_fine fun _ _ _ hc => State.setG_fine hc _ _
@[simp] theorem opCmp_fine (sl : Slot) (cc : CmpCc) (pd : PReg) (a b : GReg) : (opCmp sl cc pd a b).Fine W F := opP_fine ..
@[simp] theorem opPand_fine (sl : Slot) (pd pa pb : PReg) : (opPand sl pd pa pb).Fine W F := opP_fine ..
@[simp] theorem opPor_fine (sl : Slot) (pd pa pb : PReg) : (opPor sl pd pa pb).Fine W F := opP_fine ..
@[simp] theorem opPxor_fine (sl : Slot) (pd pa pb : PReg) : (opPxor sl pd pa pb).Fine W F := opP_fine ..
@[simp] theorem opPnot_fine (sl : Slot) (pd pa : PReg) : (opPnot sl pd pa).Fine W F := opP_fine ..
@[simp] theorem opPget_fine (sl : Slot) (d : GReg) : (opPget sl d).Fine W F := plainOp_fine fun _ _ _ hc => State.setG_fine hc _ _
@[simp] theorem opSel_fine (sl : Slot) (d a b : GReg) (q : PReg) : (opSel sl d a b q).Fine W F := plainOp_fine fun _ _ _ hc => State.setG_fine hc _ _
@[simp] theorem opFadd_fine (sl : Slot) (d a b : GReg) (r : Rnd) : (opFadd sl d a b r).Fine W F := fop3_fine ..
@[simp] theorem opFsub_fine (sl : Slot) (d a b : GReg) (r : Rnd) : (opFsub sl d a b r).Fine W F := fop3_fine ..
@[simp] theorem opFmul_fine (sl : Slot) (d a b : GReg) (r : Rnd) : (opFmul sl d a b r).Fine W F := fop3_fine ..
@[simp] theorem opFdiv_fine (sl : Slot) (d a b : GReg) (r : Rnd) : (opFdiv sl d a b r).Fine W F := fop3_fine ..
@[simp] theorem opFsqrt_fine (sl : Slot) (d a : GReg) (r : Rnd) : (opFsqrt sl d a r).Fine W F := plainOp_fine fun _ _ _ hc => State.setG_fine hc _ _
@[simp] theorem opFmin_fine (sl : Slot) (d a b : GReg) : (opFmin sl d a b).Fine W F := fop3_fine ..
@[simp] theorem opFmax_fine (sl : Slot) (d a b : GReg) : (opFmax sl d a b).Fine W F := fop3_fine ..
@[simp] theorem opFclass_fine (sl : Slot) (d a : GReg) : (opFclass sl d a).Fine W F := op2_fine ..
@[simp] theorem opFfma_fine (sl : Slot) (d a b c : GReg) (r : Rnd) : (opFfma sl d a b c r).Fine W F :=
  plainOp_fine fun _ _ _ hc => State.setG_fine hc _ _
@[simp] theorem opFcmp_fine (sl : Slot) (cc : FcmpCc) (pd : PReg) (a b : GReg) : (opFcmp sl cc pd a b).Fine W F := opP_fine ..
@[simp] theorem opFcvt_fine (sl : Slot) (op : FcvtOp) (d a : GReg) (r : Rnd) : (opFcvt sl op d a r).Fine W F :=
  plainOp_fine fun _ _ _ hc => by simp [hc]
@[simp] theorem opLd_fine (sl : Slot) (w : LdW) (d a : GReg) (imm : BitVec 13) : (opLd sl w d a imm).Fine W F :=
  memOp_fine fun _ _ _ hc => Res.gives_bind (State.ldAt_fine _ _ _ hc) fun _ hr => Res.gives_ok.mpr (State.setG_fine hr _ _)

@[simp] theorem opSt_fine (sl : Slot) (w : StW) (d a : GReg) (imm : BitVec 13) : (opSt sl w d a imm).Fine W F :=
  memOp_fine fun _ _ _ hc => by simp [hc]
@[simp] theorem opLda_fine (sl : Slot) (k : BitVec 2) (d a : GReg) (imm : BitVec 13) : (opLda sl k d a imm).Fine W F := op2_fine ..
@[simp] theorem opAmo_fine (sl : Slot) (op : AmoOp) (wide : Bool) (d a b : GReg) : (opAmo sl op wide d a b).Fine W F :=
  SlotOp.fine_of_fx rfl fun _ _ _ hc => Res.gives_map
    (Res.gives_bind (State.amoAt_fine _ _ _ _ _ _ hc) fun _ hr => Res.gives_ok.mpr (State.setG_fine hr _ _))

end
end Sys2Proof.Machine
end

section
/-! PROOFS. Dispatch, issue and commit of a bundle, fetch and the events keep the invariant; so every step does (R13, R32, R343). -/

open Sys2Proof Sys2Proof.Machine Sys2Proof.Claims
namespace Sys2Proof.Machine
section
variable {W F : Prop}

/-! ## A bundle -/

theorem slotOp_fine (sl : Slot) (i : Instr) : Option.Gives (SlotOp.Fine W F) (slotOp sl i) := by
  cases i <;> simp [slotOp]

theorem Issue.add_fine {pre : State} {a : Issue} {o : SlotOp} (hp : pre.Fine W F) (ha : a.st.Fine W F) (ho : o.Fine W F) :
    (Issue.add pre a o).st.Fine W F := by
  unfold Issue.add
  split
  · exact ha
  split
  · exact ha
  · exact ho.2 pre a.st hp ha
  next x f hx =>
    split
    · exact ha
    · exact ho.1 pre a.st hp ha _ hx

theorem mem_of_effectOrder {o : SlotOp} {l : List SlotOp} (h : o ∈ effectOrder l) : o ∈ l := by
  simp only [effectOrder, List.mem_append, List.mem_filter] at h
  tauto

theorem State.issueTry_fine {s : State} {bad : List (Slot × TrapInfo)} {ops : List SlotOp} (h : s.Fine W F) (ho : ∀ o ∈ ops, o.Fine W F) :
    Option.Gives (State.Fine W F) (s.issueTry bad ops) := by
  have hr : ((effectOrder (ops.filter fun o => !o.forbidden s)).foldl (Issue.add s)
      { st := s, flow := .seq, waits := false, traps := [] }).st.Fine W F := by
    refine List.foldlRecOn _ _ (motive := fun a : Issue => a.st.Fine W F) h fun a ha o hm => ?_
    exact Issue.add_fine h ha (ho o (List.mem_filter.mp (mem_of_effectOrder hm)).1)
  have hb := State.reachBarrier_fine s ops h
  unfold State.issueTry
  refine Option.ite_gives Option.gives_none (Option.ite_gives (Option.ite_gives Option.gives_none (Option.gives_some.mpr hb)) ?_)
  split
  · exact Option.gives_some.mpr (State.afterBundle_fine _ _ (State.takeException_fine _ _ _ _ hb))
  · exact Option.gives_some.mpr (State.afterBundle_fine _ _ (State.retire_fine _ _ _ hr))

theorem State.runWord_fine {s : State} (h : s.Fine W F) (b : BitVec 256) : Option.Gives (State.Fine W F) (s.runWord b) := by
  unfold State.runWord
  split
  · exact Option.gives_some.mpr (State.afterBundle_fine _ _ (State.takeException_fine _ _ _ _ h))
  · refine State.issueTry_fine h fun o ho => ?_
    obtain ⟨x, -, hx⟩ := List.mem_filterMap.mp ho
    split at hx
    · exact slotOp_fine _ _ _ hx
    · cases hx

theorem Option.gives_or {α : Type} {P : α → Prop} {x y : Option α} (hx : Option.Gives P x) (hy : Option.Gives P y) :
    Option.Gives P (x <|> y) := Option.gives_orElse hx hy

theorem State.runFocus_fine {s : State} (h : s.Fine W F) : Option.Gives (State.Fine W F) s.runFocus := by
  refine Option.ite_gives Option.gives_none (Option.gives_or (firingWatchdog_fine _ _ h) ?_)
  split
  · exact Option.gives_some.mpr (State.takeIrq_fine _ _ _ h)
  · split
    · exact Option.gives_some.mpr (State.afterBundle_fine _ _ (State.takeException_fine _ _ _ _ h))
    · exact State.runWord_fine h _

/-! ## What moves by itself -/

theorem State.focusOn_fine {s : State} (h : s.Fine W F) (c i : Nat) : (s.focusOn c i).Fine W F := h

theorem State.coreEvent_fine {s : State} (h : s.Fine W F) (c : Nat) : Option.Gives (State.Fine W F) (s.coreEvent c) := by
  have hf : ∀ {f : Nat → Option State} (l : List Nat), (∀ i, Option.Gives (State.Fine W F) (f i)) →
      Option.Gives (State.Fine W F) (l.findSome? f) := fun l hi => Option.gives_findSome hi l
  unfold State.coreEvent
  refine Option.gives_or (hf _ fun _ => discardRemoval_fine _ _ _ h) (Option.gives_or (hf _ fun _ => abortCe_fine _ _ _ h) ?_)
  refine Option.gives_or (firingWatchdog_fine _ _ h) (Option.gives_or (haltedStageResumes_fine _ _ h) ?_)
  refine Option.gives_or (passThrough_fine _ _ h) (Option.gives_or (firingGrant_fine _ _ h) ?_)
  refine Option.gives_or (hf _ fun _ => batFill_fine _ _ _ h) (Option.gives_or (hf _ fun _ => mmaPass_fine _ _ _ h) ?_)
  refine Option.gives_or (hf _ fun _ => accRead_fine _ _ _ h) (Option.gives_or (hf _ fun _ => engineComplete_fine _ _ _ h) ?_)
  refine Option.gives_or (hf _ fun _ => drainSatisfied_fine _ _ _ h) (Option.gives_or (hf _ fun _ => replyTile_fine _ _ _ h) ?_)
  refine Option.gives_or (hf _ fun _ => entryArrives_fine _ _ _ _ h) (Option.gives_or (hf _ fun _ => freeSlotNotice_fine _ _ _ _ _ h) ?_)
  refine Option.gives_or (hf _ fun _ => tokenPass_fine _ _ _ h) (Option.gives_or (coreCommit_fine _ _ h) ?_)
  exact Option.ite_gives (idleWake_fine _ _ h) Option.gives_none

theorem State.kilnEvent_fine {s : State} (h : s.Fine W F) : Option.Gives (State.Fine W F) s.kilnEvent := by
  unfold State.kilnEvent
  split
  · exact Option.ite_gives (kilnForm_fine _ h) (kilnRet_fine _ h)
  · exact Option.gives_none

theorem State.ownEvent_fine {s : State} (h : s.Fine W F) : Option.Gives (State.Fine W F) s.ownEvent := by
  refine Option.gives_or (Option.gives_findSome (fun c => State.coreEvent_fine h c) _) (Option.gives_or (State.kilnEvent_fine h) ?_)
  refine Option.gives_or (Option.gives_findSome (fun _ => chargeDeliver_fine _ _ h) _) (Option.gives_or (abortSettle_fine _ h) ?_)
  refine Option.gives_or (Option.gives_findSome (fun _ => windowRevokeComplete_fine _ _ h) _) ?_
  refine Option.gives_or (Option.gives_findSome (fun _ => quarterWake_fine _ _ h) _) ?_
  refine Option.gives_or (Option.gives_findSome (fun _ => quarterIdle_fine _ _ h) _) ?_
  exact Option.gives_or (Option.gives_findSome (fun _ => throttling_fine _ _ _ h) _) (telemetryRewrite_fine _ h)

theorem State.passFocus_fine {s : State} (h : s.Fine W F) : s.passFocus.Fine W F := by
  unfold State.passFocus
  split
  · exact State.focusOn_fine h _ _
  · exact h

theorem State.runOther_fine {s : State} (h : s.Fine W F) : Option.Gives (State.Fine W F) s.runOther :=
  Option.gives_findSome (fun x : Nat × Nat => State.runFocus_fine (State.focusOn_fine h x.1 x.2)) _

theorem State.autoMove_fine {s : State} (h : s.Fine W F) : s.autoMove.Fine W F := by
  refine State.ite_fine (State.passFocus_fine (Option.getD_fine h (State.ownEvent_fine h))) (Option.getD_fine h ?_)
  refine Option.gives_or (State.runFocus_fine h) (Option.gives_or (State.ownEvent_fine h) ?_)
  exact Option.gives_or (State.runOther_fine h) (flitSlot_fine _ _ h)

/-! ## The events -/

/-- A step that gives a state gives one that is so. -/
def Outcome.Gives (P : State → Prop) (o : Host.Outcome State Fault Refusal) : Prop := ∀ t, o = .next t → P t

theorem happen_gives {s : State} {f : State → Option State} (h : s.Fine W F) (hf : Option.Gives (State.Fine W F) (f s)) :
    Outcome.Gives (State.Fine W F) (happen f s) := fun t ht => by
  obtain rfl := Host.Outcome.next.inj ht
  exact Option.getD_fine h hf

theorem exec_event_fine {s : State} (hs : s.Fine W F) (i : Instr) (hi : isEvent i = true) :
    Outcome.Gives (State.Fine W F) (Machine.exec i s) := by
  cases i
  case idleWake h => exact happen_gives hs (idleWake_fine _ s hs)
  case batFillComplete c n => exact happen_gives hs (batFill_fine _ _ s hs)
  case mmaPassComplete c n => exact happen_gives hs (mmaPass_fine _ _ s hs)
  case accReadComplete c n => exact happen_gives hs (accRead_fine _ _ s hs)
  case dxDrainSatisfied c n => exact happen_gives hs (drainSatisfied_fine _ _ s hs)
  case rldReplyTile c n => exact happen_gives hs (replyTile_fine _ _ s hs)
  case engineCommandComplete c n => exact happen_gives hs (engineComplete_fine _ _ s hs)
  case kilnFormCharge => exact happen_gives hs (kilnForm_fine s hs)
  case chargeDelivery inst => exact happen_gives hs (chargeDeliver_fine _ s hs)
  case kilnReturn => exact happen_gives hs (kilnRet_fine s hs)
  case chargeAbortSettle => exact happen_gives hs (abortSettle_fine s hs)
  case tokenPass c r => exact happen_gives hs (tokenPass_fine _ _ s hs)
  case coreCommit c => exact happen_gives hs (coreCommit_fine _ s hs)
  case windowRevokeComplete w => exact happen_gives hs (windowRevokeComplete_fine _ s hs)
  case haltedStageResumes c => exact happen_gives hs (haltedStageResumes_fine _ s hs)
  case entryArrives c iq ext => exact happen_gives hs (entryArrives_fine _ _ _ s hs)
  case freeSlotNotice c oq n ext => exact happen_gives hs (freeSlotNotice_fine _ _ _ _ s hs)
  case firingGrant c => exact happen_gives hs (firingGrant_fine _ s hs)
  case passThrough c => exact happen_gives hs (passThrough_fine _ s hs)
  case firingWatchdog c => exact happen_gives hs (firingWatchdog_fine _ s hs)
  case discardRemoval c r => exact happen_gives hs (discardRemoval_fine _ _ s hs)
  case abortCe c r => exact happen_gives hs (abortCe_fine _ _ s hs)
  case interrupt h => exact happen_gives hs (interrupt_fine _ s hs)
  case cyclesCompare => exact happen_gives hs (cyclesCompare_fine s hs)
  case configSpaceWrite h pa v => exact happen_gives hs (configSpaceWrite_fine _ _ _ s hs)
  case cfgStatusRead h c d => exact happen_gives hs (cfgStatusRead_fine _ _ _ s hs)
  case scrub word => exact happen_gives hs (scrub_fine _ s hs)
  case write circ p => exact happen_gives hs (write_fine _ _ s hs)
  case read circ p => exact happen_gives hs (read_fine _ _ s hs)
  case atomic circ p => exact happen_gives hs (atomic_fine _ _ s hs)
  case flag circ p => exact happen_gives hs (flag_fine _ _ s hs)
  case fence circ p => exact happen_gives hs (fence_fine _ _ s hs)
  case kret circ p => exact happen_gives hs (kret_fine _ _ s hs)
  case probe circ p => exact happen_gives hs (probe_fine _ _ s hs)
  case resp circ p => exact happen_gives hs (resp_fine _ _ s hs)
  case data circ p => exact happen_gives hs (data_fine _ _ s hs)
  case probeAns circ p => exact happen_gives hs (probeAns_fine _ _ s hs)
  case ack link lseq => exact happen_gives hs (ack_fine _ _ s hs)
  case nak link lseq => exact happen_gives hs (nak_fine _ _ s hs)
  case retrain link => exact happen_gives hs (retrain_fine _ s hs)
  case retrainSuccess link => exact happen_gives hs (retrainSuccess_fine _ s hs)
  case retrainTimeout link => exact happen_gives hs (retrainTimeout_fine _ s hs)
  case identityRecord link r => exact happen_gives hs (identityRecord_fine _ _ s hs)
  case relayForward circ f => exact happen_gives hs (relayForward_fine _ _ s hs)
  case img src m => exact happen_gives hs (img_fine _ _ s hs)
  case imgack link m => exact happen_gives hs (imgack_fine _ _ s hs)
  case imgnak link m => exact happen_gives hs (imgnak_fine _ _ s hs)
  case keyx link m => exact happen_gives hs (keyx_fine _ _ s hs)
  case fail link m => exact happen_gives hs (fail_fine _ _ s hs)
  case close link m => exact happen_gives hs (close_fine _ _ s hs)
  case abort link m => exact happen_gives hs (abort_fine _ _ s hs)
  case pkgdown link m => exact happen_gives hs (pkgdown_fine _ _ s hs)
  case forcedReset scope => exact happen_gives hs (forcedReset_fine _ s hs)
  case packageReset cause => exact happen_gives hs (packageReset_fine _ s hs)
  case managementFrame bytes => exact happen_gives hs (managementFrame_fine _ s hs)
  case status => exact happen_gives hs (status_fine s hs)
  case temp => exact happen_gives hs (temp_fine s hs)
  case power => exact happen_gives hs (power_fine s hs)
  case pcap x => exact happen_gives hs (pcap_fine _ s hs)
  case idleen q => exact happen_gives hs (idleen_fine _ s hs)
  case i3cReset => exact happen_gives hs (i3cReset_fine s)
  case off => exact happen_gives hs (off_fine s)
  case quarterIdle q => exact happen_gives hs (quarterIdle_fine _ s hs)
  case quarterWake q => exact happen_gives hs (quarterWake_fine _ s hs)
  case thermalTrip q t => exact happen_gives hs (thermalTrip_fine _ _ s hs)
  case telemetryRewrite => exact happen_gives hs (telemetryRewrite_fine s hs)
  case flitSlot link => exact happen_gives hs (flitSlot_fine _ s hs)
  case crcFailure x => exact happen_gives hs (crcFailure_fine _ s hs)
  case throttling q on => exact happen_gives hs (throttling_fine _ _ s hs)
  all_goals exact absurd hi Bool.false_ne_true

/-! ## The step -/

theorem Core.watched_fine {k : Core} (h : k.Fine W F) (clk : Nat) : (k.watched clk).Fine W F := by
  unfold Core.watched
  split
  · exact h
  · exact Core.ite_fine h (Core.modStage_fine h _ fun e => e)

theorem State.tick_fine {s : State} (h : s.Fine W F) : s.tick.Fine W F := by
  obtain ⟨p, e⟩ := s.tick_eq
  rw [e, state_fine_mk]
  exact FineCores.map (f := fun c k => (k.watched s.clk).lapse (s.ready c)) h fun c k hk => Core.lapse_fine _ _ (Core.watched_fine hk _)

theorem step_fine {s t : State} (h : s.Fine W F) (hst : Machine.step s = .next t) : t.Fine W F := by
  obtain ⟨u, rfl, hu⟩ := step_eq_next hst
  refine State.tick_fine ?_
  rcases hu with ⟨i, rest, -, hi, he⟩ | ⟨i, rest, -, -, rfl⟩ | ⟨c, i, rest, -, rfl⟩ | ⟨-, rfl⟩
  · exact exec_event_fine (s := { s with agenda := rest }) h i hi u he
  · exact h
  · have h1 : State.Fine W F { s with agenda := rest, focus := c, stream := i } := h
    exact Option.getD_fine h1 (State.runFocus_fine h1)
  · exact State.autoMove_fine h

end

/-- Settles O14: the invariant of `State.Fine`, with the two halves of the claim as what is assumed. -/
theorem coresKept : Obligations.CoresKept := by
  unfold Obligations.CoresKept
  refine ⟨(State.fine_iff True True _).mp State.reset_fine |>.imp (· trivial) (· trivial), fun s t hst => ?_⟩
  have h : s.Fine (Hardwired s) (OneFiring s) := (State.fine_iff _ _ _).mpr ⟨id, id⟩
  exact (State.fine_iff _ _ _).mp (step_fine h hst)

end Sys2Proof.Machine
end

section
/-! PROOFS. Entries and free-slot notices that arrive at ports (R236, R338, R405). -/

open Sys2Proof Sys2Proof.Machine Sys2Proof.Claims
namespace Sys2Proof.Machine

theorem happen_some {f : State → Option State} {s t : State} (h : f s = some t) : happen f s = .next t := by rw [happen, h, Option.getD_some]
theorem happen_none {f : State → Option State} {s : State} (h : f s = none) : happen f s = .next s := by rw [happen, h, Option.getD_none]

/-! ## Entries -/

theorem slotAt_iff (s : State) (c n : Nat) : slotAt s c n ↔ (s.iq c n).hasSlot = true := by
  unfold slotAt IqPort.hasSlot
  cases (s.iq c n).bind <;> simp

/-- Of the cores and memory, at most inbound port n of core c differs. -/
def PortOnly (s t : State) (c n : Nat) : Prop :=
  (∀ m, m ≠ n → t.iq c m = s.iq c m) ∧ { (t.core c) with iq := (s.core c).iq } = s.core c ∧ (∀ d, d ≠ c → t.core d = s.core d) ∧ t.mem = s.mem

theorem PortOnly.present {s t : State} {c n : Nat} {e : Entry} (h : PortOnly s t c n) (hq : (t.iq c n).q = (s.iq c n).q ++ [e]) :
    present s t c n e := ⟨hq, h.1, h.2.1, h.2.2.1, fun a => by rw [State.byte, State.byte, h.2.2.2]⟩

theorem PortOnly.of_core {s t : State} {c n : Nat} (hc : ∀ d, t.core d = s.core d) (hm : t.mem = s.mem) : PortOnly s t c n :=
  ⟨fun m _ => by rw [State.iq, State.iq, hc], by rw [hc], fun d _ => hc d, hm⟩

theorem PortOnly.trans {s t u : State} {c n : Nat} (h : PortOnly s t c n) (h' : PortOnly t u c n) : PortOnly s u c n := by
  obtain ⟨hi, hk, hd, hm⟩ := h
  obtain ⟨hi', hk', hd', hm'⟩ := h'
  refine ⟨fun m h => (hi' m h).trans (hi m h), ?_, fun d h => (hd' d h).trans (hd d h), hm'.trans hm⟩
  rw [← hk'] at hk
  exact hk

theorem PortOnly.modIq (s : State) (c n : Nat) (f : IqPort → IqPort) : PortOnly s (s.modIq c n f) c n :=
  ⟨fun m h => by rw [State.iq_modIq, if_neg (by simp [h])], by rw [State.modIq, State.core_modCore, if_pos rfl],
    fun d h => by rw [State.modIq, State.core_modCore, if_neg h], rfl⟩

theorem State.iq_of_core {s t : State} (hc : ∀ d, t.core d = s.core d) (c n : Nat) : t.iq c n = s.iq c n := by rw [State.iq, State.iq, hc]

/-- At a port with no token in front and none due an entry is delivered behind what is present. -/
theorem State.deliver_open {s : State} {c n : Nat} (e : Entry) (hb : (s.iq c n).behind = false) (ht : (s.iq c n).tokenDue = false) :
    s.deliver c n e = (s.wakeAll (routeQuarters (s.iq c n).bind c)).modIq c n fun x =>
      { x with q := x.q ++ [e], openCh := s.opens (s.iq c n).bind (s.iq c n).openCh e, behind := e.kind == .token } := by
  unfold State.deliver
  simp only [hb, Bool.false_eq_true, if_false]
  refine State.tryToken_idle ?_
  rw [State.iq_modIq, if_pos ⟨rfl, rfl⟩]
  exact ht

theorem State.deliver_portOnly {s : State} {c n : Nat} (e : Entry) (hb : (s.iq c n).behind = false) (ht : (s.iq c n).tokenDue = false) :
    PortOnly s (s.deliver c n e) c n := by
  rw [State.deliver_open e hb ht]
  exact (PortOnly.of_core (fun _ => rfl) rfl).trans (PortOnly.modIq _ _ _ _)

theorem State.deliver_q {s : State} {c n : Nat} (e : Entry) (hb : (s.iq c n).behind = false) (ht : (s.iq c n).tokenDue = false) :
    ((s.deliver c n e).iq c n).q = (s.iq c n).q ++ [e] ∧ ((s.deliver c n e).iq c n).coming = (s.iq c n).coming := by
  rw [State.deliver_open e hb ht, State.iq_modIq, if_pos ⟨rfl, rfl⟩]
  exact ⟨rfl, rfl⟩

/-- What waits before a port with a slot comes in. -/
theorem entryArrives_waiting {s : State} {c n : Nat} {e : Entry} {rest : List Entry} (ht : (s.iq c n).tokenDue = false)
    (hb : (s.iq c n).behind = false) (hc : (s.iq c n).coming = e :: rest) (hs : slotAt s c n) :
    ∃ t : State, Machine.exec (.entryArrives c n none) s = .next t ∧ present s t c n e ∧ (t.iq c n).coming = rest := by
  let u := s.modIq c n fun x => { x with coming := rest }
  have hu : u.iq c n = { (s.iq c n) with coming := rest } := by rw [State.iq_modIq, if_pos ⟨rfl, rfl⟩]
  have hub : (u.iq c n).behind = false := by rw [hu]; exact hb
  have hut : (u.iq c n).tokenDue = false := by rw [hu]; exact ht
  obtain ⟨hq, hcom⟩ := State.deliver_q e hub hut
  refine ⟨u.deliver c n e, happen_some ?_, PortOnly.present ((PortOnly.modIq s c n _).trans (State.deliver_portOnly e hub hut)) ?_, ?_⟩
  · simp only [entryArrives, hc, if_pos ((slotAt_iff s c n).mp hs)]
    rfl
  · rw [hq, hu]
  · rw [hcom, hu]

theorem entryArrives_full {s : State} {c n : Nat} (hs : ¬ slotAt s c n) : Machine.exec (.entryArrives c n none) s = .next s := by
  refine happen_none ?_
  have h : (s.iq c n).hasSlot = false := by simpa using mt (slotAt_iff s c n).mpr hs
  simp only [entryArrives, h, Bool.false_eq_true, if_false]
  split
  · rfl
  · rfl

/-- Behind a token the entry is held. -/
theorem entryArrives_held {s : State} {c n : Nat} {e : Entry} {rest : List Entry} (hb : (s.iq c n).behind = true)
    (hc : (s.iq c n).coming = e :: rest) (hs : slotAt s c n) :
    ∃ t : State, Machine.exec (.entryArrives c n none) s = .next t ∧ (t.iq c n).q = (s.iq c n).q ∧
      (t.iq c n).held = (s.iq c n).held ++ [e] ∧ (t.iq c n).coming = rest ∧ ∀ d, d ≠ c → t.core d = s.core d := by
  let u := s.modIq c n fun x => { x with coming := rest }
  have hu : u.iq c n = { (s.iq c n) with coming := rest } := by rw [State.iq_modIq, if_pos ⟨rfl, rfl⟩]
  have hd : u.deliver c n e = (u.wakeAll (routeQuarters (u.iq c n).bind c)).modIq c n fun x => { x with held := x.held ++ [e] } := by
    unfold State.deliver
    simp only [hu, hb, if_true]
  have ht : (u.deliver c n e).iq c n = { (s.iq c n) with coming := rest, held := (s.iq c n).held ++ [e] } := by
    rw [hd, State.iq_modIq, if_pos ⟨rfl, rfl⟩]
    exact congrArg (fun p : IqPort => { p with held := p.held ++ [e] }) hu
  refine ⟨u.deliver c n e, happen_some ?_, by rw [ht], by rw [ht], by rw [ht], fun d h => ?_⟩
  · simp only [entryArrives, hc, if_pos ((slotAt_iff s c n).mp hs)]
    rfl
  · rw [hd]
    exact ((PortOnly.modIq _ c n _).2.2.1 d h).trans ((PortOnly.modIq s c n _).2.2.1 d h)

/-! ## What a circuit brings -/

theorem State.took_frame (s : State) (l n : Nat) : (s.took l n).cores = s.cores ∧ (s.took l n).mem = s.mem := by
  unfold State.took
  split
  · exact ⟨rfl, rfl⟩
  · exact ⟨rfl, rfl⟩

theorem State.tookOn_frame (s : State) (id n : Nat) : (s.tookOn id n).cores = s.cores ∧ (s.tookOn id n).mem = s.mem := by
  unfold State.tookOn
  split
  · exact ⟨rfl, rfl⟩
  · refine ⟨(State.took_frame _ _ _).1.trans ?_, (State.took_frame _ _ _).2.trans ?_⟩
    · rfl
    · rfl

theorem State.accepted_frame (s : State) (id : Nat) (run : List (Nat × Option RelayFlit)) :
    (s.accepted id run).cores = s.cores ∧ (s.accepted id run).mem = s.mem := by
  refine List.foldlRecOn (s.bond id) _ (motive := fun t : State => t.cores = s.cores ∧ t.mem = s.mem) ⟨rfl, rfl⟩ fun t ht m _ => ?_
  exact ⟨(State.tookOn_frame _ _ _).1.trans ht.1, (State.tookOn_frame _ _ _).2.trans ht.2⟩

theorem State.accepted_core (s : State) (id : Nat) (run : List (Nat × Option RelayFlit)) (d : Nat) : (s.accepted id run).core d = s.core d := by
  rw [State.core, State.core, (s.accepted_frame id run).1]
@[simp] theorem State.accepted_iq (s : State) (id : Nat) (run : List (Nat × Option RelayFlit)) (c n : Nat) :
    (s.accepted id run).iq c n = s.iq c n := State.iq_of_core (s.accepted_core id run) c n

theorem entryFlits_length (e : Entry) : (entryFlits e).length = e.beats.length := by simp [entryFlits]

/-- The flits of an entry have come at an end that takes them. -/
theorem entryArrives_circ {s : State} {c n id : Nat} {e : Entry} {bad : Option Nat} (hb : (s.iq c n).bind = .circ id) :
    entryArrives c n (some (e, bad)) s = s.arrival id 1 (entryFlits e) bad fun t =>
      some (if entryWhole e then (t.tryToken c n).takeEntry c n e else t) := by
  simp only [entryArrives, hb]

theorem State.arrival_sound {s : State} {id ty : Nat} {want : List (Beat × Nat)} {bad : Option Nat} {f : State → Option State}
    {run : List (Nat × Option RelayFlit)} (hr : run = s.nextFlits id ty want.length) (hl : s.live id run = true)
    (hf : s.runFits id run want = true) (ha : s.authFails id bad = false) : s.arrival id ty want bad f = f (s.accepted id run) := by
  simp [State.arrival, ← hr, hl, hf, ha]

/-- Where the tag of a flit fails, the flits up to it are accepted and the circuit fails (R388). -/
theorem State.arrival_bad {s : State} {id ty : Nat} {want : List (Beat × Nat)} {bad : Option Nat} {f : State → Option State}
    {run : List (Nat × Option RelayFlit)} (hr : run = s.nextFlits id ty want.length) (hl : s.live id run = true)
    (hf : s.runFits id run want = true) (ha : s.authFails id bad = true)
    (hu : ∀ r, (run.take (bad.getD 0 + 1)).getLast? = some r → r.2 = none) :
    s.arrival id ty want bad f = some ((s.accepted id (run.take (bad.getD 0 + 1))).failCirc id 1) := by
  have h : ((run.take (bad.getD 0 + 1)).getLast?.any fun r => r.2.isSome) = false := by
    cases hg : (run.take (bad.getD 0 + 1)).getLast? with
    | none => rfl
    | some r => simp [hu r hg]
  simp [State.arrival, ← hr, hl, hf, ha, h]

section
variable {s : State} {c n id : Nat} {e : Entry} {bad : Option Nat} {run : List (Nat × Option RelayFlit)}
variable (ht : (s.iq c n).tokenDue = false) (hb : (s.iq c n).behind = false) (hc : (s.iq c n).bind = .circ id)
  (hr : run = s.nextFlits id 1 e.beats.length) (hl : s.live id run = true) (hf : s.runFits id run (entryFlits e) = true)
  (ha : s.authFails id bad = false)

include hc hr hl hf ha in
/-- Once its flits are accepted, a whole entry is taken, and one that is not becomes nothing. -/
theorem entryArrives_sound : Machine.exec (.entryArrives c n (some (e, bad))) s =
    .next (if entryWhole e then ((s.accepted id run).tryToken c n).takeEntry c n e else s.accepted id run) := by
  refine happen_some ?_
  rw [entryArrives_circ hc, State.arrival_sound (by rw [entryFlits_length]; exact hr) hl hf ha]

include ht in
theorem State.accepted_takes : ((s.accepted id run).tryToken c n).takeEntry c n e =
    if (s.iq c n).coming = [] ∧ (s.iq c n).hasSlot = true then (s.accepted id run).deliver c n e
    else (s.accepted id run).modIq c n fun x => { x with coming := x.coming ++ [e] } := by
  rw [State.tryToken_idle (by rw [State.accepted_iq]; exact ht)]
  simp only [State.takeEntry, State.accepted_iq, Bool.and_eq_true, List.isEmpty_iff]

include ht hb hc hr hl hf ha in
theorem entryArrives_present (hw : entryWhole e = true) (hco : (s.iq c n).coming = []) (hs : slotAt s c n) :
    ∃ t : State, Machine.exec (.entryArrives c n (some (e, bad))) s = .next t ∧ present s t c n e := by
  refine ⟨_, entryArrives_sound hc hr hl hf ha, ?_⟩
  have hi : (s.accepted id run).iq c n = s.iq c n := s.accepted_iq id run c n
  rw [if_pos hw, State.accepted_takes ht, if_pos ⟨hco, (slotAt_iff s c n).mp hs⟩]
  refine PortOnly.present ((PortOnly.of_core (s.accepted_core id run) (s.accepted_frame id run).2).trans
    (State.deliver_portOnly e (by rw [hi, hb]) (by rw [hi, ht]))) ?_
  rw [(State.deliver_q e (by rw [hi, hb]) (by rw [hi, ht])).1, hi]

include ht hc hr hl hf ha in
theorem entryArrives_waits (hw : entryWhole e = true) (hs : (s.iq c n).coming ≠ [] ∨ ¬ slotAt s c n) :
    Machine.exec (.entryArrives c n (some (e, bad))) s =
      .next ((s.accepted id run).modIq c n fun x => { x with coming := x.coming ++ [e] }) := by
  rw [entryArrives_sound hc hr hl hf ha, if_pos hw, State.accepted_takes ht, if_neg (by rw [← slotAt_iff]; tauto)]
end

/-! ## Free-slot notices -/

theorem State.oq_wakeAll (s : State) (l : List Nat) (c n : Nat) : (s.wakeAll l).oq c n = s.oq c n := rfl

/-- k notices have arrived at oq n of core c. -/
def State.noticed (s : State) (c n k : Nat) : State :=
  (s.wakeAll (noticeQuarters (s.oq c n).bind c)).modOq c n fun x => { x with notices := x.notices - k, credits := x.credits + k }

section
variable {s : State} {c n k : Nat} (h1 : 1 ≤ k) (h16 : k ≤ 16)

include h1 h16 in
/-- On a route a token that is due at its far end may follow. -/
theorem freeSlotNotice_route {d m : Nat} (hk : k ≤ (s.oq c n).notices) (hb : (s.oq c n).bind = .route d m) :
    freeSlotNotice c n k none s = some ((s.noticed c n k).tryToken d m) := by
  simp only [freeSlotNotice, h1, h16, hk, decide_true, Bool.and_self, Bool.not_true, Bool.false_eq_true, if_false, if_true, State.noticed, hb]

include h1 h16 in
theorem freeSlotNotice_noRoute (hk : k ≤ (s.oq c n).notices) (hb : ∀ d m, (s.oq c n).bind ≠ .route d m) :
    freeSlotNotice c n k none s = some (s.noticed c n k) := by
  simp only [freeSlotNotice, h1, h16, hk, decide_true, Bool.and_self, Bool.not_true, Bool.false_eq_true, if_false, if_true, State.noticed]

/-- The update of the oq reaches the oq alone. -/
theorem State.modOq_frame (s : State) (c n : Nat) (f : OqPort → OqPort) :
    (s.modOq c n f).oq c n = f (s.oq c n) ∧ (∀ m, m ≠ n → (s.modOq c n f).oq c m = s.oq c m) ∧ ∀ d, d ≠ c → (s.modOq c n f).core d = s.core d :=
  ⟨by rw [State.oq_modOq, if_pos ⟨rfl, rfl⟩], fun m h => by rw [State.oq_modOq, if_neg (by simp [h])],
    fun d h => by rw [State.modOq, State.core_modCore, if_neg h]⟩

include h1 h16 in
theorem freeSlotNotice_credits (hk : k ≤ (s.oq c n).notices) (ht : ∀ d m, (s.oq c n).bind = .route d m → (s.iq d m).tokenDue = false) :
    ∃ t : State, Machine.exec (.freeSlotNotice c n k none) s = .next t ∧
      t.oq c n = { (s.oq c n) with notices := (s.oq c n).notices - k, credits := (s.oq c n).credits + k } ∧
      (∀ m, m ≠ n → t.oq c m = s.oq c m) ∧ ∀ d, d ≠ c → t.core d = s.core d := by
  refine ⟨s.noticed c n k, happen_some ?_, (s.wakeAll (noticeQuarters (s.oq c n).bind c)).modOq_frame c n
    fun x => { x with notices := x.notices - k, credits := x.credits + k }⟩
  by_cases hb : ∃ d m, (s.oq c n).bind = .route d m
  · obtain ⟨d, m, hb⟩ := hb
    rw [freeSlotNotice_route h1 h16 hk hb, State.tryToken_idle]
    rw [State.noticed, State.iq_modOq]
    exact ht d m hb
  · exact freeSlotNotice_noRoute h1 h16 hk fun d m e => hb ⟨d, m, e⟩

/-- The credit of a notice goes to a token that is due at the far end of the route. -/
theorem State.tryToken_route {s : State} {c n d m : Nat} (hb : (s.iq d m).bind = .route c n) (hd : (s.iq d m).tokenDue = true)
    (ho : s.openTail (s.iq d m) = false) (hq : (s.oq c n).outq = []) (hc : 0 < (s.oq c n).credits) :
    s.tryToken d m = ((s.takeCredit c n).wake d).modIq d m IqPort.addToken := by
  have hi : (s.takeCredit c n).iq d m = s.iq d m := by rw [State.takeCredit, State.iq_modOq]
  have hoq : ((s.takeCredit c n).oq c n).outq = [] := by rw [State.takeCredit, State.oq_modOq, if_pos ⟨rfl, rfl⟩]; exact hq
  simp [State.tryToken, State.placeToken, State.tokenCredit, State.takeTokenCredit, State.putToken, hb, hd, ho, hc, hi, hoq]

theorem IqPort.addToken_cases (p : IqPort) : p.addToken.tokenDue = false ∧
    if p.coming = [] then p.addToken.q = p.q ++ [tokenEntry] ∧ p.addToken.behind = true
    else p.addToken.coming = p.coming ++ [tokenEntry] ∧ p.addToken.q = p.q := by
  by_cases h : p.coming = []
  · simp [IqPort.addToken, h]
  · simp [IqPort.addToken, h]

include h1 h16 in
theorem freeSlotNotice_token {d m : Nat} (hk : k ≤ (s.oq c n).notices) (hb : (s.oq c n).bind = .route d m)
    (hi : (s.iq d m).bind = .route c n) (ht : (s.iq d m).tokenDue = true) (ho : s.openTail (s.iq d m) = false)
    (hq : (s.oq c n).outq = []) :
    ∃ t : State, Machine.exec (.freeSlotNotice c n k none) s = .next t ∧
      (t.oq c n).notices = (s.oq c n).notices - k ∧ (t.oq c n).credits = (s.oq c n).credits + k - 1 ∧
      (t.iq d m).tokenDue = false ∧
      if (s.iq d m).coming = [] then (t.iq d m).q = (s.iq d m).q ++ [tokenEntry] ∧ (t.iq d m).behind = true
      else (t.iq d m).coming = (s.iq d m).coming ++ [tokenEntry] ∧ (t.iq d m).q = (s.iq d m).q := by
  let s1 := s.noticed c n k
  have hs : s1.oq c n = { (s.oq c n) with notices := (s.oq c n).notices - k, credits := (s.oq c n).credits + k } :=
    (State.modOq_frame _ c n _).1
  have hi1 : s1.iq d m = s.iq d m := State.iq_modOq ..
  have ho1 : s1.openTail (s1.iq d m) = false := by
    rw [hi1, ← ho]
    simp only [State.openTail, hi, State.outqOf, hs]
    rfl
  have htry := State.tryToken_route (s := s1) (c := c) (n := n) (d := d) (m := m) (by rw [hi1, hi]) (by rw [hi1, ht]) ho1 (by rw [hs, hq])
    (by rw [hs]; exact Nat.lt_of_lt_of_le h1 (Nat.le_add_left _ _))
  have hoq : (((s1.takeCredit c n).wake d).modIq d m IqPort.addToken).oq c n = { (s1.oq c n) with credits := (s1.oq c n).credits - 1 } := by
    rw [State.oq_modIq, State.wake_oq, State.takeCredit, State.oq_modOq, if_pos ⟨rfl, rfl⟩]
  have hiq : (((s1.takeCredit c n).wake d).modIq d m IqPort.addToken).iq d m = (s.iq d m).addToken := by
    rw [State.iq_modIq, if_pos ⟨rfl, rfl⟩, State.wake_iq, State.takeCredit, State.iq_modOq, hi1]
  refine ⟨((s1.takeCredit c n).wake d).modIq d m IqPort.addToken,
    happen_some ((freeSlotNotice_route h1 h16 hk hb).trans (congrArg some htry)), ?_⟩
  rw [hoq, hiq, hs]
  exact ⟨rfl, rfl, (s.iq d m).addToken_cases⟩

include h1 h16 in
/-- Notices of a CREDIT flit (Table 17.3). -/
theorem freeSlotNotice_circ {id : Nat} {auth : Bool} (hb : (s.oq c n).bind = .circ id)
    (hcm : comes s id (s.nextFlits id 5 1) (if auth then none else some 0))
    (hf : s.runFits id (s.nextFlits id 5 1) [(BitVec.ofNat 512 k, 0)] = true) (hc : (s.oq c n).credits + k ≤ s.farCap (s.circ id)) :
    ∃ t : State, Machine.exec (.freeSlotNotice c n k (some auth)) s = .next t ∧
      t.oq c n = { (s.oq c n) with credits := (s.oq c n).credits + k } ∧ ∀ d, d ≠ c → t.core d = s.core d := by
  let u := s.accepted id (s.nextFlits id 5 1)
  have hu : ∀ d, u.core d = s.core d := s.accepted_core id _
  have ho : u.oq c n = s.oq c n := by rw [State.oq, State.oq, hu]
  have hframe := (u.wakeAll (noticeQuarters (s.oq c n).bind c)).modOq_frame c n fun x => { x with credits := x.credits + k }
  refine ⟨(u.wakeAll (noticeQuarters (s.oq c n).bind c)).modOq c n fun x => { x with credits := x.credits + k }, happen_some ?_, ?_,
    fun d h => (hframe.2.2 d h).trans (hu d)⟩
  · simp only [freeSlotNotice, h1, h16, decide_true, Bool.and_self, Bool.not_true, Bool.false_eq_true, if_false, hb]
    exact (State.arrival_sound rfl hcm.1 hf hcm.2).trans (if_pos hc)
  · exact hframe.1.trans (congrArg (fun p : OqPort => { p with credits := p.credits + k }) ho)
end

end Sys2Proof.Machine
end

section
/-! PROOFS. What the arbiter and the watchdog choose, MARKSEQ, the CYCLES compare and the scrubber (R37, R161, R307, R342, R344). -/

open Sys2Proof Sys2Proof.Machine Sys2Proof.Claims
namespace Sys2Proof.Machine

/-! ## The first of the least -/

/-- The candidate that a walk along a list keeps. -/
def keepLess (r : Nat → Nat → Prop) [DecidableRel r] (best : Option Nat) (i : Nat) : Option Nat :=
  match best with
  | none => some i
  | some b => if r i b then some i else some b

section
variable {r : Nat → Nat → Prop} [DecidableRel r] {κ : Nat → Nat} (hr : ∀ a b, r a b ↔ κ a < κ b)

include hr in
/-- It keeps a member of least rank, and of an ascending list the lowest such. -/
theorem foldl_keepLess (l : List Nat) : (l.foldl (keepLess r) none = none ∧ l = []) ∨
    ∃ t ∈ l, l.foldl (keepLess r) none = some t ∧ (∀ x ∈ l, κ t ≤ κ x) ∧ (l.Pairwise (· < ·) → ∀ x ∈ l, x < t → κ t < κ x) := by
  induction l using List.reverseRecOn with
  | nil => exact .inl ⟨rfl, rfl⟩
  | append_singleton l y ih =>
    refine .inr ?_
    rw [List.foldl_append]
    rcases ih with ⟨h, rfl⟩ | ⟨t, ht, h, hmin, hfirst⟩
    · exact ⟨y, by simp, by rw [h]; rfl, by simp, by simp⟩
    · by_cases hy : r y t
      · have hlt : κ y < κ t := (hr y t).mp hy
        have hall : ∀ x ∈ l, κ y < κ x := fun x hx => hlt.trans_le (hmin x hx)
        refine ⟨y, by simp, by rw [h]; exact if_pos hy, fun x hx => ?_, fun _ x hx hxy => ?_⟩
        · rcases List.mem_append.mp hx with hx | hx
          · exact (hall x hx).le
          · rw [List.mem_singleton.mp hx]
        · rcases List.mem_append.mp hx with hx | hx
          · exact hall x hx
          · exact absurd hxy (by rw [List.mem_singleton.mp hx]; exact lt_irrefl y)
      · have hle : κ t ≤ κ y := not_lt.mp (mt (hr y t).mpr hy)
        refine ⟨t, by simp [ht], by rw [h]; exact if_neg hy, fun x hx => ?_, fun hp x hx hxt => ?_⟩
        · rcases List.mem_append.mp hx with hx | hx
          · exact hmin x hx
          · rw [List.mem_singleton.mp hx]; exact hle
        · rw [List.pairwise_append] at hp
          rcases List.mem_append.mp hx with hx | hx
          · exact hfirst hp.1 x hx hxt
          · have hty := hp.2.2 t ht y (List.mem_singleton_self y)
            rw [List.mem_singleton.mp hx] at hxt
            exact absurd hxt hty.asymm
end

/-! ## The arbiter -/

theorem Stage.ePrio_le (t : Stage) : t.ePrio ≤ 7 := Nat.min_le_left ..

/-- The arbiter walks the stages that are ready, from the one after the last granted. -/
theorem State.arbiter_eq (s : State) (c : Nat) : s.arbiter c =
    ((((List.range 8).map fun i => ((s.core c).lastGrant + 1 + i) % 8).filter (s.ready c)).foldl
      (keepLess fun a b => ((s.core c).stage b).ePrio < ((s.core c).stage a).ePrio) none) := by
  rw [List.foldl_filter]
  refine congrArg (fun f => List.foldl f none _) (funext fun best => funext fun t => ?_)
  cases best with
  | none => rfl
  | some b => rfl

theorem mem_order (g : Nat) {x : Nat} (h : x < 8) : x ∈ (List.range 8).map fun i => (g + 1 + i) % 8 :=
  List.mem_map.mpr ⟨(x + 8 - (g + 1) % 8) % 8, List.mem_range.mpr (by omega), by omega⟩

theorem State.arbiter_choice {s : State} {c t : Nat} (h : s.arbiter c = some t) : t < 8 ∧ s.ready c t = true ∧
    ∀ x < 8, s.ready c x = true → ((s.core c).stage x).ePrio ≤ ((s.core c).stage t).ePrio := by
  rw [State.arbiter_eq] at h
  have hr : ∀ a b, ((s.core c).stage b).ePrio < ((s.core c).stage a).ePrio ↔
      7 - ((s.core c).stage a).ePrio < 7 - ((s.core c).stage b).ePrio := fun a b => by
    have ha := ((s.core c).stage a).ePrio_le
    omega
  rcases foldl_keepLess (r := fun a b => ((s.core c).stage b).ePrio < ((s.core c).stage a).ePrio)
    (κ := fun x => 7 - ((s.core c).stage x).ePrio) hr
    (((List.range 8).map fun i => ((s.core c).lastGrant + 1 + i) % 8).filter (s.ready c)) with ⟨h', -⟩ | ⟨u, hu, h', hmin, -⟩
  · rw [h] at h'; cases h'
  · obtain rfl : t = u := Option.some.inj (h.symm.trans h')
    rw [List.mem_filter, List.mem_map] at hu
    obtain ⟨⟨i, -, hi⟩, hready⟩ := hu
    refine ⟨by omega, hready, fun x hx hxr => ?_⟩
    have hle := hmin x (List.mem_filter.mpr ⟨mem_order _ hx, hxr⟩)
    have ht := ((s.core c).stage t).ePrio_le
    have hx := ((s.core c).stage x).ePrio_le
    omega

/-! ## The watchdog -/

/-- The watchdog names, of the streams that have not joined, the lowest of those whose bundle has waited longest. -/
theorem State.oldestStream_choice (s : State) (c t : Nat) :
    let bank := ((s.core c).ctx t).bank
    let i := s.oldestStream c t
    i < 4 ∧ ((∃ j < 4, (bank j).joined = false) → (bank i).joined = false ∧
      ∀ j < 4, (bank j).joined = false → (bank i).since ≤ (bank j).since ∧ (j < i → (bank i).since < (bank j).since)) := by
  intro bank i
  have hi : i = (((List.range 4).filter fun i => !(bank i).joined).foldl (keepLess fun a b => (bank a).since < (bank b).since) none).getD 0 := rfl
  have hmem : ∀ j, j ∈ ((List.range 4).filter fun i => !(bank i).joined) ↔ j < 4 ∧ (bank j).joined = false := by simp
  rcases foldl_keepLess (κ := fun j => (bank j).since) (fun a b => Iff.rfl) ((List.range 4).filter fun i => !(bank i).joined) with
    ⟨h, hnil⟩ | ⟨u, hu, h, hmin, hfirst⟩
  · rw [h] at hi
    refine ⟨by rw [hi]; decide, fun ⟨j, hj, hjo⟩ => ?_⟩
    have := (hmem j).mpr ⟨hj, hjo⟩
    rw [hnil] at this
    cases this
  · rw [h] at hi
    obtain rfl : i = u := hi
    obtain ⟨hlt, hjo⟩ := (hmem i).mp hu
    refine ⟨hlt, fun _ => ⟨hjo, fun j hj hjj => ⟨hmin j ((hmem j).mpr ⟨hj, hjj⟩), ?_⟩⟩⟩
    exact hfirst (List.pairwise_lt_range.filter _) j ((hmem j).mpr ⟨hj, hjj⟩)

section
variable {s : State} {c t : Nat} (hf : (s.core c).firing = some t) (hh : (s.core c).halted = false)

include hf in
theorem firingWatchdog_below (hw : ((s.core c).stage t).watch < ((s.core c).ctx t).fireLimit.toNat) :
    Machine.exec (.firingWatchdog c) s = .next s :=
  happen_none (by simp only [firingWatchdog, hf, hw, decide_true, Bool.or_true, if_true])

variable (hl : ((s.core c).ctx t).fireLimit ≠ 0) (hw : ((s.core c).ctx t).fireLimit.toNat ≤ ((s.core c).stage t).watch)

include hf hh hl hw in
theorem firingWatchdog_vliw (hs : ((s.core c).ctx t).split = none) : Machine.exec (.firingWatchdog c) s =
    .next ((s.haltStage c t 0 ⟨0x0A, ((s.core c).ctx t).fireLimit.toNat, 0⟩ 7 (s.core c).pc).afterBundle c) :=
  happen_some (by simp [firingWatchdog, hf, hh, show ¬ ((s.core c).ctx t).fireLimit = 0#32 from hl, hs, Nat.not_lt.mpr hw])

include hf hh hl hw in
theorem firingWatchdog_split (hs : ((s.core c).ctx t).split ≠ none) : Machine.exec (.firingWatchdog c) s =
    .next ((s.haltStage c t (s.oldestStream c t) ⟨0x0A, ((s.core c).ctx t).fireLimit.toNat, 0⟩ 7
      (((s.core c).ctx t).bank (s.oldestStream c t)).pc).afterBundle c) :=
  happen_some (by simp [firingWatchdog, hf, hh, show ¬ ((s.core c).ctx t).fireLimit = 0#32 from hl, Option.isSome_iff_ne_none.mpr hs, Nat.not_lt.mpr hw])
end

/-! ## MARKSEQ, the compare and the scrubber -/

theorem passThrough_markSeq {s : State} {c t a b : Nat} (he : s.evaluates c = true) (hd : s.mustDiscard c = false)
    (hm : s.markSeqStage c = some (t, a, b)) :
    Machine.exec (.passThrough c) s = .next (s.haltStage c t 0 ⟨0x10, a + 2 ^ 8 * b, 0⟩ 7 0) := by
  have hb : b <<< 8 = 2 ^ 8 * b := by rw [Nat.shiftLeft_eq, Nat.mul_comm]
  exact happen_some (by simp only [passThrough, he, hd, hm, hb, Bool.not_true, Bool.or_self, Bool.false_eq_true, if_false])

theorem cyclesCompare_reached {s : State} (hc : s.cmpHit = false) (h : s.cycCmp.toNat ≤ s.cycles.toNat) :
    Machine.exec .cyclesCompare s = .next { s with cmpHit := true } := happen_some (by simp [cyclesCompare, hc, h])

theorem cyclesCompare_below {s : State} (h : s.cycles.toNat < s.cycCmp.toNat) : Machine.exec .cyclesCompare s = .next s :=
  happen_none (by simp [cyclesCompare, Nat.not_le.mpr h])

theorem scrub_bad {s : State} {w : Nat} (hm : (rangeOf (8 * w)).isMem = true) (hb : s.badIn (8 * w) 8 = true) (hn : w ∉ s.eccSeen) :
    Machine.exec (.scrub w) s = .next (State.log { s with eccSeen := s.eccSeen ++ [w] } 0x05 7 0 false 0 0x1FF 0 0 w 0) :=
  happen_some (by simp [scrub, hm, hb, hn])

theorem scrub_other {s : State} {w : Nat} (hm : (rangeOf (8 * w)).isMem = true) (h : s.badIn (8 * w) 8 = false ∨ w ∈ s.eccSeen) :
    Machine.exec (.scrub w) s = .next s := by
  have hc : (s.badIn (8 * w) 8 && !s.eccSeen.contains w) = false := by rcases h with h | h <;> simp [h]
  exact happen_some (by simp only [scrub, hm, hc, Bool.not_true, Bool.false_eq_true, if_false])

end Sys2Proof.Machine
end

section
/-! PROOFS. What a grant changes at the arbiter and at the ports: the counts of the stages and the charges that end (R344, R400). -/

open Sys2Proof Sys2Proof.Machine Sys2Proof.Claims
namespace Sys2Proof.Machine

theorem Core.stage_modStage (k : Core) (t u : Nat) (f : Stage → Stage) :
    (k.modStage t f).stage u = if u = t then f (k.stage t) else k.stage u := Core.stage_setStage k t u _

/-! ## Updates of several stages and ports -/

/-- An update of the stages of a list, each once. -/
theorem Core.foldl_modStage (f : Nat → Stage → Stage) (l : List Nat) (hl : l.Nodup) (k : Core) :
    ∃ st, l.foldl (fun q x => q.modStage x (f x)) k = { k with stages := st } ∧
      ∀ x, sget Stage.reset st x = if x ∈ l then f x (k.stage x) else k.stage x := by
  induction l generalizing k with
  | nil => exact ⟨k.stages, rfl, fun x => rfl⟩
  | cons y l ih =>
    obtain ⟨hy, hl⟩ := List.nodup_cons.mp hl
    obtain ⟨st, h, hst⟩ := ih hl (k.modStage y (f y))
    refine ⟨st, h, fun x => (hst x).trans ?_⟩
    rw [Core.stage_modStage]
    by_cases hx : x = y
    · subst hx; simp [hy]
    · simp [hx]

/-- Of the cores and memory, at most the inbound ports of core c differ. -/
def InboundOnly (s t : State) (c : Nat) : Prop :=
  { (t.core c) with iq := (s.core c).iq } = s.core c ∧ (∀ d, d ≠ c → t.core d = s.core d) ∧ t.mem = s.mem

theorem InboundOnly.modIq {s t : State} {c : Nat} (h : InboundOnly s t c) (n : Nat) (f : IqPort → IqPort) : InboundOnly s (t.modIq c n f) c := by
  obtain ⟨hc, hd, hm⟩ := h
  refine ⟨?_, fun d h => ?_, hm⟩
  · rw [State.modIq, State.core_modCore, if_pos rfl]
    exact hc
  · rw [State.modIq, State.core_modCore, if_neg h]
    exact hd d h

/-- An update of the inbound ports of a list, each once. -/
theorem State.foldl_modIq (c : Nat) (f : Nat → IqPort → IqPort) (l : List Nat) (hl : l.Nodup) (s : State) :
    InboundOnly s (l.foldl (fun q n => q.modIq c n (f n)) s) c ∧
      ∀ n, (l.foldl (fun q n => q.modIq c n (f n)) s).iq c n = if n ∈ l then f n (s.iq c n) else s.iq c n := by
  refine ⟨List.foldlRecOn l _ (motive := fun t => InboundOnly s t c) ⟨rfl, fun _ _ => rfl, rfl⟩ fun t ht n _ => ht.modIq n (f n), ?_⟩
  induction l generalizing s with
  | nil => exact fun n => rfl
  | cons m l ih =>
    obtain ⟨hm, hl⟩ := List.nodup_cons.mp hl
    intro n
    rw [List.foldl_cons, ih hl, State.iq_modIq]
    by_cases hn : n = m
    · subst hn; simp [hm]
    · simp [hn]

theorem Stage.ins_nodup (t : Stage) : t.ins.Nodup := List.nodup_range.filter _

/-! ## The charges that end -/

theorem State.endCharges_frame (s : State) (c t : Nat) : InboundOnly s (s.endCharges c t) c :=
  (State.foldl_modIq c _ _ ((s.core c).stage t).ins_nodup s).1

/-- A port of the stage forgets the charges that are over. -/
theorem State.endCharges_iq (s : State) (c t n : Nat) : (s.endCharges c t).iq c n =
    if n ∈ ((s.core c).stage t).ins then
      { (s.iq c n) with ceSeen := (s.iq c n).ceSeen.filter fun d => !(!((s.core c).stage t).discard.contains d &&
          ((s.core c).stage t).ins.all fun m => (s.iq c m).ceSeen.contains d) }
    else s.iq c n :=
  (State.foldl_modIq c _ _ ((s.core c).stage t).ins_nodup s).2 n

theorem State.mem_ceSeen_endCharges {s : State} {c t n : Nat} {d : BitVec 16} (hn : n ∈ ((s.core c).stage t).ins) :
    d ∈ ((s.endCharges c t).iq c n).ceSeen ↔ d ∈ (s.iq c n).ceSeen ∧
      (d ∈ ((s.core c).stage t).discard ∨ ∃ m ∈ ((s.core c).stage t).ins, d ∉ (s.iq c m).ceSeen) := by
  rw [State.endCharges_iq, if_pos hn]
  by_cases hd : d ∈ ((s.core c).stage t).discard
  · simp [hd]
  · simp [hd]

/-! ## The counts of the arbiter -/

/-- The count of stage x once stage t is granted (R344). -/
def State.agingAfter (s : State) (c t x : Nat) : Nat :=
  if x = t then 0 else if x < 8 then (if s.ready c x then ((s.core c).stage x).aging + 1 else 0) else ((s.core c).stage x).aging

theorem State.ageStages_frame (s : State) (c t : Nat) : ∃ st,
    (s.ageStages c t).core c = { (s.core c) with stages := st, lastGrant := t } ∧
    ∀ x, sget Stage.reset st x = { (s.core c).stage x with aging := s.agingAfter c t x } := by
  obtain ⟨st, h, hst⟩ := Core.foldl_modStage (fun x y => { y with aging := if s.ready c x then y.aging + 1 else 0 })
    ((List.range 8).filter (· != t)) (List.nodup_range.filter _) ((s.core c).modStage t fun x => { x with aging := 0 })
  refine ⟨st, ?_, fun x => (hst x).trans ?_⟩
  · rw [State.ageStages, State.core_modCore, if_pos rfl]
    exact congrArg (fun k : Core => { k with lastGrant := t }) h
  · rw [Core.stage_modStage, State.agingAfter]
    by_cases hx : x = t
    · subst hx; simp
    · by_cases h8 : x < 8
      · simp [hx, h8]
      · simp [hx, h8]

theorem State.ageStages_core_other (s : State) {c d : Nat} (t : Nat) (h : d ≠ c) : (s.ageStages c t).core d = s.core d := by
  rw [State.ageStages, State.core_modCore, if_neg h]

/-! ## What a grant looks at stays -/

/-- At core c the two states differ, of what a grant looks at, in the counts of the arbiter and in the charges seen. -/
def SameHeads (s u : State) (c : Nat) : Prop :=
  (∀ x, ∃ a, (u.core c).stage x = { (s.core c).stage x with aging := a }) ∧ (∀ n, (u.iq c n).q = (s.iq c n).q) ∧
    ∀ n, u.oq c n = s.oq c n

theorem State.sameHeads_ageStages (s : State) (c t : Nat) : SameHeads s (s.ageStages c t) c := by
  obtain ⟨st, h, hst⟩ := s.ageStages_frame c t
  refine ⟨fun x => ⟨s.agingAfter c t x, ?_⟩, fun n => ?_, fun n => ?_⟩
  · rw [h]; exact hst x
  · rw [State.iq, h]; rfl
  · rw [State.oq, h]; rfl

theorem State.sameHeads_endCharges {s u : State} {c : Nat} (h : SameHeads s u c) (t : Nat) : SameHeads s (u.endCharges c t) c := by
  obtain ⟨hst, hq, ho⟩ := h
  obtain ⟨hc, -, -⟩ := u.endCharges_frame c t
  refine ⟨fun x => ?_, fun n => (congrArg IqPort.q (u.endCharges_iq c t n)).trans ?_, fun n => Eq.trans ?_ (ho n)⟩
  · obtain ⟨a, ha⟩ := hst x
    exact ⟨a, ((congrArg (fun k : Core => k.stage x) hc).trans ha)⟩
  · split
    · exact hq n
    · exact hq n
  · have ho := congrArg (fun k : Core => k.outp n) hc
    exact ho

section
variable {s u : State} {c : Nat} (h : SameHeads s u c) (t : Nat)

include h

theorem SameHeads.stage : ((u.core c).stage t).ins = ((s.core c).stage t).ins ∧ ((u.core c).stage t).outs = ((s.core c).stage t).outs ∧
    ((u.core c).stage t).marker = ((s.core c).stage t).marker ∧ ((u.core c).stage t).prevCharge = ((s.core c).stage t).prevCharge ∧
    ((u.core c).stage t).discard = ((s.core c).stage t).discard := by
  obtain ⟨a, ha⟩ := h.1 t
  rw [ha]
  exact ⟨rfl, rfl, rfl, rfl, rfl⟩

theorem SameHeads.markerAt (n : Nat) : u.markerAt c n = s.markerAt c n := by
  rw [State.markerAt, State.markerAt, IqPort.headMarker, IqPort.headMarker, h.2.1]

theorem SameHeads.markerPortOf : u.markerPortOf c t = s.markerPortOf c t := by
  simp only [State.markerPortOf, h.markerAt, (h.stage t).1]

theorem SameHeads.markerReady : u.markerReady c t = s.markerReady c t := by
  simp only [State.markerReady, h.markerPortOf, (h.stage t).2.2.1]

theorem SameHeads.nextCharge : u.nextCharge c t = s.nextCharge c t := by
  simp only [State.nextCharge, h.markerReady, h.markerPortOf, (h.stage t).1, (h.stage t).2.2.2.1, h.2.1]

theorem SameHeads.nextDesc : u.nextDesc c t = s.nextDesc c t := by
  simp only [State.nextDesc, h.markerReady, h.markerPortOf, h.markerAt, h.nextCharge]

theorem SameHeads.boundaryDue : u.boundaryDue c t = s.boundaryDue c t := by
  rw [State.boundaryDue, State.boundaryDue, h.nextCharge, (h.stage t).2.2.2.1]

theorem SameHeads.userPass : u.userPass c t = s.userPass c t := by
  simp only [State.userPass, State.outsOpen, h.markerAt, h.2.2, (h.stage t).1, (h.stage t).2.1]
  rfl
end

/-! ## Stages that are not ready -/

/-- Once the clk have passed, a stage that is not ready has no grants to count. -/
theorem Core.lapse_aging {k : Core} {rdy : Nat → Bool} {t : Nat} (ht : t < 8) (hh : k.halted = false) (hr : rdy t = false) :
    ((k.lapse rdy).stage t).aging = 0 := by
  obtain ⟨l, r, hl⟩ := List.mem_iff_append.mp (List.mem_range.mpr ht)
  simp only [Core.lapse, hh, Bool.false_eq_true, if_false, hl, List.foldl_append, List.foldl_cons]
  refine List.foldlRecOn r _ (motive := fun q : Core => (q.stage t).aging = 0) ?_ fun q hq x _ => ?_
  · split
    · rw [Core.stage_modStage, if_pos rfl]
    · next hz => simpa [hr] using hz
  · split
    · rw [Core.stage_modStage]
      split
      · rfl
      · exact hq
    · exact hq

theorem Core.watched_halted (k : Core) (n : Nat) : (k.watched n).halted = k.halted := by
  unfold Core.watched
  split
  · rfl
  · split
    · rfl
    · rfl

theorem State.tick_aging {s : State} {c t : Nat} (ht : t < 8) (hh : (s.core c).halted = false) (hr : s.ready c t = false) :
    ((s.tick.core c).stage t).aging = 0 := by
  obtain ⟨p, h⟩ := s.tick_eq
  have hc : s.tick.core c = sget Core.reset (s.cores.map fun e => (e.1, (e.2.watched s.clk).lapse (s.ready e.1))) c := by rw [h]; rfl
  rw [hc]
  rcases sget_map Core.reset s.cores (fun d k => (k.watched s.clk).lapse (s.ready d)) c with e | e
  · rw [e]; rfl
  · rw [e]
    exact Core.lapse_aging ht ((Core.watched_halted _ _).trans hh) hr

end Sys2Proof.Machine
end

section
/-! PROOFS. The grant of a firing and the pass-through of markers (R43, R341, R343, Table 1.13). -/

open Sys2Proof Sys2Proof.Machine Sys2Proof.Claims
namespace Sys2Proof.Machine

/-! ## The core once a firing has started -/

/-- Its registers, given FIRE.DESC and whether the charge boundary is due. -/
def Core.described (k : Core) (t : Nat) (w : Word) (due : Bool) : Core :=
  let k1 := k.modCtx t fun x => { x with fireDesc := w }
  if due then k1.chargeBoundary t else k1

/-- The core with stage t FIRING, given FIRE.DESC with the marker's port, and whether the charge boundary is due. -/
def Core.fired (k : Core) (t : Nat) (d : Word × Option (BitVec 4)) (due : Bool) : Core :=
  { (k.described t d.1 due).modStage t fun x =>
      { x with state := .firing, prevCharge := some (d.1.extractLsb' 16 16), markerPort := d.2, watch := 0 } with
    firing := some t, pc := ((k.stage t).startIndex d.2.isSome).setWidth 40 <<< 5 }

theorem State.startFiring_eq (s : State) (c t : Nat) :
    s.startFiring c t = s.modCore c fun k => k.fired t (s.nextDesc c t) (s.boundaryDue c t) := rfl

theorem sget_sdrop {α : Type} (z : α) (f : Nat → Bool) (m : Store α) (i : Nat) : sget z (sdrop f m) i = if f i then z else sget z m i := by
  refine (sget_filter z m (fun a => !f a) i).trans ?_
  cases f i <;> rfl

section
variable (k : Core) (t : Nat) (d : Word × Option (BitVec 4)) (due : Bool)

theorem Core.fired_stage (x : Nat) : (k.fired t d due).stage x =
    if x = t then { k.stage t with state := .firing, prevCharge := some (d.1.extractLsb' 16 16), markerPort := d.2, watch := 0 }
    else k.stage x := by
  refine (Core.stage_modStage (k.described t d.1 due) t x fun y =>
    { y with state := .firing, prevCharge := some (d.1.extractLsb' 16 16), markerPort := d.2, watch := 0 }).trans ?_
  cases due
  · rfl
  · rfl

theorem Core.fired_ctx (x : Nat) : (k.fired t d due).ctx x =
    if x = t then (if due then { (k.ctx t).boundary (k.stage t).keep with fireDesc := d.1 } else { k.ctx t with fireDesc := d.1 })
    else k.ctx x := by
  cases due
  · exact Core.ctx_modCtx k t x fun y => { y with fireDesc := d.1 }
  · refine (Core.ctx_modCtx (k.modCtx t fun y => { y with fireDesc := d.1 }) t x fun y => y.boundary (k.stage t).keep).trans ?_
    rw [Core.ctx_modCtx, Core.ctx_modCtx, if_pos rfl]
    split
    · rfl
    · rfl

theorem Core.fired_iq : (k.fired t d due).iq = k.iq ∧ (k.fired t d due).lastGrant = k.lastGrant := by
  cases due
  · exact ⟨rfl, rfl⟩
  · exact ⟨rfl, rfl⟩

theorem Core.fired_pc : (k.fired t d due).pc.toNat = 32 * ((k.stage t).startIndex d.2.isSome).toNat := by
  show (((k.stage t).startIndex d.2.isSome).setWidth 40 <<< 5).toNat = _
  rw [BitVec.toNat_shiftLeft, BitVec.toNat_setWidth, Nat.shiftLeft_eq]
  omega

/-- A boundary takes the registers of the declaration to the values of Table 1.13. -/
theorem Core.fired_boundary : boundaryValues k (k.fired t d true) t := by
  have hx := Core.fired_ctx k t d true t
  rw [if_pos rfl, if_pos rfl] at hx
  refine ⟨fun r _ _ => ?_, fun i => ?_, fun i => ?_, fun j => ?_, ?_, ?_, ?_, ?_, fun c _ r hr => ?_, fun c _ j hj => ?_, fun a i hi => ?_,
    fun a => sget_sdrop _ _ _ _, fun b => sget_sdrop _ _ _ _, ?_⟩
  · rw [hx]
    refine (sget_sdrop 0 (fun r => !(decide (24 ≤ r) && (k.stage t).keep.getLsbD (r - 24))) (k.ctx t).g r).trans ?_
    by_cases h24 : 24 ≤ r
    · cases (k.stage t).keep.getLsbD (r - 24) <;> simp [h24]
    · simp [h24]
  · rw [hx]; rfl
  · rw [hx]; rfl
  · rw [hx]; rfl
  · rw [hx]; rfl
  · rw [hx]; rfl
  · rw [hx]; rfl
  · rw [hx]; rfl
  · refine (sget_sdrop _ _ _ _).trans ?_
    rw [Stage.ownsV, vkey, Nat.mul_add_mod, Nat.mod_eq_of_lt hr]
    rfl
  · refine (sget_sdrop _ _ _ _).trans ?_
    rw [Stage.ownsM, Nat.mul_add_mod, Nat.mod_eq_of_lt hj]
    rfl
  · refine (sget_sdrop _ _ _ _).trans ?_
    rw [Stage.ownsAcc, Nat.mul_add_div (by decide), Nat.div_eq_of_lt hi]
    rfl
  · show (if ((k.stage t).bats != 0) = true then false else k.activeBat) = _
    simp only [bne_iff_ne]

/-- Without one the working state stays. -/
theorem Core.fired_kept : workingKept k (k.fired t d false) t := by
  have hx := Core.fired_ctx k t d false t
  rw [if_pos rfl] at hx
  exact ⟨by rw [hx]; rfl, rfl, rfl, rfl, rfl, rfl, rfl⟩
end

/-! ## The grant -/

section
variable (s : State) (c t : Nat)

/-- What a grant leaves, before the firing starts. -/
abbrev State.chosen : State := (s.ageStages c t).endCharges c t

theorem State.sameHeads_chosen : SameHeads s (s.chosen c t) c := State.sameHeads_endCharges (s.sameHeads_ageStages c t) t

theorem Core.eq_of_iq {k k' : Core} {q : Store IqPort} (h : { k' with iq := q } = k) : k' = { k with iq := k'.iq } := by
  subst h
  rfl

theorem State.chosen_core : ∃ st q, (s.chosen c t).core c = { (s.core c) with stages := st, iq := q, lastGrant := t } ∧
    ∀ x, sget Stage.reset st x = { (s.core c).stage x with aging := s.agingAfter c t x } := by
  obtain ⟨st, h, hst⟩ := s.ageStages_frame c t
  refine ⟨st, ((s.chosen c t).core c).iq, ?_, hst⟩
  have hf := ((s.ageStages c t).endCharges_frame c t).1
  rw [h] at hf
  exact Core.eq_of_iq hf

theorem State.chosen_core_other {d : Nat} (h : d ≠ c) : (s.chosen c t).core d = s.core d :=
  (((s.ageStages c t).endCharges_frame c t).2.1 d h).trans (s.ageStages_core_other t h)

theorem State.chosen_mem : (s.chosen c t).mem = s.mem := ((s.ageStages c t).endCharges_frame c t).2.2

theorem State.mem_ceSeen_chosen {n : Nat} {d : BitVec 16} (hn : n ∈ ((s.core c).stage t).ins) :
    d ∈ ((s.chosen c t).iq c n).ceSeen ↔ d ∈ (s.iq c n).ceSeen ∧
      (d ∈ ((s.core c).stage t).discard ∨ ∃ m ∈ ((s.core c).stage t).ins, d ∉ (s.iq c m).ceSeen) := by
  obtain ⟨st, h, -⟩ := s.ageStages_frame c t
  obtain ⟨hi, -, -, -, hd⟩ := (s.sameHeads_ageStages c t).stage t
  have hq : ∀ m, (s.ageStages c t).iq c m = s.iq c m := fun m => by rw [State.iq, h]; rfl
  have key := State.mem_ceSeen_endCharges (s := s.ageStages c t) (c := c) (t := t) (n := n) (d := d) (by rw [hi]; exact hn)
  simp only [hi, hd, hq] at key
  exact key

theorem firingGrant_exec (hg : granted s c t) (hp : s.passes c t = false) (hb : s.boundaryOk c t = true) :
    Machine.exec (.firingGrant c) s = .next ((s.chosen c t).startFiring c t) := by
  obtain ⟨he, hd, ha⟩ := hg
  exact happen_some (by simp only [firingGrant, he, hd, ha, hp, hb, Bool.not_true, Bool.or_self, Bool.false_eq_true, if_false, State.chosen])

/-- The core once the grant has been made. -/
theorem State.grant_core : ((s.chosen c t).startFiring c t).core c = ((s.chosen c t).core c).fired t (s.nextDesc c t) (s.boundaryDue c t) := by
  rw [State.startFiring_eq, State.core_modCore, if_pos rfl, (s.sameHeads_chosen c t).nextDesc, (s.sameHeads_chosen c t).boundaryDue]
end

section
variable {k k' u : Core} {t g a : Nat} {st : Store Stage} {q : Store IqPort}
  (hk : k' = { k with stages := st, iq := q, lastGrant := g }) (hst : sget Stage.reset st t = { k.stage t with aging := a })

include hk hst
/-- The boundary clears the same registers whatever the counts of the arbiter are. -/
theorem boundaryValues_of_aged (h : boundaryValues k' u t) : boundaryValues k u t := by
  subst hk
  have e : ({ k with stages := st, iq := q, lastGrant := g } : Core).stage t = { k.stage t with aging := a } := hst
  simp only [boundaryValues, e] at h
  exact h

omit hst in
theorem workingKept_of_aged (h : workingKept k' u t) : workingKept k u t := by
  subst hk
  exact h
end

section
variable {s : State} {c t : Nat} (hg : granted s c t) (hp : s.passes c t = false) (hb : s.boundaryOk c t = true)

include hg hp hb in
theorem firingGrant_starts :
    ∃ u : State, Machine.exec (.firingGrant c) s = .next u ∧ (u.core c).firing = some t ∧ ((u.core c).stage t).state = .firing ∧
      (u.core c).lastGrant = t ∧ ((u.core c).stage t).aging = 0 ∧
      (u.core c).pc.toNat = 32 * (((s.core c).stage t).startIndex (s.nextDesc c t).2.isSome).toNat ∧
      ((u.core c).ctx t).fireDesc = (s.nextDesc c t).1 ∧ (∀ a, u.byte a = s.byte a) ∧
      (∀ x < 8, x ≠ t → ((u.core c).stage x).aging = if s.ready c x then ((s.core c).stage x).aging + 1 else 0) ∧
      (∀ n ∈ ((s.core c).stage t).ins, ∀ d, d ∈ (u.iq c n).ceSeen ↔ d ∈ (s.iq c n).ceSeen ∧
        (d ∈ ((s.core c).stage t).discard ∨ ∃ m ∈ ((s.core c).stage t).ins, d ∉ (s.iq c m).ceSeen)) ∧
      (((s.core c).stage t).prevCharge ≠ some (s.nextCharge c t) → boundaryValues (s.core c) (u.core c) t) ∧
      (((s.core c).stage t).prevCharge = some (s.nextCharge c t) → workingKept (s.core c) (u.core c) t) ∧
      (∀ x, x ≠ t → (u.core c).ctx x = (s.core c).ctx x) ∧ ∀ d, d ≠ c → u.core d = s.core d := by
  obtain ⟨st, q, hk, hst⟩ := s.chosen_core c t
  have hu := s.grant_core c t
  have hstage : ∀ x, ((s.chosen c t).core c).stage x = { (s.core c).stage x with aging := s.agingAfter c t x } := fun x => by
    rw [hk]; exact hst x
  have hctx : ∀ x, ((s.chosen c t).core c).ctx x = (s.core c).ctx x := fun x => by rw [hk]; rfl
  refine ⟨(s.chosen c t).startFiring c t, firingGrant_exec s c t hg hp hb, ?_, ?_, ?_, ?_, ?_, ?_, fun a => ?_, fun x hx hxt => ?_,
    fun n hn d => ?_, fun hc => ?_, fun hc => ?_, fun x hx => ?_, fun d hd => ?_⟩
  · rw [hu]; rfl
  · rw [hu, Core.fired_stage, if_pos rfl]
  · rw [hu, (Core.fired_iq _ _ _ _).2, hk]
  · rw [hu, Core.fired_stage, if_pos rfl, hstage, State.agingAfter, if_pos rfl]
  · rw [hu, Core.fired_pc, hstage]
    rfl
  · rw [hu, Core.fired_ctx, if_pos rfl]
    split
    · rfl
    · rfl
  · rw [State.byte, State.byte, State.startFiring_eq, State.modCore_mem, State.chosen_mem]
  · rw [hu, Core.fired_stage, if_neg hxt, hstage, State.agingAfter, if_neg hxt, if_pos hx]
  · rw [← s.mem_ceSeen_chosen c t hn, State.iq, hu, Core.inp, (Core.fired_iq _ _ _ _).1]
    rfl
  · have hdue : s.boundaryDue c t = true := by simpa [State.boundaryDue] using hc
    rw [hu, hdue]
    exact boundaryValues_of_aged hk (hst t) (Core.fired_boundary _ t _)
  · have hdue : s.boundaryDue c t = false := by simpa [State.boundaryDue] using hc
    rw [hu, hdue]
    exact workingKept_of_aged hk (Core.fired_kept _ t _)
  · rw [hu, Core.fired_ctx, if_neg hx, hctx]
  · rw [State.startFiring_eq, State.core_modCore, if_neg hd, State.chosen_core_other s c t hd]
end

/-! ## Markers that pass through -/

section
variable {s : State} {c t : Nat} (hg : granted s c t) (hp : s.passes c t = true) (hm : s.markSeqStage c = none)

include hg hp hm in
theorem passThrough_exec : Machine.exec (.passThrough c) s = .next (((s.chosen c t).passMarkers c t).endCharges c t) := by
  obtain ⟨he, hd, ha⟩ := hg
  exact happen_some (by simp only [passThrough, he, hd, ha, hp, hm, Bool.not_true, Bool.or_self, Bool.false_eq_true, if_false, if_true,
    State.chosen])

include hg hp hm in
/-- A user marker passes from its port to every output. -/
theorem passThrough_user {n : Nat} {e : Entry} (hu : s.userPass c t = some n) (he : s.markerAt c n = some e) :
    Machine.exec (.passThrough c) s = .next ((((s.core c).stage t).outs.foldl (fun q o => q.pushEntry c o e)
      ((s.chosen c t).removeHead c n)).endCharges c t) := by
  have hh := s.sameHeads_chosen c t
  rw [passThrough_exec hg hp hm, State.passMarkers, hh.userPass, hu]
  simp only [hh.markerAt, he, (hh.stage t).2.1]

include hg hp hm in
/-- A CB or CE at the head of every input passes as one. -/
theorem passThrough_cbce {n : Nat} {ns : List Nat} {e : Entry} (hu : s.userPass c t = none) (hi : ((s.core c).stage t).ins = n :: ns)
    (he : s.markerAt c n = some e) : Machine.exec (.passThrough c) s = .next ((((s.core c).stage t).outs.foldl
      (fun q o => q.pushEntry c o (mkMarker (hKind e.head) (hCharge e.head) (hPayload e.head)))
      ((n :: ns).foldl (fun q m => q.removeHead c m) (s.chosen c t))).endCharges c t) := by
  have hh := s.sameHeads_chosen c t
  rw [passThrough_exec hg hp hm, State.passMarkers, hh.userPass, hu]
  simp only [(hh.stage t).1, hi, List.head?_cons, Option.bind_some, hh.markerAt, he, (hh.stage t).2.1]
end

end Sys2Proof.Machine
end

section
/-! PROOFS. Entries that are removed, and discard (R237, R400). -/

open Sys2Proof Sys2Proof.Machine Sys2Proof.Claims
namespace Sys2Proof.Machine

/-! ## The head of a port is removed -/

/-- A free-slot notice leaves what is present at a port, and the charges seen there. -/
theorem State.returnCredit_iq (s : State) (c n : Nat) :
    ((s.returnCredit c n).iq c n).q = (s.iq c n).q ∧ ((s.returnCredit c n).iq c n).ceSeen = (s.iq c n).ceSeen := by
  unfold State.returnCredit
  split
  · rw [State.iq_modOq]; exact ⟨rfl, rfl⟩
  · split
    · exact ⟨rfl, rfl⟩
    · rw [State.iq_modIq, if_pos ⟨rfl, rfl⟩]; exact ⟨rfl, rfl⟩
  · exact ⟨rfl, rfl⟩
  · exact ⟨rfl, rfl⟩
  · exact ⟨rfl, rfl⟩

theorem State.removeHead_cons {s : State} {c n : Nat} {e : Entry} {rest : List Entry} (h : (s.iq c n).q = e :: rest) :
    ((s.removeHead c n).iq c n).q = rest ∧
    (e.kind = .marker → hKind e.head = 10 → hCharge e.head ∈ ((s.removeHead c n).iq c n).ceSeen) := by
  have hr : s.removeHead c n =
      (s.modIq c n fun x => { x with q := rest, beat := 0, word := 0, ceSeen := x.ceAfter e }).returnCredit c n := by
    rw [State.removeHead, h]
  obtain ⟨hq, hce⟩ := State.returnCredit_iq (s.modIq c n fun x => { x with q := rest, beat := 0, word := 0, ceSeen := x.ceAfter e }) c n
  rw [hr, hq, hce, State.iq_modIq, if_pos ⟨rfl, rfl⟩]
  exact ⟨rfl, fun hk h10 => by simp [IqPort.ceAfter, hk, h10, Entry.isMarker]⟩

/-! ## What a stage finds to discard -/

theorem State.abortSeen_some {s : State} {c t : Nat} {d : BitVec 16} (h : s.abortSeen c t = some d) :
    d ∉ ((s.core c).stage t).discard ∧
      ∃ n ∈ ((s.core c).stage t).ins, ∃ e ∈ (s.iq c n).q, isAbortCe e = true ∧ hCharge e.head = d := by
  obtain ⟨n, hn, hf⟩ := List.exists_of_findSome?_eq_some h
  obtain ⟨e, he, rfl⟩ := Option.map_eq_some_iff.mp hf
  have hp := List.find?_some he
  simp only [Bool.and_eq_true, Bool.not_eq_true', List.contains_eq_mem, decide_eq_false_iff_not] at hp
  exact ⟨hp.2, n, hn, e, List.mem_of_find?_eq_some he, hp.1, rfl⟩

theorem State.discardPort_some {s : State} {c t n : Nat} (h : s.discardPort c t = some n) : n ∈ ((s.core c).stage t).ins ∧
    ∃ e rest, (s.iq c n).q = e :: rest ∧ e.kind ≠ .token ∧ hCharge e.head ∈ ((s.core c).stage t).discard := by
  refine ⟨List.mem_of_find?_eq_some h, ?_⟩
  have hp := List.find?_some h
  split at hp
  · next e rest hq => exact ⟨e, rest, hq, by simpa using hp⟩
  · cases hp

section
variable {s : State} {c t : Nat} (hm : s.mayDiscard c = true) (he : ((s.core c).stage t).state = .eligible)

include hm he in
/-- An abort CE puts the stage in discard for its charge. -/
theorem discardRemoval_enters (hh : s.heldNew c t = false) {d : BitVec 16} (ha : s.abortSeen c t = some d) :
    Machine.exec (.discardRemoval c t) s = .next (s.modCore c fun k => k.modStage t fun x => { x with discard := x.discard ++ [d] }) :=
  happen_some (by simp [discardRemoval, hm, he, hh, ha])

include hm he in
/-- In discard it removes the entries of the charge. -/
theorem discardRemoval_removes (hh : s.heldNew c t = false) {n : Nat} (ha : s.abortSeen c t = none) (hd : s.discardPort c t = some n) :
    Machine.exec (.discardRemoval c t) s = .next ((s.removeHead c n).endCharges c t) :=
  happen_some (by simp [discardRemoval, hm, he, hh, ha, hd])

/-- The charge that leaves discard is the first whose CE every input has seen. -/
theorem State.discardDone_first {pre post : List (BitVec 16)} {d : BitVec 16} (hd : ((s.core c).stage t).discard = pre ++ d :: post)
    (hce : ∀ n ∈ ((s.core c).stage t).ins, d ∈ (s.iq c n).ceSeen)
    (hpre : ∀ x ∈ pre, x ≠ d ∧ ∃ n ∈ ((s.core c).stage t).ins, x ∉ (s.iq c n).ceSeen) : s.discardDone c t = some d := by
  refine List.find?_eq_some_iff_append.mpr ⟨by simpa using hce, pre, post, hd, fun x hx => ?_⟩
  obtain ⟨-, n, hn, hx⟩ := hpre x hx
  simpa using ⟨n, hn, hx⟩

include hm he in
theorem abortCe_sends {d : BitVec 16} (hd : s.discardDone c t = some d) (ho : s.outsOpen c t = true) : Machine.exec (.abortCe c t) s =
    .next ((((s.core c).stage t).ins.foldl (fun q n => q.modIq c n fun p => { p with ceSeen := p.ceSeen.erase d })
      (((s.core c).stage t).outs.foldl (fun q n => q.pushEntry c n (mkMarker 10 d 0x80000000)) s)).modCore c fun k =>
        k.modStage t fun x => { x with discard := x.discard.erase d }) :=
  happen_some (by simp [abortCe, hm, he, hd, ho])
end

end Sys2Proof.Machine
end

section
/-! PROOFS. Configuration space (R47, R310, Tables 13.4 to 13.6). -/

open Sys2Proof Sys2Proof.Machine Sys2Proof.Claims
namespace Sys2Proof.Machine

theorem rangeOf_cfg {pa : Nat} (h : 0xF00000000 ≤ pa) (h' : pa < 0xF12000000) : rangeOf pa = .cfg := by
  have hlow : ∀ {a b : Nat}, b ≤ 0xF00000000 → ¬ (decide (a ≤ pa) && decide (pa < b)) = true := fun hb => by
    rw [decide_eq_false (Nat.not_lt.mpr (hb.trans h)), Bool.and_false]
    exact Bool.false_ne_true
  unfold rangeOf
  rw [if_neg (by omega), if_neg (hlow (by decide)), if_neg (hlow (by decide)), if_neg (hlow (by decide)), if_pos (by simp [h, h'])]

/-- The physical address of a word of core n's block. -/
def cfgAddr (n off : Nat) : Nat := 0xF00000000 + 0x100000 * n + off

section
variable {n off : Nat} (hn : n < 288) (ho : off < 0x100000)

include hn ho

theorem rangeOf_cfgAddr : rangeOf (cfgAddr n off) = .cfg := by
  refine rangeOf_cfg ?_ ?_
  · rw [cfgAddr]; omega
  · rw [cfgAddr]; omega

theorem toNat_cfgAddr : (BitVec.ofNat 40 (cfgAddr n off)).toNat = cfgAddr n off := by
  rw [BitVec.toNat_ofNat, cfgAddr]
  omega

omit hn in
theorem cfgCore_cfgAddr : cfgCore (cfgAddr n off) = n := by
  rw [cfgCore, cfgAddr]
  omega

omit hn in
theorem cfgOff_cfgAddr : cfgOff (cfgAddr n off) = off := by
  rw [cfgOff, cfgAddr]
  omega
end

/-! ## Loads and stores of a block -/

section
variable {s : State} {c n off : Nat} (hn : n < 288) (ho : off < 0x100000) (hw : (s.core n).ctxWorld = true → (s.core c).ctxWorld = true)

include hw in
theorem cfgWorld_open : (!(s.core c).ctxWorld && (s.core n).ctxWorld) = false := by
  cases hk : (s.core n).ctxWorld
  · simp
  · simp [hw hk]

include hn ho hw in
theorem State.stSpecial_cfg (ea : Nat) (v : Word) : s.stSpecial c (cfgAddr n off) ea v =
    if s.cfgUnsettled n off then waiting else .ok ((s.wake n).cfgWrite n off v) := by
  simp only [State.stSpecial, rangeOf_cfgAddr hn ho, cfgCore_cfgAddr ho, cfgOff_cfgAddr ho, cfgWorld_open hw, Bool.false_eq_true, if_false]

include hn ho hw in
theorem State.ldSpecial_cfg (ea : Nat) : s.ldSpecial c (cfgAddr n off) ea =
    if s.cfgUnsettled n off then waiting else .ok ((s.wake n).cfgRead n off) := by
  simp only [State.ldSpecial, rangeOf_cfgAddr hn ho, cfgCore_cfgAddr ho, cfgOff_cfgAddr ho, cfgWorld_open hw, Bool.false_eq_true, if_false]
end

theorem State.wake_setCore (s : State) (n c : Nat) (k : Core) : (s.wake n).setCore c k = (s.setCore c k).wake n := by
  unfold State.wake
  split
  · rfl
  · rfl

theorem State.cfgWrite_refused {s : State} {n off : Nat} (v : Word) (hw : haltedOnly off = true) (hh : (s.core n).halted = false) :
    (s.wake n).cfgWrite n off v = (s.modCore n fun k => { k with cfgRefused := true }).wake n := by
  rw [State.modCore, ← State.wake_setCore]
  simp [State.cfgWrite, hw, hh]

theorem State.cfgWrite_taken {s : State} {n off : Nat} (v : Word) (hw : haltedOnly off = false ∨ (s.core n).halted = true) :
    (s.wake n).cfgWrite n off v = (s.modCore n fun k => k.cfgWriteWord off v).wake n := by
  rw [State.modCore, ← State.wake_setCore]
  rcases hw with h | h
  · simp [State.cfgWrite, h]
  · simp [State.cfgWrite, h]

section
variable {s : State} {h n off : Nat} (h8 : h < 8) (hp : (s.core (512 + h)).hub.priv ≠ .u) (hn : n < 288) (ho : off < 0x100000)
  (ha : off % 8 = 0) (hw : (s.core n).ctxWorld = true → (s.core (512 + h)).ctxWorld = true)

include h8 hp in
theorem State.cfgCaller_hub : s.cfgCaller (512 + h) = true := by
  have h : 512 + h < 520 := by omega
  simp [State.cfgCaller, isHub, h, hp]

include h8 hp hn ho ha hw

theorem configSpaceWrite_eq (v : Word) : configSpaceWrite h (BitVec.ofNat 40 (cfgAddr n off)) v s =
    if s.cfgUnsettled n off then none else some ((s.wake n).cfgWrite n off v) := by
  have hal : cfgAddr n off % 8 = 0 := by rw [cfgAddr]; omega
  simp only [configSpaceWrite, State.cfgCaller_hub h8 hp, toNat_cfgAddr hn ho, rangeOf_cfgAddr hn ho, hal, State.stSpecial_cfg hn ho hw,
    beq_self_eq_true, Bool.and_self, if_true]
  cases s.cfgUnsettled n off
  · rfl
  · rfl

/-- A word that needs a halted sequencer is refused while it runs. -/
theorem configSpaceWrite_refused (v : Word) (hho : haltedOnly off = true) (hh : (s.core n).halted = false) :
    Machine.exec (.configSpaceWrite h (BitVec.ofNat 40 (cfgAddr n off)) v) s =
      .next ((s.modCore n fun k => { k with cfgRefused := true }).wake n) := by
  refine happen_some ((configSpaceWrite_eq h8 hp hn ho ha hw v).trans ?_)
  rw [State.cfgWrite_refused v hho hh, if_neg (by simp [State.cfgUnsettled, hh])]

theorem configSpaceWrite_taken (v : Word) (hho : haltedOnly off = false ∨ (s.core n).halted = true)
    (hs : (s.core n).halted = false ∨ (s.core n).arr = [] ∨ off = 0xF2000) :
    Machine.exec (.configSpaceWrite h (BitVec.ofNat 40 (cfgAddr n off)) v) s =
      .next ((s.modCore n fun k => k.cfgWriteWord off v).wake n) := by
  refine happen_some ((configSpaceWrite_eq h8 hp hn ho ha hw v).trans ?_)
  have hu : ¬ s.cfgUnsettled n off = true := by
    simp only [State.cfgUnsettled, Bool.and_eq_true, bne_iff_ne, Bool.not_eq_true', List.isEmpty_eq_false_iff]
    rintro ⟨⟨hoff, hh⟩, harr⟩
    rcases hs with hs | hs | hs
    · rw [hh] at hs; cases hs
    · exact harr hs
    · exact hoff hs
  rw [State.cfgWrite_taken v hho, if_neg hu]

/-- Until the array operations of a halted core are done, an access to its block waits. -/
theorem cfg_unsettled (v : Word) (hoff : off ≠ 0xF2000) (hh : (s.core n).halted = true) (harr : (s.core n).arr ≠ []) :
    Machine.exec (.configSpaceWrite h (BitVec.ofNat 40 (cfgAddr n off)) v) s = .next s ∧ s.ldSpecial (512 + h) (cfgAddr n off) 0 = waiting := by
  have hu : s.cfgUnsettled n off = true := by simp [State.cfgUnsettled, hoff, hh, harr]
  refine ⟨happen_none ((configSpaceWrite_eq h8 hp hn ho ha hw v).trans (if_pos hu)), ?_⟩
  rw [State.ldSpecial_cfg hn ho hw, if_pos hu]
end

/-- The place of g(r) in a stage context (Table 13.5). -/
theorem Core.cfgWriteWord_g (k : Core) {t r : Nat} (v : Word) (ht : t < 8) (h1 : 1 ≤ r) (hr : r < 32) :
    k.cfgWriteWord (0xE8000 + 0x400 * t + 8 * r) v = k.modCtx t fun x => { x with g := sset 0 x.g r v } := by
  have hk : (0xE8000 + 0x400 * t + 8 * r - 0xE8000) / 0x400 = t := by omega
  have ho : (0xE8000 + 0x400 * t + 8 * r) % 0x400 = 8 * r := by omega
  unfold Core.cfgWriteWord
  rw [if_neg (by omega), if_neg (by omega), if_neg (by omega), if_neg (by omega), if_neg (by omega), if_neg (by omega), if_neg (by omega),
    if_pos (by omega), hk, ho, Core.cfgWriteCtx, if_pos (by omega), if_neg (by omega), Nat.mul_div_cancel_left r (by decide)]

/-! ## CFG.STATUS -/

theorem State.cfgWord_status (s : State) (n : Nat) : s.cfgWord n 0xF2000 = (s.core n).cfgStatus := rfl

section
variable {s : State} {h n : Nat} (h8 : h < 8) (hp : (s.core (512 + h)).hub.priv ≠ .u) (hn : n < 288)
  (hw : (s.core n).ctxWorld = true → (s.core (512 + h)).ctxWorld = true)

include h8 hp hn hw

/-- Reading CFG.STATUS clears REFUSED, and nothing else of the core. -/
theorem cfgStatusRead_reads {d : GReg} (hd : d ≠ 0) : ∃ t : State, Machine.exec (.cfgStatusRead h n d) s = .next t ∧
    sget 0 ((t.core (512 + h)).ctx 0).g d.toNat = (s.core n).cfgStatus ∧ (t.core n).cfgRefused = false ∧
    { (t.core n) with cfgRefused := (s.core n).cfgRefused } = s.core n := by
  have haddr : 0xF00000000 + n * 0x100000 + 0xF2000 = cfgAddr n 0xF2000 := by rw [cfgAddr, Nat.mul_comm]
  have hld := State.ldSpecial_cfg (s := s) (c := 512 + h) hn (by decide : 0xF2000 < 0x100000) hw 0
  rw [if_neg (by simp [State.cfgUnsettled])] at hld
  have hread : (s.wake n).cfgRead n 0xF2000 =
      ((s.core n).cfgStatus, (s.wake n).setCore n { (s.core n) with cfgRefused := false }) := by
    rw [State.cfgRead, if_neg (by simp [haltedOnly]), State.cfgWord_status, State.wake_core]
    rfl
  let u := (s.wake n).setCore n { (s.core n) with cfgRefused := false }
  let t := u.modCore (512 + h) fun k => k.modCtx 0 fun x => { x with g := sset 0 x.g d.toNat (s.core n).cfgStatus }
  have hne : n ≠ 512 + h := by omega
  have htn : t.core n = { (s.core n) with cfgRefused := false } := by
    rw [State.core_modCore, if_neg hne, State.core_setCore, if_pos rfl]
  have hex : cfgStatusRead h n d s = some t := by
    simp only [cfgStatusRead, State.cfgCaller_hub h8 hp, hn, decide_true, Bool.and_self, if_true, haddr, hld, hread, hd, if_false]
    rfl
  refine ⟨t, happen_some hex, ?_, by rw [htn], by rw [htn]⟩
  rw [State.core_modCore, if_pos rfl, Core.ctx_modCtx, if_pos rfl, sget_sset, if_pos rfl]
end

end Sys2Proof.Machine
end

section
/-! PROOFS. The obligation on the events at ports and firings. -/

open Sys2Proof Sys2Proof.Machine Sys2Proof.Claims
namespace Sys2Proof.Machine

/-- Settles O51: each event by its own lemma. -/
theorem portAndFiringEvents : Obligations.PortAndFiringEvents := by
  refine ⟨fun s c n e ht hb => ⟨fun rest hc => ⟨entryArrives_waiting ht hb hc, entryArrives_full⟩,
      fun id bad run hbind hr hl hf => ⟨fun ha hw => ⟨entryArrives_present ht hb hbind hr hl hf ha hw, entryArrives_waits ht hbind hr hl hf ha hw⟩,
        fun ha hw => ?_, fun ha hu => ?_⟩⟩,
    fun s c n e rest => entryArrives_held,
    fun s c n k h1 h16 => ⟨freeSlotNotice_credits h1 h16, fun d m => freeSlotNotice_token h1 h16, fun id auth => freeSlotNotice_circ h1 h16⟩,
    fun s c t => State.arbiter_choice,
    fun s c t => firingGrant_starts,
    fun s c t hg hp hm => ⟨fun n e => passThrough_user hg hp hm, fun n e ns => passThrough_cbce hg hp hm⟩,
    fun s c t n d => State.mem_ceSeen_endCharges,
    fun s c t => State.tick_aging,
    fun s c t a b => passThrough_markSeq,
    fun s c t hf hh hl => ⟨fun hw => ⟨firingWatchdog_vliw hf hh hl hw, fun hs => ?_⟩, firingWatchdog_below hf⟩,
    fun s c t hm he => ?_,
    fun s c n e rest => State.removeHead_cons,
    fun s => ⟨cyclesCompare_reached, cyclesCompare_below⟩,
    fun s h n off v h8 hp hn ho ha hw => ⟨configSpaceWrite_refused h8 hp hn ho ha hw v, configSpaceWrite_taken h8 hp hn ho ha hw v,
      cfg_unsettled h8 hp hn ho ha hw v, fun t r => Core.cfgWriteWord_g _ v, fun d => cfgStatusRead_reads h8 hp hn hw⟩,
    fun s w hm => ⟨scrub_bad hm, scrub_other hm⟩⟩
  · rw [entryArrives_sound hbind hr hl hf ha, hw]
    rfl
  · exact happen_some ((entryArrives_circ hbind).trans (State.arrival_bad (by rw [entryFlits_length]; exact hr) hl hf ha hu))
  · obtain ⟨hlt, hold⟩ := s.oldestStream_choice c t
    exact ⟨_, hlt, hold, firingWatchdog_split hf hh hl hw hs⟩
  · have hmay : s.mayDiscard c = true := by simpa [State.mayDiscard, isHub] using hm
    exact ⟨fun hh => ⟨fun d => discardRemoval_enters hmay he hh, fun n => discardRemoval_removes hmay he hh⟩, fun d => State.abortSeen_some,
      fun n => State.discardPort_some,
      fun pre d post hd hce hpre => abortCe_sends hmay he (State.discardDone_first hd hce hpre)⟩

end Sys2Proof.Machine
end

section
/-! PROOFS. The fields of a slot's word read back as they were written (R78 to R84, Tables 3.2 to 3.6), and so do the codes of types,
modes and sub-operations (Tables 2.1, 2.6, 3.7 to 3.13). -/

open Sys2Proof Sys2Proof.Machine Sys2Proof.Claims
namespace Sys2Proof

/-! ## Fields of a word put together from its fields -/

/-- A field that lies in the lower of two parts. -/
@[simp] theorem extract_low {v w : Nat} (x : BitVec v) (y : BitVec w) (start len : Nat) (h : start + len ≤ w) :
    BitVec.extractLsb' start len (@HAppend.hAppend _ _ no_index (BitVec (v + w)) _ x y) = y.extractLsb' start len :=
  BitVec.extractLsb'_append_eq_of_add_le h

/-- A field that lies in the upper one. -/
@[simp] theorem extract_high {v w : Nat} (x : BitVec v) (y : BitVec w) (start len : Nat) (h : w ≤ start) :
    BitVec.extractLsb' start len (@HAppend.hAppend _ _ no_index (BitVec (v + w)) _ x y) = x.extractLsb' (start - w) len :=
  BitVec.extractLsb'_append_eq_of_le h

@[simp] theorem ofBool_beq_one (b : Bool) : (BitVec.ofBool b == 1#1) = b := by cases b <;> rfl

section
variable (op : BitVec 6) (d a b : BitVec 5) (fn : BitVec 11) (imm16 : BitVec 16) (w : BitVec 3) (imm13 : BitVec 13)

@[simp] theorem opOf_encS : opOf (encS op d a b fn) = op := by simp [opOf, encS]
@[simp] theorem fD_encS : fD (encS op d a b fn) = d := by simp [fD, encS]
@[simp] theorem fA_encS : fA (encS op d a b fn) = a := by simp [fA, encS]
@[simp] theorem fB_encS : fB (encS op d a b fn) = b := by simp [fB, encS]
@[simp] theorem fFn_encS : fFn (encS op d a b fn) = fn := by simp [fFn, encS]

@[simp] theorem opOf_encSImm : opOf (encSImm op d a imm16) = op := by simp [opOf, encSImm]
@[simp] theorem fD_encSImm : fD (encSImm op d a imm16) = d := by simp [fD, encSImm]
@[simp] theorem fA_encSImm : fA (encSImm op d a imm16) = a := by simp [fA, encSImm]
@[simp] theorem fImm16_encSImm : fImm16 (encSImm op d a imm16) = imm16 := by simp [fImm16, encSImm]

@[simp] theorem opOf_encSMem : opOf (encSMem op d a w imm13) = op := by simp [opOf, encSMem]
@[simp] theorem fD_encSMem : fD (encSMem op d a w imm13) = d := by simp [fD, encSMem]
@[simp] theorem fA_encSMem : fA (encSMem op d a w imm13) = a := by simp [fA, encSMem]
@[simp] theorem fWidth_encSMem : fWidth (encSMem op d a w imm13) = w := by simp [fWidth, encSMem]
@[simp] theorem fImm13_encSMem : fImm13 (encSMem op d a w imm13) = imm13 := by simp [fImm13, encSMem]
end

@[simp] theorem opOf_encSLimm (d : GReg) (imm : BitVec 21) : opOf (encSLimm d imm) = 0x11 := by simp [opOf, encSLimm]
@[simp] theorem fD_encSLimm (d : GReg) (imm : BitVec 21) : fD (encSLimm d imm) = d := by simp [fD, encSLimm]
@[simp] theorem low_encSLimm (d : GReg) (imm : BitVec 21) : (encSLimm d imm).extractLsb' 0 21 = imm := by simp [encSLimm]

@[simp] theorem opOf_encC (op : BitVec 6) (g : Guard) (f : BitVec 22) : opOf (encC op g f) = op := by simp [opOf, encC]
@[simp] theorem fGuard_encC (op : BitVec 6) (g : Guard) (f : BitVec 22) : fGuard (encC op g f) = g := by simp [fGuard, encC]
@[simp] theorem fOpnd_encC (op : BitVec 6) (g : Guard) (f : BitVec 22) : fOpnd (encC op g f) = f := by simp [fOpnd, encC]

section
variable (op : BitVec 6) (g port : BitVec 5) (stall : Bool) (f : BitVec 15)

@[simp] theorem opOf_encQ : opOf (encQ op g port stall f) = op := by simp [opOf, encQ]
@[simp] theorem fD_encQ : fD (encQ op g port stall f) = g := by simp [fD, encQ]
@[simp] theorem fA_encQ : fA (encQ op g port stall f) = port := by simp [fA, encQ]
@[simp] theorem fStall_encQ : fStall (encQ op g port stall f) = stall := by simp [fStall, encQ]
@[simp] theorem fQ_encQ : fQ (encQ op g port stall f) = f := by simp [fQ, encQ]
end

@[simp] theorem vFields_encV (f : VFields) : vFields (encV f) = f := by simp [vFields, encV]
@[simp] theorem mxFields_encMx (f : MxFields) : mxFields (encMx f) = f := by simp [mxFields, encMx]
@[simp] theorem enFields_encEn (f : EnFields) : enFields (encEn f) = f := by simp [enFields, encEn]

/-- Bit 63 of an X slot's word says its format. -/
@[simp] theorem format_encMx (f : MxFields) : (encMx f).extractLsb' 63 1 = 0 := by simp [encMx]
@[simp] theorem format_encEn (f : EnFields) : (encEn f).extractLsb' 63 1 = 1 := by simp [encEn]

/-! ## Fields that hold a narrower number -/

@[simp] theorem predHi_zero : predHi 0#5 = true := rfl
@[simp] theorem predHi_predField (p : PReg) : predHi (predField p) = true := by simp [predHi, predField]
@[simp] theorem predOf_predField (p : PReg) : predOf (predField p) = p := by simp [predOf, predField]
@[simp] theorem isIq_iqField (n : BitVec 4) : isIq (iqField n) = true := by simp [isIq, iqField]
@[simp] theorem isIq_oqField (n : BitVec 4) : isIq (oqField n) = false := by simp [isIq, oqField]
@[simp] theorem portOf_iqField (n : BitVec 4) : portOf (iqField n) = n := by simp [portOf, iqField]
@[simp] theorem portOf_oqField (n : BitVec 4) : portOf (oqField n) = n := by simp [portOf, oqField]
@[simp] theorem gHi_gField (g : GReg) : gHi (gField g) = true := by simp [gHi, gField]
@[simp] theorem gOf_gField (g : GReg) : gOf (gField g) = g := by simp [gOf, gField]
@[simp] theorem nibHi_zero : nibHi 0#8 = true := rfl
@[simp] theorem nibHi_nibField (m : BitVec 4) : nibHi (nibField m) = true := by simp [nibHi, nibField]
@[simp] theorem nibOf_nibField (m : BitVec 4) : nibOf (nibField m) = m := by simp [nibOf, nibField]

/-! ## Codes -/

@[simp] theorem Ty.ofCode_code (t : Ty) : Ty.ofCode t.code = some t := by cases t <;> rfl
@[simp] theorem Rnd.ofCode_code (r : Rnd) : Rnd.ofCode r.code = some r := by cases r <;> rfl
@[simp] theorem CmpCc.ofCode_code (x : CmpCc) : CmpCc.ofCode x.code = some x := by cases x <;> rfl
@[simp] theorem FcmpCc.ofCode_code (x : FcmpCc) : FcmpCc.ofCode x.code = some x := by cases x <;> rfl
@[simp] theorem FcvtOp.ofCode_code (x : FcvtOp) : FcvtOp.ofCode x.code = some x := by cases x <;> rfl
@[simp] theorem ExtW.ofCode_code (x : ExtW) : ExtW.ofCode x.code = some x := by cases x <;> rfl
@[simp] theorem LdW.ofCode_code (x : LdW) : LdW.ofCode x.code = some x := by cases x <;> rfl
@[simp] theorem StW.ofCode_code (x : StW) : StW.ofCode x.code = some x := by cases x <;> rfl
@[simp] theorem AmoOp.ofCode_code (x : AmoOp) : AmoOp.ofCode x.code = some x := by cases x <;> rfl
@[simp] theorem RamoOp.ofCode_code (x : RamoOp) : RamoOp.ofCode x.code = some x := by cases x <;> rfl
@[simp] theorem VcmpCc.ofCode_code (x : VcmpCc) : VcmpCc.ofCode x.code = some x := by cases x <;> rfl
@[simp] theorem ShufPat.ofCode_code (x : ShufPat) : ShufPat.ofCode x.code = some x := by cases x <;> rfl
@[simp] theorem RedOp.ofCode_code (x : RedOp) : RedOp.ofCode x.code = some x := by cases x <;> rfl
@[simp] theorem ScanOp.ofCode_code (x : ScanOp) : ScanOp.ofCode x.code = some x := by cases x <;> rfl
@[simp] theorem MarkKind.ofCode_code (x : MarkKind) : MarkKind.ofCode x.code = some x := by cases x <;> rfl
@[simp] theorem BatForm.ofCode_code (x : BatForm) : BatForm.ofCode x.code = some x := by cases x <;> rfl
@[simp] theorem ASel.ofCode_code (x : ASel) : ASel.ofCode x.code = some x := by
  cases x with
  | v n => simp [ASel.code, ASel.ofCode]
  | iq n => simp [ASel.code, ASel.ofCode]
  | sp n => simp [ASel.code, ASel.ofCode]
  | slice j => revert j; decide
@[simp] theorem DSel.ofCode_code (x : DSel) : DSel.ofCode x.code = some x := by cases x <;> simp [DSel.code, DSel.ofCode]

/-! ## Checks that pass -/

@[simp] theorem chk_true (e : DecErr) (r : Dec) : chk true e r = r := rfl
@[simp] theorem withCode_some {α : Type} (a : α) (k : α → Dec) : withCode (some a) k = k a := rfl
@[simp] theorem withSel_some {α : Type} (a : α) (k : α → Dec) : withSel (some a) k = k a := rfl

end Sys2Proof
end

section
/-! PROOFS. Each slot's decoder gives back the instruction that its encoder wrote (R86 to R91). -/

open Sys2Proof Sys2Proof.Machine Sys2Proof.Claims
namespace Sys2Proof

/-! ## The S slot (Table 3.8) -/

section
variable (d a b : GReg) (fn : BitVec 11)

theorem decodeS_alu : decodeS (encS 0x01#6 d a b fn) = decAlu fn d a b := by simp [decodeS]
theorem decodeS_mul : decodeS (encS 0x02#6 d a b fn) = decMul fn d a b := by simp [decodeS]
theorem decodeS_bit : decodeS (encS 0x03#6 d a b fn) = decBit fn d a b := by simp [decodeS]
theorem decodeS_plog : decodeS (encS 0x15#6 d a b fn) = decPlog fn d a b := by simp [decodeS]
theorem decodeS_fpu : decodeS (encS 0x18#6 d a b fn) = decFpu fn d a b := by simp [decodeS]
end

theorem decField_ok {k : BitVec 6 → BitVec 6 → Instr} {pos len1 : BitVec 6} (h : bitFieldOk pos len1 = true) :
    decField k (pos ++ len1 ++ 0#4) = .ok (k pos len1) := by simp [decField, h]

theorem decFcvt_ok {op : FcvtOp} {r : Rnd} (h : (!op.exact || r == .rne) = true) (d a : GReg) :
    decFcvt (0#4 ++ r.code ++ op.code) d a 0#5 = .ok (.fcvt op d a r) := by simp [decFcvt, h]

theorem decode_encodeS {i : Instr} {c : Code} (hw : i.wf = true) (he : encodeS i = some c) : decodeCode c = .ok i := by
  cases i with
  | add | sub | and | or | xor | shl | shr | sar | rotl | slt | sltn | seq | min | max | minn | maxn => cases he; exact decodeS_alu ..
  | mul | mulh | mulhn | div | divn | rem | remn => cases he; exact decodeS_mul ..
  | clz | ctz | popc | bswap | fshl | fshr => cases he; exact decodeS_bit ..
  | sxt _ _ w | zxt _ _ w => cases he; cases w <;> exact decodeS_bit ..
  | bext | bins => cases he; simp [decodeCode, decodeS, decField_ok hw]
  | addi | andi | ori | xori | lih => cases he; simp [decodeCode, decodeS]
  | shli | shri | sari | rotli => cases he; simp [decodeCode, decodeS, decShi]
  | limm d imm =>
    cases he
    have hs : imm.extractLsb' 21 32 ++ imm.extractLsb' 0 21 = imm := BitVec.extractLsb'_append_extractLsb'
    simp [decodeCode, decodeLimm, hs]
  | cmp | fcmp | pget | sel | ffma => cases he; simp [decodeCode, decodeS]
  | pand | por | pxor | pnot => cases he; exact (decodeS_plog ..).trans (by simp [decPlog])
  | fadd _ _ _ r | fsub _ _ _ r | fmul _ _ _ r | fdiv _ _ _ r | fsqrt _ _ r => cases he; cases r <;> exact decodeS_fpu ..
  | fmin | fmax | fclass => cases he; exact decodeS_fpu ..
  | fcvt => cases he; simp [decodeCode, decodeS, decFcvt_ok hw]
  | ld | st | lda => cases he; simp [decodeCode, decodeS]
  | amo => cases he; simp [decodeCode, decodeS, decAmo]
  | _ => cases he

/-! ## The C slot (Table 3.9) -/

theorem decSysw_ok (g : Guard) (s : GReg) {n : BitVec 12} (h : sysWriteOwnRow n = false) : decSysw g (s ++ n ++ 0#5) = .ok (.sysw g s n) := by
  simp [sysWriteOwnRow] at h
  simp [decSysw, h]

theorem decSysw_loop (g : Guard) (s : GReg) (j : BitVec 2) :
    decSysw g (s ++ (6#10 ++ j) ++ 0#5) = .ok (.loopCntWrite g s j) ∧ decSysw g (s ++ (7#10 ++ j) ++ 0#5) = .ok (.loopStartWrite g s j) := by
  have h : ∀ j : BitVec 2, 6#10 ++ j ≠ 0x015#12 ∧ 6#10 ++ j ≠ 0x002#12 ∧ 7#10 ++ j ≠ 0x015#12 ∧ 7#10 ++ j ≠ 0x002#12 := by decide
  simp [decSysw, h j]

theorem decodeC_sysw (g : Guard) (f : BitVec 22) : decodeC (encC 0x21#6 g f) = decSysw g f := by simp [decodeC]

theorem decode_encodeC {i : Instr} {c : Code} (hw : i.wf = true) (he : encodeC i = some c) : decodeCode c = .ok i := by
  cases i with
  | br | call => cases he; simp [decodeCode, decodeC]
  | brr | callr | split => cases he; simp [decodeCode, decodeC, decCReg]
  | ret | halt | eret | idle | fireEnd | fireNext | join | barGrp => cases he; simp [decodeCode, decodeC, decCNone]
  | loop g r len =>
    cases he
    have hl : (len != 0#12) = true := hw
    simp [decodeCode, decodeC, hl]
  | trap | brk | cfFfr | cfStat => cases he; simp [decodeCode, decodeC]
  | cfArmReg | cfArmImm => cases he; simp [decodeCode, decodeC, decArm]
  | cfWaitAny | cfWaitAll => cases he; simp [decodeCode, decodeC, decWait]
  | sysr g d n =>
    cases he
    have hn : sysReadOwnRow n = false := Bool.not_eq_true' _ ▸ hw
    simp [decodeCode, decodeC, decSysr, hn]
  | coreSatRead => cases he; simp [decodeCode, decodeC, decSysr, sysReadOwnRow]
  | sysw g s n =>
    cases he
    have hn : sysWriteOwnRow n = false := Bool.not_eq_true' _ ▸ hw
    exact (decodeC_sysw ..).trans (decSysw_ok g s hn)
  | cfErrWrite | coreRmodeWrite | cycCmpWrite | hubStatusWrite => cases he; exact (decodeC_sysw ..).trans (by simp [decSysw])
  | loopCntWrite g s j => cases he; exact (decodeC_sysw ..).trans (decSysw_loop g s j).1
  | loopStartWrite g s j => cases he; exact (decodeC_sysw ..).trans (decSysw_loop g s j).2
  | _ => cases he

/-! ## The Q slot (Table 3.10) -/

theorem decode_encodeQ {i : Instr} {c : Code} (hw : i.wf = true) (he : encodeQ i = some c) : decodeCode c = .ok i := by
  cases i with
  | qpop | qpush | qhead | qmark => cases he; simp [decodeCode, decodeQ]
  | qskip | qfree | qavail | mov | movp | qstat | qcopy => cases he; simp [decodeCode, decodeQ]
  | qpeek d iq stall beat w =>
    cases he
    have hb : beat.toNat ≤ 34 := of_decide_eq_true hw
    simp [decodeCode, decodeQ, hb]
  | epop d e stall =>
    cases he
    have hb : e.toNat ≤ 2 := of_decide_eq_true hw
    simp [decodeCode, decodeQ, hb]
  | _ => cases he

end Sys2Proof
end

section
/-! PROOFS. The V slot's decoder gives back the instruction that its encoder wrote (R90, Table 3.11). -/

open Sys2Proof Sys2Proof.Machine Sys2Proof.Claims
namespace Sys2Proof

/-! ## The V slot by the range of its op -/

section
variable (f : VFields)

theorem decodeV_float (h : (f.op != 0 && decide (f.op.toNat < 0x30)) = true) : decodeV (encV f) = decodeVF f := by
  simp at h
  simp [decodeV, h]

theorem decodeV_int (h : decide (0x30 ≤ f.op.toNat ∧ f.op.toNat < 0x50) = true) : decodeV (encV f) = decodeVI f := by
  obtain ⟨h1, h2⟩ := of_decide_eq_true h
  have h0 : f.op ≠ 0#8 := fun e => by simp [e] at h1
  simp [decodeV, h0, h2, Nat.not_lt.mpr h1]

theorem decodeV_convert (h : decide (0x50 ≤ f.op.toNat ∧ f.op.toNat < 0x70) = true) : decodeV (encV f) = decodeVC f := by
  obtain ⟨h1, h2⟩ := of_decide_eq_true h
  have h0 : f.op ≠ 0#8 := fun e => by simp [e] at h1
  simp [decodeV, h0, h2, Nat.not_lt.mpr h1, show ¬ f.op.toNat < 0x30 by omega]

theorem decodeV_memory (h : decide (0x70 ≤ f.op.toNat ∧ f.op.toNat < 0x90) = true) : decodeV (encV f) = decodeVM f := by
  obtain ⟨h1, h2⟩ := of_decide_eq_true h
  have h0 : f.op ≠ 0#8 := fun e => by simp [e] at h1
  simp [decodeV, h0, h2, Nat.not_lt.mpr h1, show ¬ f.op.toNat < 0x30 by omega, show ¬ f.op.toNat < 0x50 by omega]

theorem decodeV_permute (h : decide (0x90 ≤ f.op.toNat) = true) : decodeV (encV f) = decodeVP f := by
  have h1 := of_decide_eq_true h
  have h0 : f.op ≠ 0#8 := fun e => by simp [e] at h1
  simp [decodeV, h0, Nat.not_lt.mpr h1, show ¬ f.op.toNat < 0x30 by omega, show ¬ f.op.toNat < 0x50 by omega,
    show ¬ f.op.toNat < 0x70 by omega]
end

/-! ## Its classes -/

section
variable {ok : Ty → Bool} {t : Ty} {h : VHead} {r : Rnd} {op vd va vb vc : BitVec 8}

theorem decVB_ok {k : VHead → Ty → Rnd → BitVec 8 → BitVec 8 → BitVec 8 → Instr} (ht : ok t = true) :
    decVB ⟨h, op, vd, va, vb, 0#8, t.code, r.code, 0#8⟩ ok k = .ok (k h t r vd va vb) := by simp [decVB, ht]

theorem decVT_ok {k : VHead → Ty → Rnd → BitVec 8 → BitVec 8 → BitVec 8 → BitVec 8 → Instr} (ht : t.isVf = true) :
    decVT ⟨h, op, vd, va, vb, vc, t.code, r.code, 0#8⟩ k = .ok (k h t r vd va vb vc) := by simp [decVT, ht]

theorem decVU_ok {k : VHead → Ty → Rnd → BitVec 8 → BitVec 8 → Instr} (ht : t.isVf = true) :
    decVU ⟨h, op, vd, va, 0#8, 0#8, t.code, r.code, 0#8⟩ k = .ok (k h t r vd va) := by simp [decVU, ht]

theorem decVB0_ok {k : VHead → Ty → BitVec 8 → BitVec 8 → BitVec 8 → Instr} (ht : ok t = true) :
    decVB0 ⟨h, op, vd, va, vb, 0#8, t.code, 0#3, 0#8⟩ ok k = .ok (k h t vd va vb) := by simp [decVB0, ht]

theorem decVU0_ok {k : VHead → Ty → BitVec 8 → BitVec 8 → Instr} (ht : ok t = true) :
    decVU0 ⟨h, op, vd, va, 0#8, 0#8, t.code, 0#3, 0#8⟩ ok k = .ok (k h t vd va) := by simp [decVU0, ht]

theorem decVSat_ok {k : VHead → Ty → Bool → BitVec 8 → BitVec 8 → BitVec 8 → Instr} {sat : Bool} (ht : t.isInt = true) :
    decVSat ⟨h, op, vd, va, vb, 0#8, t.code, 0#3, if sat then 1#8 else 0#8⟩ k = .ok (k h t sat vd va vb) := by
  cases sat <;> simp [decVSat, ht]

variable {ki kb : VHead → Ty → BitVec 8 → BitVec 8 → BitVec 8 → Instr}

/-- An amount below the width is not the code of an amount from vb (R182). -/
theorem amountOk_ne {n : BitVec 8} (ht : amountOk t n = true) : n ≠ 0xFF#8 := by
  rintro rfl
  cases t <;> cases ht

theorem decVShift_imm {n : BitVec 8} (ht : amountOk t n = true) :
    decVShift ⟨h, op, vd, va, 0#8, 0#8, t.code, 0#3, n⟩ ki kb = .ok (ki h t vd va n) := by
  simp [decVShift, ht, amountOk_ne ht]

theorem decVShift_reg (ht : t.isInt = true) : decVShift ⟨h, op, vd, va, vb, 0#8, t.code, 0#3, 0xFF#8⟩ ki kb = .ok (kb h t vd va vb) := by
  simp [decVShift, ht]
end

theorem accepts_of_redOk {op : RedOp} {t : Ty} {r : Rnd} (h : redOk op t r = true) : op.accepts t = true :=
  (Bool.and_eq_true_iff.mp h).1

theorem decode_encodeV1 {i : Instr} {c : Code} (hw : i.wf = true) (he : encodeV1 i = some c) : decodeCode c = .ok i := by
  cases i with
  | vadd | vsub | vmul | vdiv => cases he; exact (decodeV_float _ rfl).trans (decVB_ok hw)
  | vfma | vfms | vfnma => cases he; exact (decodeV_float _ rfl).trans (decVT_ok hw)
  | vmin | vmax | vcopysign => cases he; exact (decodeV_float _ rfl).trans (decVB0_ok hw)
  | vabs | vneg => cases he; exact (decodeV_float _ rfl).trans (decVU0_ok hw)
  | vsqrt | vrcp | vrsq | vexp2 | vlog2 | vsin | vcos | vtanh => cases he; exact (decodeV_float _ rfl).trans (decVU_ok hw)
  | viadd | visub => cases he; exact (decodeV_int _ rfl).trans (decVSat_ok hw)
  | vimul | vimulh | vimin | vimax | vand | vor | vxor => cases he; exact (decodeV_int _ rfl).trans (decVB0_ok hw)
  | vnot | vpopc | vclz => cases he; exact (decodeV_int _ rfl).trans (decVU0_ok hw)
  | vshlImm | vshrImm | vsarImm => cases he; exact (decodeV_int _ rfl).trans (decVShift_imm hw)
  | vshlVb | vshrVb | vsarVb => cases he; exact (decodeV_int _ rfl).trans (decVShift_reg hw)
  | vbext h t vd va pos len1 =>
    cases he
    have ht : (t.isInt && decide (pos.toNat + len1.toNat < t.width)) = true := hw
    exact (decodeV_int _ rfl).trans (by simp [decodeVI, ht])
  | vfsh h t vd va vb n =>
    cases he
    have ht : amountOk t n = true := hw
    exact (decodeV_int _ rfl).trans (by simp [decodeVI, ht])
  | vsatn h t u vd va =>
    cases he
    have ht : (t.isInt && u.isInt && decide (u.width ≤ t.width) && u != t) = true := hw
    exact (decodeV_int _ rfl).trans (by simp [decodeVI, ht])
  | vcmp cc h t md va vb =>
    cases he
    have ht : (!h.ind && (t.isVf || (t.isInt && cc != .un))) = true := hw
    simp only [Bool.and_eq_true] at ht
    exact (decodeV_convert _ rfl).trans (by simp [decodeVC, ht])
  | vsel => cases he; exact (decodeV_convert _ rfl).trans (by simp [decodeVC, noTy])
  | mand | mor | mxor | mnot | mpopc | mfirst => cases he; exact (decodeV_convert _ rfl).trans (by simp [decodeVC, decMask, noTy])
  | mset cl md code =>
    cases he
    have hc : code.toNat ≤ 0x82 := of_decide_eq_true hw
    exact (decodeV_convert _ rfl).trans (by simp [decodeVC, decMask, noTy, hc])
  | vcvt h t u r vd va =>
    cases he
    have hr : (!t.cvtExact u || r == .rne) = true := hw
    exact (decodeV_convert _ rfl).trans (by simp [decodeVC, decVK, hr])
  | vpack => cases he; exact (decodeV_convert _ rfl).trans (decVB0_ok hw)
  | vunpack h t hi vd va =>
    cases he
    have ht : (t.width != 32) = true := hw
    exact (decodeV_convert _ rfl).trans (by cases hi <;> simp [decodeVC, ht])
  | vscale h t q vd va =>
    cases he
    have ht : (t.isVf && q.isQuant) = true := hw
    exact (decodeV_convert _ rfl).trans (by simp [decodeVC, decVK, Rnd.ofCode, ht])
  | vquant h t q _ _ _ _ | vdeq h t q _ _ _ _ =>
    cases he
    have ht : (t.isVf && q.isQuant) = true := hw
    exact (decodeV_convert _ rfl).trans (by simp [decodeVC, decVK, ht])
  | _ => cases he

theorem decode_encodeV2 {i : Instr} {c : Code} (hw : i.wf = true) (he : encodeV2 i = some c) : decodeCode c = .ok i := by
  cases i with
  | vld | vst | vlds | vsts | vgather | vscatter | vldb => cases he; exact (decodeV_memory _ rfl).trans (by simp [decodeVM, decMem, noTy])
  | vrget | vrput => cases he; exact (decodeV_memory _ rfl).trans (by simp [decodeVM, noTy])
  | vcmprSt h t nf _ _ _ =>
    cases he
    have ht : (t != .f4) = true := hw
    exact (decodeV_memory _ rfl).trans (by cases nf <;> simp [decodeVM, ht])
  | vexpdLd h t =>
    cases he
    have ht : (t != .f4) = true := hw
    exact (decodeV_memory _ rfl).trans (by simp [decodeVM, ht])
  | vqpop h =>
    cases he
    have hm : h.m = 0 := eq_of_beq hw
    exact (decodeV_memory _ rfl).trans (by simp [decodeVM, decMem, noTy, hm])
  | vqpush h t close =>
    cases he
    have hm : h.m = 0 := eq_of_beq hw
    exact (decodeV_memory _ rfl).trans (by cases close <;> simp [decodeVM, hm])
  | vperm | vrotl | vxcl | viota | vmovs | vbcast | vzero => cases he; exact (decodeV_permute _ rfl).trans (by simp [decodeVP, noTy])
  | vshuf h p _ _ vb =>
    cases he
    have hp : (!p.oneSource || vb == 0#8) = true := hw
    exact (decodeV_permute _ rfl).trans (by simp [decodeVP, noTy, hp])
  | vred h op t r =>
    cases he
    have hr : redOk op t r = true := hw
    exact (decodeV_permute _ rfl).trans (by simp [decodeVP, hr, accepts_of_redOk hr])
  | vargmax => cases he; exact (decodeV_permute _ rfl).trans (decVU0_ok hw)
  | vscan h op t r =>
    cases he
    have hr : redOk op.red t r = true := hw
    exact (decodeV_permute _ rfl).trans (by simp [decodeVP, hr, accepts_of_redOk hr])
  | kset => cases he; exact (decodeV_permute _ rfl).trans (by simp [decodeVP, noTy])
  | _ => cases he

end Sys2Proof
end

section
/-! PROOFS. The X slot's decoder, and decoding after encoding (R74, R91). -/

open Sys2Proof Sys2Proof.Machine Sys2Proof.Claims
namespace Sys2Proof

/-! ## The X slot (Tables 3.12, 3.13, 11.1, 12.1) -/

theorem decodeX_mx (f : MxFields) : decodeX (encMx f) = decodeMx f := by simp [decodeX]

theorem decodeX_engine (f : EnFields) (h : decide (f.op.toNat < 0x10) = true) : decodeX (encEn f) = decodeEnA f := by
  simp [decodeX, of_decide_eq_true h]

theorem decodeX_system (f : EnFields) (h : decide (0x10 ≤ f.op.toNat) = true) : decodeX (encEn f) = decodeEnB f := by
  simp [decodeX, Nat.not_lt.mpr (of_decide_eq_true h)]

theorem decode_encodeX {i : Instr} {c : Code} (hw : i.wf = true) (he : encodeX i = some c) : decodeCode c = .ok i := by
  cases i with
  | mbatLd _ _ src t form =>
    cases he
    have hs : src.forBat = true ∧ form.accepts t = true := Bool.and_eq_true_iff.mp hw
    exact (decodeX_mx _).trans (by simp [decodeMx, hs])
  | mbatSel | macClr | mrows | mstat | mwait => cases he; exact (decodeX_mx _).trans (by simp [decodeMx])
  | mma _ _ _ _ rows =>
    cases he
    have hr : rowsOk rows = true := hw
    exact (decodeX_mx _).trans (by simp [decodeMx, hr])
  | macRd _ _ _ rows | macRdq _ _ _ rows =>
    cases he
    have hr : rowsOk rows = true := hw
    exact (decodeX_mx _).trans (by simp [decodeMx, hr])
  | mscale _ _ src =>
    cases he
    have hs : src.forScale = true := hw
    exact (decodeX_mx _).trans (by simp [decodeMx, hs])
  | dxCopy | dxPat | dxGat | dxSct | dxStream | rst | rld | rldIq | ramo | rcfAdd | cfAdd | fenceF | fenceCore | fencePkg
  | fenceDom =>
    cases he; exact (decodeX_engine _ rfl).trans (by simp [decodeEnA])
  | dxDrain => cases he; exact (decodeX_engine _ rfl).trans (by simp [decodeEnA, en0])
  | kilnAdmit | kilnStep | kilnRd | kilnCancel | kilnEvict | kilnAbort | cfgLoad | cfgCommit | cfgAbort | cfgTok | segSet | winSet | winRevoke
  | circBind | circBindRel | eventPop | logRd => cases he; exact (decodeX_system _ rfl).trans (by simp [decodeEnB, en0])
  | kilnRet => cases he; exact (decodeX_system _ rfl).trans (by simp [decodeEnB])
  | dbgCtlHalt | dbgCtlHaltq | dbgCtlRun | dbgCtlStep | dbgCtlResume | dbgCtlSkip | dbgCtlAbort =>
    cases he; exact (decodeX_system _ rfl).trans (by simp [decodeEnB, decDbg])
  | _ => cases he

/-! ## Decoding after encoding -/

/-- The six encoders are tried in the order of the slots. -/
theorem encode_cases {i : Instr} {c : Code} (he : encode i = some c) :
    encodeS i = some c ∨ encodeC i = some c ∨ encodeQ i = some c ∨ encodeV1 i = some c ∨ encodeV2 i = some c ∨ encodeX i = some c := by
  simp only [encode, Option.orElse_eq_orElse, Option.orElse_eq_or, Option.or_eq_some_iff] at he
  tauto

/-- Settles O1: by the slot whose encoder holds the instruction. -/
theorem decodeEncode : Obligations.DecodeEncode := by
  intro i c hw he
  obtain h | h | h | h | h | h := encode_cases he
  · exact decode_encodeS hw h
  · exact decode_encodeC hw h
  · exact decode_encodeQ hw h
  · exact decode_encodeV1 hw h
  · exact decode_encodeV2 hw h
  · exact decode_encodeX hw h

end Sys2Proof
end

section
/-! PROOFS. A bundle of one filled slot (R74 to R76). -/

open Sys2Proof Sys2Proof.Machine Sys2Proof.Claims
namespace Sys2Proof

/-! ## A word put into a bundle at its place -/

theorem part_placed {n k p m : Nat} (w : BitVec n) (hk : k + n ≤ 256) (h : p + m ≤ n) :
    (w.setWidth 256 <<< k).extractLsb' (k + p) m = w.extractLsb' p m := by
  ext j hj
  have hlt : k + p + j < 256 := by omega
  simp [hlt, show ¬ k + p + j < k by omega, show k + p + j - k = p + j by omega]

theorem field_placed {n k : Nat} (w : BitVec n) (h : k + n ≤ 256) : (w.setWidth 256 <<< k).extractLsb' k n = w :=
  (part_placed (p := 0) w h (Nat.zero_add n).le).trans (BitVec.extractLsb'_eq_self ..)

/-- Every other field of the bundle is zero. -/
theorem field_beside {n k p m : Nat} (w : BitVec n) (h : p + m ≤ k ∨ k + n ≤ p) : (w.setWidth 256 <<< k).extractLsb' p m = 0#m := by
  ext j hj
  rcases h with h | h
  · have hp : p + j < k := by omega
    simp [hp]
  · have hw : w.getLsbD (p + j - k) = false := BitVec.getLsbD_of_ge w _ (by omega)
    simp [hw]

/-! ## Slots -/

@[simp] theorem slotIf_zero {n : Nat} (sl : Slot) (d : BitVec n → Dec) : slotIf sl 0#n d = [] := by simp [slotIf]

theorem slotIf_filled {n : Nat} {sl : Slot} {w : BitVec n} {d : BitVec n → Dec} (h : w ≠ 0#n) : slotIf sl w d = [(sl, d w)] := by
  simp [slotIf, h]

@[simp] theorem decodeSs_zero : decodeSs 0#32 0#32 = [] := rfl

/-- A bundle with a slot that is filled and one that is not is neither all zero nor all one. -/
theorem decodeBundle_placed {n k : Nat} {w : BitVec n} (hw : w ≠ 0#n) (hn : n < 256) (h : k + n ≤ 256) :
    let b := w.setWidth 256 <<< k
    decodeBundle b = .ok (decodeSs (bS0 b) (bS1 b) ++ slotIf .c (bC b) decodeC ++ slotIf .q (bQ b) decodeQ ++
      slotIf .v (bV b) decodeV ++ slotIf .x (bX b) decodeX) := by
  have hp := field_placed w h
  have h0 : w.setWidth 256 <<< k ≠ 0 := fun e => hw (by rw [← hp, e]; simp)
  have h1 : w.setWidth 256 <<< k ≠ BitVec.allOnes 256 := by
    intro e
    obtain ⟨q, hq, hb⟩ : ∃ q, q < 256 ∧ (q + 1 ≤ k ∨ k + n ≤ q) := ⟨if k = 0 then n else 0, by split <;> omega, by split <;> omega⟩
    have hz := congrArg (·.getLsbD 0) (field_beside w hb)
    rw [e] at hz
    simp [-BitVec.reduceAllOnes, hq] at hz
  exact if_neg (by simpa [-BitVec.ofNat_eq_ofNat] using ⟨h0, h1⟩)

theorem word_ne_zero {n : Nat} {w : BitVec n} {i : Instr} {d : BitVec n → Dec} (h : d w = .ok i) {e : DecErr} (h0 : d 0#n = .error e) :
    w ≠ 0#n := by
  rintro rfl
  rw [h0] at h
  cases h

/-- An S slot's operation is no limm, whose S0 word means nothing without S1 (R76). -/
theorem s_word_op {w : BitVec 32} {i : Instr} (h : decodeS w = .ok i) : opOf w ≠ 0x11#6 := by
  intro ho
  simp [decodeS, ho] at h

theorem limm_words {i : Instr} {s0 s1 : BitVec 32} (hd : decodeCode (.limm s0 s1) = .ok i) (he : encode i = some (.limm s0 s1)) :
    opOf s0 = 0x11#6 := by
  obtain rfl := Except.ok.inj hd
  obtain ⟨hs, -⟩ := Code.limm.inj (Option.some.inj he)
  exact hs ▸ opOf_encSLimm ..

/-! ## The bundle of an instruction's words -/

theorem decodeBundle_s {w : BitVec 32} {i : Instr} (h : decodeS w = .ok i) : decodeBundle (Code.s w).bundle = .ok [(.s0, .ok i)] := by
  have hw : w ≠ 0#32 := word_ne_zero h rfl
  have hb : (Code.s w).bundle = w.setWidth 256 <<< 0 := (BitVec.shiftLeft_zero _).symm
  rw [hb, decodeBundle_placed hw (by decide) (by decide)]
  simp (disch := omega) only [bS0, bS1, bC, bQ, bV, bX, field_placed, field_beside]
  simp [decodeSs, s_word_op h, slotIf_filled hw, h]

theorem decodeBundle_limm {s0 s1 : BitVec 32} {i : Instr} (ho : opOf s0 = 0x11#6) (h : decodeLimm s0 s1 = .ok i) :
    decodeBundle (Code.limm s0 s1).bundle = .ok [(.s0, .ok i)] := by
  have h0 : (s1 ++ s0).extractLsb' 0 32 = s0 := BitVec.extractLsb'_append_eq_right
  have h1 : (s1 ++ s0).extractLsb' 32 32 = s1 := BitVec.extractLsb'_append_eq_left
  have hw : (s1 ++ s0 : BitVec 64) ≠ 0#64 := by
    intro e
    rw [← h0, e] at ho
    cases ho
  have hb : (Code.limm s0 s1).bundle = (s1 ++ s0 : BitVec 64).setWidth 256 <<< 0 := (BitVec.shiftLeft_zero _).symm
  have hs0 : bS0 ((s1 ++ s0 : BitVec 64).setWidth 256 <<< 0) = s0 := (part_placed (p := 0) _ (by decide) (by decide)).trans h0
  have hs1 : bS1 ((s1 ++ s0 : BitVec 64).setWidth 256 <<< 0) = s1 := (part_placed (p := 32) _ (by decide) (by decide)).trans h1
  rw [hb, decodeBundle_placed hw (by decide) (by decide), hs0, hs1]
  simp (disch := omega) only [bC, bQ, bV, bX, field_beside]
  simp [decodeSs, ho, h]

section
variable {w : BitVec 32} {i : Instr}

theorem decodeBundle_c (h : decodeC w = .ok i) : decodeBundle (Code.c w).bundle = .ok [(.c, .ok i)] := by
  have hw : w ≠ 0#32 := word_ne_zero h rfl
  rw [Code.bundle, decodeBundle_placed hw (by decide) (by decide)]
  simp (disch := omega) only [bS0, bS1, bC, bQ, bV, bX, field_placed, field_beside]
  simp [slotIf_filled hw, h]

theorem decodeBundle_q (h : decodeQ w = .ok i) : decodeBundle (Code.q w).bundle = .ok [(.q, .ok i)] := by
  have hw : w ≠ 0#32 := word_ne_zero h rfl
  rw [Code.bundle, decodeBundle_placed hw (by decide) (by decide)]
  simp (disch := omega) only [bS0, bS1, bC, bQ, bV, bX, field_placed, field_beside]
  simp [slotIf_filled hw, h]
end

section
variable {w : BitVec 64} {i : Instr}

theorem decodeBundle_v (h : decodeV w = .ok i) : decodeBundle (Code.v w).bundle = .ok [(.v, .ok i)] := by
  have hw : w ≠ 0#64 := word_ne_zero h rfl
  rw [Code.bundle, decodeBundle_placed hw (by decide) (by decide)]
  simp (disch := omega) only [bS0, bS1, bC, bQ, bV, bX, field_placed, field_beside]
  simp [slotIf_filled hw, h]

theorem decodeBundle_x (h : decodeX w = .ok i) : decodeBundle (Code.x w).bundle = .ok [(.x, .ok i)] := by
  have hw : w ≠ 0#64 := word_ne_zero h rfl
  rw [Code.bundle, decodeBundle_placed hw (by decide) (by decide)]
  simp (disch := omega) only [bS0, bS1, bC, bQ, bV, bX, field_placed, field_beside]
  simp [slotIf_filled hw, h]
end

/-- Settles O2: the words decode to their instruction, so no slot of theirs is all zero, and every other slot is. -/
theorem bundleDecodes : Obligations.BundleDecodes := by
  intro i c hw he
  have hd : decodeCode c = .ok i := decodeEncode i c hw he
  cases c with
  | s => exact ⟨.s0, decodeBundle_s hd, rfl⟩
  | limm => exact ⟨.s0, decodeBundle_limm (limm_words hd he) hd, rfl⟩
  | c => exact ⟨.c, decodeBundle_c hd, rfl⟩
  | q => exact ⟨.q, decodeBundle_q hd, rfl⟩
  | v => exact ⟨.v, decodeBundle_v hd, rfl⟩
  | x => exact ⟨.x, decodeBundle_x hd, rfl⟩

end Sys2Proof
end

section
/-! PROOFS. What runs a decoded instruction: its slot's operation as the only one of a bundle (R79), and a step of the machine
(R74, R95, R146, R161, R403). -/

open Sys2Proof Sys2Proof.Machine Sys2Proof.Claims
namespace Sys2Proof.Machine

/-! ## An instruction is its slot's operation -/

theorem exec_of_slotOp {i : Instr} {o : SlotOp} (h : slotOp .s0 i = some o) (s : State) : exec i s = issue o s := by
  cases i <;> cases h
  all_goals rfl

theorem slotOp_of_guardOf {i : Instr} {g : Guard} (h : guardOf i = some g) : ∃ o, slotOp .s0 i = some o ∧ o.guard = g := by
  cases i <;> cases h
  all_goals exact ⟨_, rfl, rfl⟩

/-- An event has no words. -/
theorem encode_eq_none {i : Instr} (h : slotOp .s0 i = none) : encode i = none := by
  cases i <;> cases h
  all_goals rfl

/-- The slot that an instruction's words fill; an S-slot operation stands in S0. -/
def slotOfCode : Code → Slot
  | .s _ | .limm _ _ => .s0
  | .c _ => .c
  | .q _ => .q
  | .v _ => .v
  | .x _ => .x

/-- Only an S slot's operation is told which of the two S slots it stands in. -/
theorem slotOp_slotOfCode {i : Instr} {sl : Slot} (h : ∀ c, encodeS i = some c → sl = slotOfCode c) : slotOp sl i = slotOp .s0 i := by
  cases i with
  | add | sub | and | or | xor | shl | shr | sar | rotl | slt | sltn | seq | min | max | minn | maxn | mul | mulh | mulhn | div | divn | rem
  | remn | clz | ctz | popc | bswap | sxt | zxt | bext | bins | fshl | fshr | addi | andi | ori | xori | shli | shri | sari | rotli | lih
  | limm | cmp | fcmp | pand | por | pxor | pnot | pget | sel | fadd | fsub | fmul | fdiv | fsqrt | fmin | fmax | fclass | ffma | fcvt | ld
  | st | lda | amo =>
    obtain rfl : sl = .s0 := h _ rfl
    rfl
  | _ => rfl

/-- Settles O15: the instruction is an operation with this guard, alone in its bundle. -/
theorem guardedOff : Obligations.GuardedOff := by
  intro i g s hg hp hd
  obtain ⟨o, ho, hog⟩ := slotOp_of_guardOf hg
  exact (exec_of_slotOp ho s).trans (issue_guarded (hd _ _ ho) (hog ▸ hp))

/-! ## The bundle at the program counter -/

section
variable {s : State}

theorem State.runWord_ok {b : BitVec 256} {l : List (Slot × Dec)} (h : decodeBundle b = .ok l) :
    s.runWord b = s.issueTry (badSlots l) (goodSlots l) := by simp [State.runWord, h]

theorem State.runWord_error {b : BitVec 256} {e : DecErr} (h : decodeBundle b = .error e) :
    s.runWord b = some ((s.takeException (illopT e.detail) 7 s.pc).afterBundle s.focus) := by simp [State.runWord, h, illopT]

/-- The bundle of one instruction's words issues that instruction's operation alone. -/
theorem State.runWord_code {i : Instr} {c : Code} (hw : i.wf = true) (he : encode i = some c) :
    ∃ o, s.runWord c.bundle = s.issueTry [] [o] ∧ exec i s = issue o s := by
  obtain ⟨o, ho⟩ : ∃ o, slotOp .s0 i = some o := Option.ne_none_iff_exists'.mp fun h => by simp [encode_eq_none h] at he
  obtain ⟨sl, hb, hsl⟩ := bundleDecodes i c hw he
  have hc : sl = slotOfCode c := by cases c <;> exact hsl
  have hso : slotOp sl i = some o := (slotOp_slotOfCode fun c' h => by
    have he' : c' = c := by simpa [encode, h] using he
    rw [he', hc]).trans ho
  exact ⟨o, by simp [State.runWord_ok hb, badSlots, goodSlots, hso], exec_of_slotOp ho s⟩

variable (hr : s.canRun s.focus s.stream = true)
include hr

theorem State.runFocus_watchdog {u : State} (hw : firingWatchdog s.focus s = some u) : s.runFocus = some u := by
  simp [State.runFocus, hr, hw]

variable (hw : firingWatchdog s.focus s = none)
include hw

theorem State.runFocus_irq {n : Nat} (hh : s.hub = true) (hi : s.irqToTake s.focus = some n) : s.runFocus = some (s.takeIrq s.focus n) := by
  simp [State.runFocus, hr, hw, hh, hi]

variable (hi : s.hub = true → s.irqToTake s.focus = none)
include hi

theorem State.runFocus_fetched {b : BitVec 256} (hf : s.fetch s.focus s.pc = .ok b) : s.runFocus = s.runWord b := by
  have hn : (if s.hub then s.irqToTake s.focus else none) = none := by simpa using hi
  simp [State.runFocus, hr, hw, hn, hf]

theorem State.runFocus_fetchFault {t : TrapInfo} (hf : s.fetch s.focus s.pc = .error t) :
    s.runFocus = some ((s.takeException t 7 s.pc).afterBundle s.focus) := by
  have hn : (if s.hub then s.irqToTake s.focus else none) = none := by simpa using hi
  simp [State.runFocus, hr, hw, hn, hf]
end

/-! ## A step -/

section
variable {s : State}

theorem step_run {core stream : Nat} {rest : List Move} (h : s.agenda = .run core stream :: rest) (hp : s.power.off = false) :
    Machine.step s = .next ((State.runFocus { s with agenda := rest, focus := core, stream := stream }).getD
      { s with agenda := rest, focus := core, stream := stream }).tick := by
  simp [step, h, hp]

theorem step_event {i : Instr} {rest : List Move} (h : s.agenda = .event i :: rest) (hi : isEvent i = true) :
    Machine.step s = Outcome.ticked (exec i { s with agenda := rest }) := by
  simp [step, h, hi]

theorem step_auto {t : State} (h : s.agenda = []) (hp : s.power.off = false) (hk : s.ticks % 4 ≠ 3) (hr : s.runFocus = some t) :
    Machine.step s = .next t.tick := by
  simp [step, h, hp, State.autoMove, hk, hr]

theorem step_off (h : s.agenda = [] ∨ ∃ core stream rest, s.agenda = .run core stream :: rest) (hp : s.power.off = true) :
    Machine.step s = .fault .poweredOff := by
  obtain h | ⟨core, stream, rest, h⟩ := h <;> simp [step, h, hp]
end

/-! ## Fetch -/

/-- Byte i of a number put together with the lowest byte first. -/
theorem leNat_byte (l : List Byte) (i : Nat) : leNat l / 2 ^ (8 * i) % 2 ^ 8 = (l.getD i 0).toNat := by
  induction l generalizing i with
  | nil => simp [leNat]
  | cons b l ih =>
    cases i with
    | zero => simp [leNat]; omega
    | succ i =>
      have hs : 2 ^ (8 * (i + 1)) = 256 * 2 ^ (8 * i) := by rw [Nat.mul_succ, Nat.pow_add, Nat.mul_comm]
      have hb : (b.toNat + 256 * leNat l) / 256 = leNat l := by have := b.isLt; omega
      simp only [leNat, hs, ← Nat.div_div_eq_div_mul, hb, ih, List.getD_cons_succ]

theorem State.fetch_compute (s : State) {c : Nat} (pc : Addr) (h : isHub c = false) :
    s.fetch c pc = .ok (sget 0 (s.core c).istore (pc.toNat / 32)) := by simp [State.fetch, h]

theorem State.fetch_hub {s : State} {c pa : Nat} {pc : Addr} (h : isHub c = true) (hx : s.xlat c .fetch (pc.setWidth 64) 32 32 = .ok pa)
    (hb : s.badIn pa 32 = false) : ∃ b : BitVec 256, s.fetch c pc = .ok b ∧ ∀ i < 32, b.extractLsb' (8 * i) 8 = s.byte (pa + i) := by
  refine ⟨BitVec.ofNat 256 (s.load pa 32), by simp [State.fetch, h, hx, hb], fun i hi => BitVec.eq_of_toNat_eq ?_⟩
  have hbyte := leNat_byte (s.bytes pa 32) i
  have hd : (2 : Nat) ^ 256 = 2 ^ (8 * i) * 2 ^ (256 - 8 * i) := by rw [← Nat.pow_add]; congr 1; omega
  have h8 : (2 : Nat) ^ 8 ∣ 2 ^ (256 - 8 * i) := Nat.pow_dvd_pow 2 (by omega)
  rw [BitVec.extractLsb'_toNat, BitVec.toNat_ofNat, Nat.shiftRight_eq_div_pow, hd, Nat.mod_mul_right_div_self, Nat.mod_mod_of_dvd _ h8]
  simpa [State.load, State.bytes, hi] using hbyte

/-- Settles O57: by what stands first on the agenda. -/
theorem stepRuns : Obligations.StepRuns := by
  intro s
  refine ⟨fun core stream rest s1 ha hs hp hr => ?_, fun core stream rest ha hp hr => ?_, fun i rest => step_event, fun t => step_auto,
    step_off, fun c pc => ⟨State.fetch_compute s pc, fun pa => State.fetch_hub⟩⟩
  · have hstep : Machine.step s = .next (s1.runFocus.getD s1).tick := hs ▸ step_run ha hp
    obtain rfl : core = s1.focus := by rw [hs]
    obtain rfl : stream = s1.stream := by rw [hs]
    refine ⟨fun u hw => ?_, fun n hw hh hi => ?_, fun hw hi =>
      ⟨fun i c hwf he hf => ?_, fun b l hf hb => ?_, fun b e hf hb => ?_, fun t hf => ?_⟩⟩
    · rw [hstep, State.runFocus_watchdog hr hw, Option.getD_some]
    · rw [hstep, State.runFocus_irq hr hw hh hi, Option.getD_some]
    · obtain ⟨o, ho, hx⟩ := State.runWord_code (s := s1) hwf he
      rw [hstep, State.runFocus_fetched hr hw hi hf, ho, hx]
      rfl
    · rw [hstep, State.runFocus_fetched hr hw hi hf, State.runWord_ok hb]
      rfl
    · rw [hstep, State.runFocus_fetched hr hw hi hf, State.runWord_error hb, Option.getD_some]
    · rw [hstep, State.runFocus_fetchFault hr hw hi hf, Option.getD_some]
  · rw [step_run ha hp]
    simp [State.runFocus, hr]

end Sys2Proof.Machine
end

section
/-! PROOFS. The printed example words (spec/03 to spec/11). -/

open Sys2Proof Sys2Proof.Machine Sys2Proof.Claims
namespace Sys2Proof

/-- Settles O56: the decoder runs on each printed word. -/
theorem sanityWords : Obligations.SanityWords :=
  ⟨rfl, rfl, rfl, rfl, rfl, rfl, rfl, rfl, rfl, rfl, rfl, rfl, rfl, rfl, rfl, rfl, rfl⟩

end Sys2Proof
end

section
/-! PROOFS. The group barrier: who has arrived, who is freed, and what a bar.grp does (R92, R165, R347). -/

open Sys2Proof Sys2Proof.Machine Sys2Proof.Claims
namespace Sys2Proof.Machine

/-! ## States that differ in their cores' stages only -/

def StagesOnly (s t : State) : Prop :=
  { t with cores := s.cores } = s ∧ ∀ c, { t.core c with stages := (s.core c).stages } = s.core c

section
variable {s t u : State}

theorem StagesOnly.refl (s : State) : StagesOnly s s := ⟨rfl, fun _ => rfl⟩

theorem StagesOnly.trans (h : StagesOnly s t) (h' : StagesOnly t u) : StagesOnly s u :=
  ⟨(congrArg (fun x : State => { x with cores := s.cores }) h'.1).trans h.1,
    fun c => (congrArg (fun k : Core => { k with stages := (s.core c).stages }) (h'.2 c)).trans (h.2 c)⟩

theorem stagesOnly_modCore (s : State) (c n : Nat) (f : Stage → Stage) : StagesOnly s (s.modCore c fun k => k.modStage n f) := by
  refine ⟨rfl, fun d => ?_⟩
  rw [State.core_modCore]
  split
  · next h => rw [h]; rfl
  · rfl

theorem StagesOnly.focus_eq (h : StagesOnly s t) : t.focus = s.focus := by
  have hf := congrArg State.focus h.1
  exact hf

theorem StagesOnly.firing_eq (h : StagesOnly s t) (c : Nat) : (t.core c).firing = (s.core c).firing := by
  have hf := congrArg Core.firing (h.2 c)
  exact hf

theorem StagesOnly.stg_eq (h : StagesOnly s t) : t.stg = s.stg := by
  rw [State.stg, State.hub, State.me, h.focus_eq, h.firing_eq]
  rfl

end

theorem State.stage_modCore (s : State) (c d n x : Nat) (f : Stage → Stage) :
    ((s.modCore c fun k => k.modStage n f).core d).stage x = if d = c ∧ x = n then f ((s.core d).stage x) else (s.core d).stage x := by
  rw [State.core_modCore]
  by_cases hd : d = c
  · subst hd
    by_cases hx : x = n
    · simp [Core.stage_modStage, hx]
    · simp [Core.stage_modStage, hx]
  · simp [hd]

/-- Cores told that a stage's k-th barrier is complete. -/
theorem State.foldl_barFree (n k : Nat) (l : List Nat) (s : State) :
    let t := l.foldl (fun t c => t.modCore c fun q => q.modStage n fun x => { x with barFree := max x.barFree k }) s
    StagesOnly s t ∧ ∀ c x, (t.core c).stage x =
      if c ∈ l ∧ x = n then { (s.core c).stage x with barFree := max ((s.core c).stage x).barFree k } else (s.core c).stage x := by
  induction l generalizing s with
  | nil => exact ⟨.refl s, fun c x => by simp⟩
  | cons a l ih =>
    obtain ⟨ho, hst⟩ := ih (s.modCore a fun q => q.modStage n fun x => { x with barFree := max x.barFree k })
    refine ⟨(stagesOnly_modCore ..).trans ho, fun c x => (hst c x).trans ?_⟩
    rw [State.stage_modCore]
    by_cases hx : x = n <;> by_cases ha : c = a <;> by_cases hl : c ∈ l <;> simp [hx, ha, hl]

theorem State.groupArrived_iff {s : State} {k : Nat} : s.groupArrived k = true ↔
    ∀ c ∈ s.stage.group.cores, c ≠ s.focus → k ≤ ((s.core c).stage s.stg).barArrived := by
  simp only [State.groupArrived, List.all_eq_true, Bool.or_eq_true, beq_iff_eq, decide_eq_true_eq]
  exact forall₂_congr fun c _ => or_iff_not_imp_left

theorem State.stage_modStage (s : State) (f : Stage → Stage) (c x : Nat) :
    ((s.modStage f).core c).stage x = if c = s.focus ∧ x = s.stg then f ((s.core c).stage x) else (s.core c).stage x :=
  State.stage_modCore s s.focus c s.stg x f

theorem stagesOnly_modStage (s : State) (f : Stage → Stage) : StagesOnly s (s.modStage f) := stagesOnly_modCore ..

/-- The arrival of the focus core, and the release of its group with the last (R165). -/
theorem State.arriveGroup_stages (s : State) :
    StagesOnly s s.arriveGroup ∧ ∀ c x, (s.arriveGroup.core c).stage x =
      let y := if c = s.focus ∧ x = s.stg then { (s.core c).stage x with barArrived := s.stage.barDone + 1 } else (s.core c).stage x
      if s.groupArrived (s.stage.barDone + 1) = true ∧ c ∈ s.stage.group.cores ∧ x = s.stg
        then { y with barFree := max y.barFree (s.stage.barDone + 1) } else y := by
  have h1 := stagesOnly_modStage s fun x => { x with barArrived := s.stage.barDone + 1 }
  have hg : (s.modStage fun x => { x with barArrived := s.stage.barDone + 1 }).stage.group = s.stage.group := by
    rw [State.stage, h1.stg_eq, State.me, h1.focus_eq, State.stage_modStage]
    simp [State.stage, State.me]
  cases h : s.groupArrived (s.stage.barDone + 1) with
  | false =>
    have he : s.arriveGroup = s.modStage fun x => { x with barArrived := s.stage.barDone + 1 } := by simp [State.arriveGroup, h]
    rw [he]
    exact ⟨h1, fun c x => by simp [State.stage_modStage]⟩
  | true =>
    have he : s.arriveGroup = (s.modStage fun x => { x with barArrived := s.stage.barDone + 1 }).freeGroup (s.stage.barDone + 1) := by
      simp [State.arriveGroup, h]
    rw [he, State.freeGroup, hg, h1.stg_eq]
    obtain ⟨h2, hst⟩ := State.foldl_barFree s.stg (s.stage.barDone + 1) s.stage.group.cores
      (s.modStage fun x => { x with barArrived := s.stage.barDone + 1 })
    exact ⟨h1.trans h2, fun c x => (hst c x).trans (by simp [State.stage_modStage])⟩

/-! ## The operation -/

/-- What a core that passes its group barrier leaves. -/
def State.passBarrier (s : State) : State :=
  s.arriveGroup.modStage fun x => { x with barFree := max x.barFree (s.stage.barDone + 1), barDone := s.stage.barDone + 1 }

/-- The core itself has passed; the other cores of its group are freed with the last arrival. -/
theorem State.passBarrier_stages (s : State) :
    StagesOnly s s.passBarrier ∧ ∀ c x, (s.passBarrier.core c).stage x =
      let y := (s.core c).stage x
      let k := s.stage.barDone + 1
      if c = s.focus ∧ x = s.stg then { y with barArrived := k, barFree := max y.barFree k, barDone := k }
      else if s.groupArrived k = true ∧ c ∈ s.stage.group.cores ∧ x = s.stg then { y with barFree := max y.barFree k } else y := by
  obtain ⟨h, ha⟩ := s.arriveGroup_stages
  refine ⟨h.trans (stagesOnly_modStage ..), fun c x => ?_⟩
  rw [State.passBarrier, State.stage_modStage, h.focus_eq, h.stg_eq, ha]
  by_cases hf : c = s.focus ∧ x = s.stg
  · by_cases hg : s.groupArrived (s.stage.barDone + 1) = true ∧ c ∈ s.stage.group.cores ∧ x = s.stg
    · simp only [if_pos hf, if_pos hg, Nat.max_assoc, Nat.max_self]
    · simp only [if_pos hf, if_neg hg]
  · simp only [if_neg hf]

/-- An operation permitted here that arrives at a barrier which is not complete: the arrival is recorded once. -/
theorem issue_arrive {o : SlotOp} {s t : State} (hf : o.forbidden s = false) (hg : s.guard o.guard = true) (hl : s.lacksLevel o = false)
    (hx : o.fx s s = .ok (t, .arrive)) :
    issue o s = .next (if s.stage.barArrived = s.stage.barDone + 1 then s else s.reachBarrier [o]) := by
  by_cases h : s.stage.barArrived = s.stage.barDone + 1 <;>
    simp [issue, State.issueAll, State.issueTry, hf, effectOrder_one, Issue.add, hg, hl, hx, h]

theorem barGrp_split {s : State} {g : Guard} (hs : s.inSplit = true) : Machine.exec (.barGrp g) s = faults s (illopT 0x04) .c := by
  have hf : (opBarGrp g).forbidden s = true := by simp [SlotOp.forbidden, opBarGrp, hs]
  have hb : s.reachBarrier [opBarGrp g] = s := by simp [State.reachBarrier, hf]
  have hd : (opBarGrp g).decodeFault s = some 0x04 := by simp [SlotOp.decodeFault, hf]
  refine (issue_illop hd (.inl hf)).trans ?_
  rw [State.aloneTrap, hb]
  rfl

theorem barGrp_permitted {s : State} {g : Guard} (hh : s.hub = false) (hs : s.inSplit = false) : (opBarGrp g).forbidden s = false := by
  simp [SlotOp.forbidden, opBarGrp, hh, hs]

section
variable {s : State} {g : Guard} (hh : s.hub = false) (hg : s.guard g = true) (hs : s.inSplit = false)
include hh hg hs

theorem barGrp_passes (h : s.stage.barDone + 1 ≤ s.stage.barFree ∨ s.groupArrived (s.stage.barDone + 1) = true) :
    Machine.exec (.barGrp g) s = completes s s.passBarrier := by
  have hx : (opBarGrp g).fx s s = .ok (s.passBarrier, .seq) := if_pos (by simpa using h)
  exact issue_commit (SlotOp.decodeFault_noG (barGrp_permitted hh hs) rfl) hg (fun h => by simp [hh] at h) hx (by simp)

theorem barGrp_arrives (h : s.stage.barFree < s.stage.barDone + 1) (ha : s.groupArrived (s.stage.barDone + 1) = false) :
    Machine.exec (.barGrp g) s = .next (if s.stage.barArrived = s.stage.barDone + 1 then s
      else s.modStage fun x => { x with barArrived := s.stage.barDone + 1 }) := by
  have hf : (opBarGrp g).forbidden s = false := barGrp_permitted hh hs
  have hx : (opBarGrp g).fx s s = .ok (s, .arrive) := if_neg (by simpa [ha] using h)
  have hb : (!(opBarGrp g).forbidden s && s.guard (opBarGrp g).guard) = true := by
    rw [hf]
    exact hg
  have hr : s.reachBarrier [opBarGrp g] = s.modStage fun x => { x with barArrived := s.stage.barDone + 1 } := by
    have hany : ([opBarGrp g].any fun o => o.barrier && !o.forbidden s && s.guard o.guard) = true := by simpa [opBarGrp] using hb
    rw [State.reachBarrier, if_pos hany, State.arriveGroup]
    simp [ha]
  exact hr ▸ issue_arrive hf hg (State.has_level fun h => by simp [hh] at h) hx
end

/-- Settles O28: in split mode the operation is not permitted; else it passes or arrives. -/
theorem groupBarrier : Obligations.GroupBarrier := by
  intro s g hh hg k arrived
  refine ⟨fun hs => barGrp_split hs, fun hs h => ⟨s.passBarrier, barGrp_passes hh hg hs (h.imp_right State.groupArrived_iff.mpr), ?_⟩,
    fun hs h hn => ?_⟩
  · obtain ⟨ho, hst⟩ := s.passBarrier_stages
    have hme : s.passBarrier.me = s.passBarrier.core s.focus := by rw [State.me, ho.focus_eq]
    refine ⟨?_, fun hall c hc => ?_, ho.1, hme ▸ ho.2 s.focus, fun x hx => ?_, fun c hc => ⟨ho.2 c, fun x => ?_⟩⟩
    · rw [State.stage, ho.stg_eq, hme, hst, if_pos ⟨rfl, rfl⟩]
      rfl
    · have hga : s.groupArrived k = true := State.groupArrived_iff.mpr hall
      rw [hst]
      by_cases hf : c = s.focus
      · rw [if_pos ⟨hf, rfl⟩]
        exact Nat.le_max_right ..
      · rw [if_neg fun h => hf h.1, if_pos ⟨hga, hc, rfl⟩]
        exact Nat.le_max_right ..
    · rw [hme, hst, if_neg fun h => hx h.2, if_neg fun h => hx h.2.2]
      rfl
    · rw [hst, if_neg fun h => hc h.1]
      split <;> rfl
  · exact barGrp_arrives hh hg hs h (Bool.eq_false_iff.mpr fun hga => by
      obtain ⟨c, hc, hf, hna⟩ := hn
      exact hna (State.groupArrived_iff.mp hga c hc hf))

end Sys2Proof.Machine
end

section
/-! PROOFS. A qcopy whose source port's circuit has FAILED, with a token at the head (R241, R246, R405). -/

open Sys2Proof Sys2Proof.Machine Sys2Proof.Claims
namespace Sys2Proof.Machine

/-- Hub core 0 with port 0 of each kind bound to a circuit and declared: the inbound one has FAILED with a token at its head, the outbound
one holds a credit. -/
def tokenAtFailedPort : State := State.reset.modCore 512 fun k =>
  { k with
    iq := [(0, { IqPort.reset with owner := some 0, bind := .circ 0, failed := true, q := [tokenEntry] })]
    oq := [(0, { OqPort.reset with owner := some 0, bind := .circ 0, credits := 1 })]
    stages := [(0, { Stage.reset with inRate := [(0, 1)], outRate := [(0, 1)] })] }

theorem tokenAtFailedPort_iqNamed : iqNamed tokenAtFailedPort 0 := ⟨nofun, rfl, nofun, nofun⟩

theorem tokenAtFailedPort_oqNamed : oqNamed tokenAtFailedPort 0 := ⟨nofun, rfl, nofun, nofun⟩

/-- The copy takes the port's fault: the core goes on in its handler. -/
theorem tokenAtFailedPort_copy_pc : (tokenAtFailedPort.issueAll [] [opQcopy 0 0 true]).me.pc ≠ tokenAtFailedPort.me.pc := by decide

/-- Refutes O34: a stalling qcopy does not wait at a token at the head of a port whose circuit has FAILED, it takes CIRCFAIL. -/
theorem not_queueStops : ¬ Obligations.QueueStops := by
  rintro ⟨-, -, hcopy⟩
  obtain ⟨-, -, -, hnamed⟩ := hcopy tokenAtFailedPort 0 0 true
  obtain ⟨hwaits, -⟩ := hnamed tokenAtFailedPort_iqNamed tokenAtFailedPort_oqNamed
  have hstays : Machine.exec (.qcopy 0 0 true) tokenAtFailedPort = .next tokenAtFailedPort :=
    hwaits rfl (.inr (.inl ⟨tokenEntry, rfl, rfl⟩))
  exact tokenAtFailedPort_copy_pc (congrArg (fun t : State => t.me.pc) (Host.Outcome.next.inj hstays))

end Sys2Proof.Machine
end

section
/-! PROOFS. The engine commands (spec/11): their local checks, where an operand lies, and what each command leaves in its engine. -/

open Sys2Proof Sys2Proof.Machine Sys2Proof.Claims
namespace Sys2Proof.Machine

/-! ## Checks that pass -/

@[simp] theorem Res.ok_bind {α β : Type} (a : α) (f : α → Res β) : ((.ok a : Res α) >>= f) = f a := rfl
@[simp] theorem Res.error_bind {α β : Type} (e : Stop) (f : α → Res β) : ((.error e : Res α) >>= f) = .error e := rfl
@[simp] theorem need_true (e : Res Unit) : need true e = .ok () := rfl
@[simp] theorem need_false (e : Res Unit) : need false e = e := rfl
@[simp] theorem apart_false : apart false = .ok () := rfl
@[simp] theorem apart_true : apart true = .error (.trap (illopT 0x52)) := rfl

section
variable {s : State}

theorem State.flagOk_mine {cf : BitVec 6} (h : flagMine s cf) : s.flagOk cf = .ok () := by
  have hb : (s.hub || (s.me.flag cf.toNat).owner == some s.stg) = true := by simpa [flagMine] using h
  rw [State.flagOk, hb, need_true]

theorem lenOk_lt {x : Word} (h : x.toNat < 2 ^ 31) : lenOk x = .ok x.toNat := if_neg (Nat.not_le.mpr h)

theorem State.range_filled {a : Access} {x : Word} {al n : Nat} (h : n ≠ 0) : s.range a x al n = s.tr a x al n := if_neg h

/-- An address of a package that can be reached (R264). -/
theorem State.target_reached {da : Word} {p : Byte} (h : targets s da p) : s.target da = .ok p := by
  obtain ⟨hda, rfl, hp⟩ := h
  have hd : decide (da.toNat < 2 ^ 56) = true := decide_eq_true hda
  have hpk : da.extractLsb' 48 8 = daPkg da := rfl
  simp only [State.target, hd]
  rw [hpk] at hp ⊢
  obtain hp | ⟨x, hx, hf⟩ := hp
  · simp [hp]
  · have hb : (x.2.state == .failed) = false := beq_false_of_ne hf
    simp [hx, hb]

/-! ## Where an operand lies (R254) -/

/-- An operand that an engine may reach lies where its segment says. -/
theorem State.spot_of_tr {a : Access} {x : Word} {al n pa : Nat} (ha : a.engine = true) (hn : 0 < n) (h : s.tr a x al n = .ok pa) :
    s.spot x = some pa := by
  simp only [State.tr, State.xlat, directMap, ha, Bool.not_true, Bool.and_false, Bool.false_and, Bool.false_eq_true, if_false] at h
  by_cases hx : 2 ^ 40 ≤ x.toNat
  · rw [if_pos hx] at h
    cases h
  have hea : fld x.toNat 0 40 = x.toNat := Nat.mod_eq_of_lt (Nat.not_le.mp hx)
  rw [if_neg hx, hea] at h
  split at h
  · cases h
  split at h
  · cases h
  next hl =>
    simp only [Bool.or_eq_true, decide_eq_true_eq, not_or, Nat.not_lt] at hl
    iterate 4
      split at h
      · cases h
    have hs : ¬ (2 ^ 40 ≤ x.toNat ∨ segLimit (s.me.segment (x.toNat / 2 ^ 36)) * 65536 ≤ x.toNat % 2 ^ 36) := by
      have hlim := hl.2
      simp only [State.me, not_or]
      exact ⟨hx, by omega⟩
    rw [← Except.ok.inj h]
    exact if_neg (by simpa using hs)

theorem overlap_iff {a n b m : Nat} (hn : 0 < n) (hm : 0 < m) : overlap a n b m = true ↔ ¬ disjoint a n b m := by
  simp only [overlap, disjoint, hn, hm, decide_true, Bool.true_and, Bool.and_eq_true, decide_eq_true_eq]
  omega

/-- Two operands that an engine may reach share a byte where their physical ranges do. -/
theorem State.meet_of_tr {a b : Access} {x y : Word} {al bl n m pa pb : Nat} (ha : a.engine = true) (hb : b.engine = true)
    (hx : s.tr a x al n = .ok pa) (hy : s.tr b y bl m = .ok pb) (hn : 0 < n) (hm : 0 < m) :
    s.meet x n y m = true ↔ ¬ disjoint pa n pb m := by
  rw [State.meet, State.spot_of_tr ha hn hx, State.spot_of_tr hb hm hy]
  exact overlap_iff hn hm

theorem State.meet_empty_left (x y : Word) (m : Nat) : s.meet x 0 y m = false := by
  unfold State.meet
  split <;> simp [overlap]

theorem State.meet_empty_right (x y : Word) (n : Nat) : s.meet x n y 0 = false := by
  unfold State.meet
  split <;> simp [overlap]

theorem State.apart_of_tr {a b : Access} {x y : Word} {al bl n m pa pb : Nat} (ha : a.engine = true) (hb : b.engine = true)
    (hx : s.tr a x al n = .ok pa) (hy : s.tr b y bl m = .ok pb) (hd : disjoint pa n pb m) : s.meet x n y m = false := by
  rcases Nat.eq_zero_or_pos n with rfl | hn
  · exact State.meet_empty_left ..
  rcases Nat.eq_zero_or_pos m with rfl | hm
  · exact State.meet_empty_right ..
  exact Bool.eq_false_iff.mpr fun h => (State.meet_of_tr ha hb hx hy hn hm).mp h hd

/-- The operands of a list of frames lie where its moves say. -/
theorem State.frames_ok {fa sa : Access} {size : Nat} {l : List (Word × Word)} {m : List (Nat × Nat)} (h : s.frames fa sa size l = .ok m) :
    ∀ x ∈ l, ∃ y ∈ m, s.tr fa x.1 1 size = .ok y.1 ∧ s.tr sa x.2 1 size = .ok y.2 := by
  induction l generalizing m with
  | nil => exact nofun
  | cons x l ih =>
    rw [State.frames, List.mapM_cons] at h
    obtain ⟨y, hy, h⟩ := Res.bind_ok h
    obtain ⟨m', hm', h⟩ := Res.bind_ok h
    obtain ⟨f, hf, hy⟩ := Res.bind_ok hy
    obtain ⟨b, hb, hy⟩ := Res.bind_ok hy
    obtain rfl := Except.ok.inj hy
    obtain rfl := Except.ok.inj h
    intro z hz
    rcases List.mem_cons.mp hz with rfl | hz
    · exact ⟨(f, b), List.mem_cons_self, hf, hb⟩
    · obtain ⟨w, hw, hp⟩ := ih hm' z hz
      exact ⟨w, List.mem_cons_of_mem _ hw, hp⟩

/-- The page list of a dx.gat or dx.sct that has entries is one that its engine may read. -/
theorem State.pageOperands_list {cf : BitVec 6} {x : Word} {fsh : BitVec 5} {n : BitVec 9} {l : Nat × List Nat}
    (h : s.pageOperands s cf x fsh n = .ok l) (hn : n ≠ 0) : s.tr .engRd x 4 (4 * n.toNat) = .ok l.1 := by
  obtain ⟨-, -, h⟩ := Res.bind_ok h
  obtain ⟨-, -, h⟩ := Res.bind_ok h
  obtain ⟨pa, hpa, h⟩ := Res.bind_ok h
  obtain ⟨-, -, h⟩ := Res.bind_ok h
  obtain ⟨-, -, h⟩ := Res.bind_ok h
  obtain rfl := Except.ok.inj h
  have h0 : n.toNat ≠ 0 := fun e => hn (BitVec.eq_of_toNat_eq e)
  rwa [State.range_filled (by omega)] at hpa

theorem State.frames_apart {fa sa : Access} {size : Nat} {ops : List (Word × Word)} {m : List (Nat × Nat)} (hfa : fa.engine = true)
    (hsa : sa.engine = true) (hm : s.frames fa sa size ops = .ok m) (hd : ∀ x ∈ m, ∀ y ∈ m, disjoint x.1 size y.2 size) :
    (ops.any fun x => ops.any fun y => s.meet x.1 size y.2 size) = false := by
  refine List.any_eq_false.mpr fun x hx => Bool.eq_false_iff.mp (List.any_eq_false.mpr fun y hy => Bool.eq_false_iff.mp ?_)
  obtain ⟨x', hx', hf, -⟩ := State.frames_ok hm x hx
  obtain ⟨y', hy', -, hb⟩ := State.frames_ok hm y hy
  exact State.apart_of_tr hfa hsa hf hb (hd x' hx' y' hy')

theorem State.frames_apart_list {cf : BitVec 6} {x : Word} {fsh : BitVec 5} {n : BitVec 9} {l : Nat × List Nat} {fa sa : Access} {size : Nat}
    {ops : List (Word × Word)} {m : List (Nat × Nat)} (hl : s.pageOperands s cf x fsh n = .ok l) (hsa : sa.engine = true)
    (hm : s.frames fa sa size ops = .ok m) (hd : ∀ y ∈ m, n ≠ 0 → disjoint y.2 size l.1 (4 * n.toNat)) :
    (ops.any fun y => s.meet y.2 size x (4 * n.toNat)) = false := by
  refine List.any_eq_false.mpr fun y hy => Bool.eq_false_iff.mp ?_
  obtain ⟨y', hy', -, hb⟩ := State.frames_ok hm y hy
  by_cases h0 : n = 0
  · subst h0
    exact State.meet_empty_right ..
  · exact State.apart_of_tr hsa rfl hb (State.pageOperands_list hl h0) (hd y' hy' h0)

/-! ## Commands enter their engine -/

theorem enOp_permitted {legal : Legal} {pg : PReg} {uses : Uses} {fx : State → State → Res State} (hr : xReady s pg)
    (hl : legal = .both ∨ legal = .cmp ∧ s.hub = false) : (enOp legal 0 pg uses fx).forbidden s = false := by
  obtain ⟨-, hs⟩ := hr
  obtain rfl | ⟨rfl, hh⟩ := hl
  · simp [SlotOp.forbidden, enOp, hs]
  · simp [SlotOp.forbidden, enOp, hs, hh]

section
variable {legal : Legal} {pg : PReg} {uses : Uses} {fx : State → State → Res State} (hr : xReady s pg)
  (hl : legal = .both ∨ legal = .cmp ∧ s.hub = false) (hu : uses.g = [])
include hr hl hu

theorem issue_enOp {t : State} (h : fx s s = .ok t) : issue (enOp legal 0 pg uses fx) s = completes s t := by
  have hg : s.guard ⟨pg, false⟩ = true := by simpa [State.guard] using hr.1
  have hx : (enOp legal 0 pg uses fx).fx s s = .ok (t, .seq) := by simp [enOp, h]
  exact issue_commit (SlotOp.decodeFault_noG (enOp_permitted hr hl) hu) hg (fun _ => Nat.zero_le _) hx nofun

theorem issue_enOp_faults {i : TrapInfo} (h : fx s s = .error (.trap i)) : issue (enOp legal 0 pg uses fx) s = faults s i .x := by
  have hg : s.guard ⟨pg, false⟩ = true := by simpa [State.guard] using hr.1
  have hx : (enOp legal 0 pg uses fx).fx s s = .error (.trap i) := by simp [enOp, h]
  exact issue_faults (SlotOp.decodeFault_noG (enOp_permitted hr hl) hu) hg (fun _ => Nat.zero_le _) hx rfl
end

section
variable {pg : PReg} {fx : State → State → Res State} (hr : xReady s pg)
include hr

theorem issue_dxOp {t : State} (h : fx s s = .ok t) : issue (dxOp pg fx) s = completes s t := issue_enOp hr (.inl rfl) rfl h

theorem issue_dxOp_faults {i : TrapInfo} (h : fx s s = .error (.trap i)) : issue (dxOp pg fx) s = faults s i .x :=
  issue_enOp_faults hr (.inl rfl) rfl h
end

/-! ## The copy engine -/

theorem drainHeld_iff : s.drainHeld = true ↔ drainBefore s := by
  simp only [State.drainHeld, drainBefore, List.any_eq_true, Bool.and_eq_true, beq_iff_eq]
  refine exists_congr fun e => and_congr_right fun _ => and_congr_right fun _ => ?_
  cases e.op <;> simp

/-- A sum that stays within 32 signed bits is the flag's new value (R256). -/
theorem Flag.add_fits {f : Flag} {imm : BitVec 32} (h : flagOver (f.value.toInt + imm.toInt) = false) :
    f.add imm.toInt false = { f with value := f.value + imm } := by
  have hc : flagClamp (f.value.toInt + imm.toInt) = f.value + imm := by
    simp only [flagOver, Bool.or_eq_false_iff, decide_eq_false_iff_not] at h
    rw [flagClamp, if_neg h.1, if_neg h.2, BitVec.ofInt_add, BitVec.ofInt_toInt, BitVec.ofInt_toInt]
  simp [Flag.add, h, hc]

theorem State.modMe_addFlag {i : Nat} {imm : BitVec 32} (h : flagOver ((s.me.flag i).value.toInt + imm.toInt) = false) :
    (s.modMe fun k => k.modFlag i fun f => f.add imm.toInt false) =
      s.modMe fun k => k.modFlag i fun f => { f with value := f.value + imm } := by
  simp only [State.modMe, State.modCore, Core.modFlag, smod]
  exact congrArg (fun f => s.setCore s.focus { s.me with cf := sset Flag.reset s.me.cf i f }) (Flag.add_fits h)

/-- A number of memory's bytes, built from either end. -/
theorem leNat_append (l : List Byte) (b : Byte) : leNat (l ++ [b]) = leNat l + 256 ^ l.length * b.toNat := by
  induction l with
  | nil => simp [leNat]
  | cons a l ih =>
    simp only [List.cons_append, leNat, ih, List.length_cons, Nat.pow_succ]
    ring

theorem State.load_eq_value (s : State) (pa n : Nat) : s.load pa n = value s pa n := by
  induction n with
  | zero => rfl
  | succ n ih =>
    have hb : s.bytes pa (n + 1) = s.bytes pa n ++ [s.byte (pa + n)] := by simp [State.bytes, List.range_succ]
    have hl : (s.bytes pa n).length = n := by simp [State.bytes]
    rw [State.load, hb, leNat_append, hl, ← State.load, ih, value]

section
variable {pg : PReg} {cf : BitVec 6} {ga gb gc : GReg} (hr : xReady s pg)
include hr

theorem exec_fence {i : Instr} (hi : i = .fenceCore pg ∨ i = .fencePkg pg ∨ i = .fenceDom pg) : Machine.exec i s = completes s s := by
  have h : issue (fenceOp pg) s = completes s s := issue_dxOp hr rfl
  obtain rfl | rfl | rfl := hi <;> exact h

theorem exec_dxDrain (h : s.me.rqFree 0 = true) :
    Machine.exec (.dxDrain pg) s = completes s ((s.reserve 0).1.enter s 0 none (.drain (s.reserve 0).2)) :=
  issue_dxOp hr (by simp [h])

variable (hf : flagMine s cf)
include hf

section
variable {dst src : Nat} (hn : (s.g gc).toNat ≠ 0) (hlt : (s.g gc).toNat < 2 ^ 31)
  (hd : s.tr .engWr (s.g ga) 1 (s.g gc).toNat = .ok dst) (hs : s.tr .engRd (s.g gb) 1 (s.g gc).toNat = .ok src)
include hn hlt hd hs

theorem exec_dxCopy (h : disjoint dst (s.g gc).toNat src (s.g gc).toNat) :
    Machine.exec (.dxCopy pg cf ga gb gc) s = commands s 0 (some cf.toNat) (.copy dst src (s.g gc).toNat) := by
  have hm := State.apart_of_tr rfl rfl hd hs h
  exact issue_dxOp hr (by simp [State.flagOk_mine hf, lenOk_lt hlt, hm, State.range_filled hn, hd, hs]; rfl)

theorem exec_dxCopy_overlap (h : ¬ disjoint dst (s.g gc).toNat src (s.g gc).toNat) :
    Machine.exec (.dxCopy pg cf ga gb gc) s = faults s (illopT 0x52) .x := by
  have hp : 0 < (s.g gc).toNat := Nat.pos_of_ne_zero hn
  have hm := (State.meet_of_tr rfl rfl hd hs hp hp).mpr h
  exact issue_dxOp_faults hr (by simp [State.flagOk_mine hf, lenOk_lt hlt, hm])
end

theorem exec_dxPat {p : Pattern} {src dst : Nat} (hp : s.readPattern s (s.g gc) = .ok p) (ht : p.total ≠ 0) :
    let from_ := hull p.elem (p.dims.map fun d => (d.1, d.2.1))
    let to_ := hull p.elem (p.dims.map fun d => (d.1, d.2.2))
    s.tr .engRd (s.g gb + BitVec.ofInt 64 from_.1) 1 from_.2 = .ok src →
    s.tr .engWr (s.g ga + BitVec.ofInt 64 to_.1) 1 to_.2 = .ok dst → disjoint src from_.2 dst to_.2 →
    Machine.exec (.dxPat pg cf ga gb gc) s = commands s 0 (some cf.toNat) (.pat (dst - to_.1) (src - from_.1) p.elem p.dims) := by
  intro from_ to_ hs hd h
  have hm := State.apart_of_tr rfl rfl hs hd h
  exact issue_dxOp hr (by simp [State.flagOk_mine hf, hp, ht, hm, hs, hd, from_, to_]; rfl)

theorem exec_dxStream {sp : BitVec 2} {bg8 : Bool} {pa : Nat} (hh : s.hub = false) (hn : (s.g gb).toNat ≠ 0) (hlt : (s.g gb).toNat < 2 ^ 31)
    (ho : (s.me.port sp.toNat).isOpen = false) (hs : s.streamSource (s.g ga) (s.g gb).toNat bg8 = .ok pa) :
    Machine.exec (.dxStream pg cf ga gb sp bg8) s = completes s (s.modMe fun k =>
      { k with
        sp := sset StreamPort.reset k.sp sp.toNat
          { isOpen := true, base := pa, striped := bg8, len := (s.g gb).toNat, left := (s.g gb).toNat, flag := cf.toNat,
            stage := s.stg, pc := s.pc, charge := s.ctx.charge, order := k.nextId, old := s.sourceBytes pa (s.g gb).toNat bg8 }
        nextId := k.nextId + 1 }) :=
  issue_enOp hr (.inr ⟨rfl, hh⟩) rfl (by simp [State.flagOk_mine hf, lenOk_lt hlt, ho, hs, hn])

section
variable {imm : BitVec 32}

theorem exec_cfAdd (hv : flagOver ((s.me.flag cf.toNat).value.toInt + imm.toInt) = false) (hd : ¬ drainBefore s) :
    Machine.exec (.cfAdd pg cf imm) s = completes s (s.modMe fun k => k.modFlag cf.toNat fun f => { f with value := f.value + imm }) := by
  have hh : s.drainHeld = false := Bool.eq_false_iff.mpr fun h => hd (drainHeld_iff.mp h)
  refine (issue_dxOp hr (t := s.modMe fun k => k.modFlag cf.toNat fun f => f.add imm.toInt false) ?_).trans ?_
  · simp [State.flagOk_mine hf, hv, hh]
  · rw [State.modMe_addFlag hv]

theorem exec_cfAdd_behind (hv : flagOver ((s.me.flag cf.toNat).value.toInt + imm.toInt) = false) (hd : drainBefore s) :
    Machine.exec (.cfAdd pg cf imm) s = commands s 0 (some cf.toNat) (.addFlag imm) :=
  issue_dxOp hr (by simp [State.flagOk_mine hf, hv, drainHeld_iff.mpr hd]; rfl)

theorem exec_cfAdd_overflow (hv : flagOver ((s.me.flag cf.toNat).value.toInt + imm.toInt) = true) :
    Machine.exec (.cfAdd pg cf imm) s = faults s ⟨0x09, cf.toNat, 0⟩ .x :=
  issue_dxOp_faults hr (by simp [State.flagOk_mine hf, hv, faultWith])
end

section
variable {fsh : BitVec 5} {n : BitVec 9} {l : Nat × List Nat} (hl : s.pageOperands s cf (s.g gc) fsh n = .ok l)
include hl

omit hf in
theorem exec_dxGat {m : List (Nat × Nat)} :
    let size := 2 ^ fsh.toNat
    s.frames .engRd .engWr size (frameOps (s.g gb) (s.g ga) size l.2) = .ok m → (∀ x ∈ m, n ≠ 0 → disjoint x.2 size l.1 (4 * n.toNat)) →
    Machine.exec (.dxGat pg cf ga gb gc fsh n) s = commands s 0 (some cf.toNat) (.frames (m.map fun x => (x.2, x.1)) size) := by
  intro size hm hd
  have ha := State.frames_apart_list hl rfl hm hd
  exact issue_dxOp hr (by simp only [hl, Res.ok_bind, size, ha, apart_false, hm]; rfl)

omit hf in
theorem exec_dxGat_overlap :
    let size := 2 ^ fsh.toNat
    (∃ x ∈ frameOps (s.g gb) (s.g ga) size l.2, s.meet x.2 size (s.g gc) (4 * n.toNat) = true) →
    Machine.exec (.dxGat pg cf ga gb gc fsh n) s = faults s (illopT 0x52) .x := by
  intro size h
  have ha := List.any_eq_true.mpr h
  exact issue_dxOp_faults hr (by simp only [hl, Res.ok_bind, size, ha, apart_true, Res.error_bind])

omit hf in
theorem exec_dxSct {m : List (Nat × Nat)} :
    let size := 2 ^ fsh.toNat
    s.frames .engWr .engRd size (frameOps (s.g ga) (s.g gb) size l.2) = .ok m → (∀ x ∈ m, ∀ y ∈ m, disjoint x.1 size y.2 size) →
    Machine.exec (.dxSct pg cf ga gb gc fsh n) s = commands s 0 (some cf.toNat) (.frames m size) := by
  intro size hm hd
  have ha := State.frames_apart rfl rfl hm hd
  exact issue_dxOp hr (by simp only [hl, Res.ok_bind, size, ha, apart_false, hm]; rfl)

omit hf in
theorem exec_dxSct_overlap :
    let size := 2 ^ fsh.toNat
    let out := frameOps (s.g ga) (s.g gb) size l.2
    (∃ x ∈ out, ∃ y ∈ out, s.meet x.1 size y.2 size = true) →
    Machine.exec (.dxSct pg cf ga gb gc fsh n) s = faults s (illopT 0x52) .x := by
  intro size out ⟨x, hx, hy⟩
  have ha : (out.any fun x => out.any fun y => s.meet x.1 size y.2 size) = true :=
    List.any_eq_true.mpr ⟨x, hx, List.any_eq_true.mpr hy⟩
  exact issue_dxOp_faults hr (by simp only [hl, Res.ok_bind, size, out, ha, apart_true, Res.error_bind])
end

/-! ## The remote engine -/

omit hf in
theorem exec_rcfAdd {p : Byte} (hc : 32 ≤ cf.toNat) (ht : targets s (s.g ga) p) :
    Machine.exec (.rcfAdd pg cf ga gb) s =
      commands s 1 none (.remote { remoteOf .rcfAdd p (s.g ga) 1 0 with opnd := s.g gb, cf := cf.toNat }) :=
  issue_dxOp hr (by simp [hc, State.target_reached ht]; rfl)

omit hf in
theorem exec_fenceF {p : Byte} (hc : 32 ≤ cf.toNat) (ht : targets s (s.g ga) p) :
    Machine.exec (.fenceF pg cf ga gb) s =
      commands s 1 none (.remote { remoteOf .fenceF p (s.g ga) 1 0 with opnd := s.g gb, cf := cf.toNat }) :=
  issue_dxOp hr (by simp [hc, State.target_reached ht]; rfl)

theorem exec_ramo {op : RamoOp} {wide : Bool} {p : Byte} {pa : Nat} (ht : targets s (s.g gb) p)
    (hal : (s.g gb).toNat % 2 ^ 40 % (if wide then 8 else 4) = 0)
    (hx : s.tr .engRw (s.g ga) (if wide then 8 else 4) (if wide then 8 else 4) = .ok pa)
    (hb : op = .cas → s.badIn pa (if wide then 8 else 4) = false) :
    Machine.exec (.ramo pg cf ga gb gc op wide) s = commands s 1 (some cf.toNat)
      (.remote { remoteOf .ramo p (s.g gb) (if wide then 8 else 4) pa with
        op := op, wide := wide, opnd := s.g gc
        cmp := if op = .cas then BitVec.ofNat 64 (value s pa (if wide then 8 else 4)) else 0 }) := by
  have ho : daOff (s.g gb) = (s.g gb).toNat % 2 ^ 40 := rfl
  have hc : (op != .cas || !s.badIn pa (if wide then 8 else 4)) = true := by
    by_cases h : op = .cas
    · simp [hb h]
    · simp [h]
  exact issue_dxOp hr (by
    simp only [State.flagOk_mine hf, Res.ok_bind, State.target_reached ht, ho, hal, decide_true, need_true, hx, hc, State.load_eq_value]
    rfl)

section
variable (hn : (s.g gc).toNat ≠ 0) (hlt : (s.g gc).toNat < 2 ^ 31)
include hn hlt

theorem exec_rst {p : Byte} {pa : Nat} (ht : targets s (s.g ga) p) (hx : s.tr .engRd (s.g gb) 1 (s.g gc).toNat = .ok pa) :
    Machine.exec (.rst pg cf ga gb gc) s =
      commands s 1 (some cf.toNat) (.remote (remoteOf .rst p (s.g ga) (s.g gc).toNat pa)) :=
  issue_dxOp hr (by simp [State.flagOk_mine hf, lenOk_lt hlt, State.target_reached ht, State.range_filled hn, hx, hn]; rfl)

theorem exec_rld {p : Byte} {pa : Nat} (ht : targets s (s.g gb) p) (hx : s.tr .engWr (s.g ga) 1 (s.g gc).toNat = .ok pa) :
    Machine.exec (.rld pg cf ga gb gc) s =
      commands s 1 (some cf.toNat) (.remote (remoteOf .rld p (s.g gb) (s.g gc).toNat pa)) :=
  issue_dxOp hr (by simp [State.flagOk_mine hf, lenOk_lt hlt, State.target_reached ht, State.range_filled hn, hx, hn]; rfl)

theorem exec_rldIq {p : Byte} {q n : Nat} (ht : targets s (s.g gb) p) (hq : q ≤ 287) (h16 : n < 16)
    (hp : (s.g ga).toNat = q + 2 ^ 16 * n) (hb : (s.iq q n).bind = .reply s.focus) :
    Machine.exec (.rldIq pg cf ga gb gc) s = commands s 1 (some cf.toNat)
      (.remote { remoteOf .rldIq p (s.g gb) (s.g gc).toNat 0 with iqCore := q, iqPort := n }) := by
  have hcore : fld (s.g ga).toNat 0 9 = q := by
    simp only [fld, Nat.shiftRight_zero, hp]
    omega
  have hport : fld (s.g ga).toNat 16 4 = n := by
    simp only [fld, Nat.shiftRight_eq_div_pow, hp]
    omega
  have hnum : (s.g ga).toNat = q + n <<< 16 := by
    rw [hp, Nat.shiftLeft_eq, Nat.mul_comm]
  exact issue_dxOp hr (by
    simp only [State.flagOk_mine hf, Res.ok_bind, lenOk_lt hlt, hcore, hport, hb, State.target_reached ht, if_neg hn]
    simp [hnum, hq]
    rfl)
end

end

/-- Settles O45: each command's checks pass, or its operands overlap, as its own theorem says. -/
theorem engineCommands : Obligations.EngineCommands := by
  intro s pg cf ga gb gc hr
  refine ⟨fun i hi => exec_fence hr hi, fun hq => ⟨_, rfl, exec_dxDrain hr hq⟩,
    fun p hc ht => ⟨exec_rcfAdd hr hc ht, exec_fenceF hr hc ht⟩, fun hf =>
    ⟨fun dst src hn hlt hd hs => ⟨exec_dxCopy hr hf hn hlt hd hs, exec_dxCopy_overlap hr hf hn hlt hd hs⟩,
      fun p src dst hp ht => exec_dxPat hr hf hp ht,
      fun fsh n l m hl => ⟨exec_dxGat hr hl, exec_dxGat_overlap hr hl, exec_dxSct hr hl, exec_dxSct_overlap hr hl⟩,
      fun sp bg8 pa hh hn hlt ho hs => exec_dxStream hr hf hh hn hlt ho hs,
      fun imm => ⟨fun hv => ⟨exec_cfAdd hr hf hv, exec_cfAdd_behind hr hf hv⟩, exec_cfAdd_overflow hr hf⟩,
      fun hn hlt => ⟨fun p pa => exec_rst hr hf hn hlt, fun p pa => exec_rld hr hf hn hlt,
        fun p q n ht hq h16 hp hb => exec_rldIq hr hf hn hlt ht hq h16 hp hb⟩,
      fun op wide p pa => exec_ramo hr hf⟩⟩

end
end Sys2Proof.Machine
end
